-- ==== Sys2Proof/Word.lean ====
section
/-! DEFINITION. The word types of the GZ9 and their plainest conversions (spec/00_scope.md, Numbers: little-endian throughout, bit 0 the least significant). -/
namespace Sys2Proof

/-- A 64-bit register or system-state value (02 R41). -/
abbrev Word := BitVec 64

/-- One byte of memory. -/
abbrev Byte := BitVec 8

/-- One 64-byte line (07 R170). Byte i of the line is bits [8i+7:8i] (little-endian). -/
abbrev Line := BitVec 512

/-- A 5-bit register field of an encoding (03 R69). -/
abbrev Reg := BitVec 5

end Sys2Proof
end

