-- ==== Sys2Proof/Syntax.lean ====
section
/-! DEFINITION. The commands of the block: one constructor for each row of spec/opcode_table.json, in its order, with the row's operands (the table gives no bits). An instruction names the hardware thread t that executes it (01 R14) and the operand fields of its encoding (03 R68); `upto` of an instruction that can be interrupted part-way is the element, or the 4 KiB step, at whose boundary an event of the thread was recognised (02 R57): the instruction stops there. -/
namespace Sys2Proof


/-- Who writes or reads a register (15 R480): SEC attribute, kind (0 core thread, 1 device, 2 Lengthsman), its number (thread, stream or ring) and its VMID. -/
structure Agent where
  sec : Bool
  kind : Nat
  num : Nat
  vmid : Nat
  deriving DecidableEq, Repr

/-- A device's request to memory (10 R299; 14 R424): a read of n bytes, a write, or an atomic of n bytes. -/
inductive DevOp where
  | read (n : Nat)
  | write (bs : List Byte)
  | fetchAdd (n v : Nat)
  | swap (n v : Nat)
  | cas (n cmp v : Nat)
  deriving DecidableEq, Repr

/-- What a DRAM access finds (09 R260, R268): kind 0 no error, 1 correctable, 2 uncorrectable, 3 uncorrectable on both copies of a mirrored pair, 4 link retry, 5 link retries exhausted, 6 one metadata copy, 7 both metadata copies; with the rank, subchannel, device, row, bank and pseudo-channel where it lies. -/
structure MemErr where
  kind : Nat
  rank : Nat
  subch : Nat
  dev : Nat
  row : Nat
  bank : Nat
  pc : Nat
  deriving DecidableEq, Repr

/-- An error a RAS collector reports (07 R175, 08 R223, 18 R554): kind 0 single-bit data, 1 double-bit data, 2 tag parity with good state, 3 tag error with bad state parity, 4 recovery-copy parity, 5 directory single-bit, 6 directory double-bit, 7 directory double-bit with its recovery copy in error, 8 core array corrected, 9 translation array parity; the stop, cache level (0 L1D, 1 L1I, 2 L2, 3 LLC), way, set, sector, how it was found (17 R543) and, for corrected core-array errors, how many a merged report counts. -/
structure RasErr where
  kind : Nat
  stop : Nat
  level : Nat
  way : Nat
  set : Nat
  sector : Nat
  found : Nat
  count : Nat
  deriving DecidableEq, Repr

/-- The commands (spec/opcode_table.json). A last operand with a default is one most uses leave out: where an event stops an interruptible instruction (06 R166; 07 R186), a PASID prefix (10 R298), a poison mark (08 R206), a prefetch (07 R174), a write of part of a line (09 R252). -/
inductive Instr where
  /-- REGISTER_WRITE (R12): A write to a register that has no row of its own updates its fields according to their access types. -/
  | registerWrite (a : Agent) (off : Nat) (half : Bool) (data : BitVec 64)
  /-- TOWPATH_CLOCK_SOURCE_FAIL (R18): A Towpath clock source fails; the Towpath continues on the remaining sources under majority selection. -/
  | towpathClockSourceFail (k : Nat)
  /-- ADD (R76): Ed receives Ea + Eb. -/
  | add (t : Nat) (rd ra rb : Reg)
  /-- SUB (R76): Ed receives Ea − Eb. -/
  | sub (t : Nat) (rd ra rb : Reg)
  /-- AND (R76): Ed receives Ea AND Eb. -/
  | iand (t : Nat) (rd ra rb : Reg)
  /-- OR (R76): Ed receives Ea OR Eb. -/
  | ior (t : Nat) (rd ra rb : Reg)
  /-- XOR (R76): Ed receives Ea XOR Eb. -/
  | ixor (t : Nat) (rd ra rb : Reg)
  /-- ANDN (R76): Ed receives Ea AND NOT Eb. -/
  | andn (t : Nat) (rd ra rb : Reg)
  /-- SLL (R76): Ed receives Ea shifted left by Eb[5:0]. -/
  | sll (t : Nat) (rd ra rb : Reg)
  /-- SRL (R76): Ed receives Ea shifted right logically by Eb[5:0]. -/
  | srl (t : Nat) (rd ra rb : Reg)
  /-- SRA (R76): Ed receives Ea shifted right arithmetically by Eb[5:0]. -/
  | sra (t : Nat) (rd ra rb : Reg)
  /-- ROR (R76): Ed receives Ea rotated right by Eb[5:0]. -/
  | ror (t : Nat) (rd ra rb : Reg)
  /-- ADDW (R76): Ed receives the 32-bit sum, sign-extended. -/
  | addw (t : Nat) (rd ra rb : Reg)
  /-- SUBW (R76): Ed receives the 32-bit difference, sign-extended. -/
  | subw (t : Nat) (rd ra rb : Reg)
  /-- SEQ (R76): Ed receives 1 if Ea equals Eb, else 0. -/
  | seq (t : Nat) (rd ra rb : Reg)
  /-- SNE (R76): Ed receives 1 if Ea differs from Eb, else 0. -/
  | sne (t : Nat) (rd ra rb : Reg)
  /-- SLT (R76): Ed receives 1 if Ea is less than Eb, compared signed. -/
  | slt (t : Nat) (rd ra rb : Reg)
  /-- SLTU (R76): Ed receives 1 if Ea is less than Eb, compared unsigned. -/
  | sltu (t : Nat) (rd ra rb : Reg)
  /-- SGE (R76): Ed receives 1 if Ea is greater than or equal to Eb, compared signed. -/
  | sge (t : Nat) (rd ra rb : Reg)
  /-- SGEU (R76): Ed receives 1 if Ea is greater than or equal to Eb, compared unsigned. -/
  | sgeu (t : Nat) (rd ra rb : Reg)
  /-- MIN (R76): Ed receives the signed minimum of Ea and Eb. -/
  | imin (t : Nat) (rd ra rb : Reg)
  /-- MAX (R76): Ed receives the signed maximum of Ea and Eb. -/
  | imax (t : Nat) (rd ra rb : Reg)
  /-- MINU (R76): Ed receives the unsigned minimum of Ea and Eb. -/
  | minu (t : Nat) (rd ra rb : Reg)
  /-- MAXU (R76): Ed receives the unsigned maximum of Ea and Eb. -/
  | maxu (t : Nat) (rd ra rb : Reg)
  /-- ADDC (R76): Ed receives Ea + Eb + C, and TSTAT.C receives the carry out, even when RD is E0. -/
  | addc (t : Nat) (rd ra rb : Reg)
  /-- SUBB (R76): Ed receives Ea − Eb − C, and TSTAT.C receives the borrow out. -/
  | subb (t : Nat) (rd ra rb : Reg)
  /-- SELNZ (R76): Ed receives Ea when Eb is non-zero; otherwise Ed is unchanged. -/
  | selnz (t : Nat) (rd ra rb : Reg)
  /-- CLZ (R76): Ed receives the count of leading zeros of Ea. -/
  | clz (t : Nat) (rd ra : Reg)
  /-- CTZ (R76): Ed receives the count of trailing zeros of Ea. -/
  | ctz (t : Nat) (rd ra : Reg)
  /-- POP (R76): Ed receives the number of set bits of Ea. -/
  | pop (t : Nat) (rd ra : Reg)
  /-- BSWAP (R76): Ed receives Ea with its bytes reversed. -/
  | bswap (t : Nat) (rd ra : Reg)
  /-- SEXT_B (R76): Ed receives the low 8 bits of Ea, sign-extended. -/
  | sextB (t : Nat) (rd ra : Reg)
  /-- SEXT_H (R76): Ed receives the low 16 bits of Ea, sign-extended. -/
  | sextH (t : Nat) (rd ra : Reg)
  /-- SEXT_W (R76): Ed receives the low 32 bits of Ea, sign-extended. -/
  | sextW (t : Nat) (rd ra : Reg)
  /-- ZEXT_W (R76): Ed receives the low 32 bits of Ea, zero-extended. -/
  | zextW (t : Nat) (rd ra : Reg)
  /-- MUL (R77): Ed receives the low 64 bits of Ea × Eb. -/
  | mul (t : Nat) (rd ra rb : Reg)
  /-- MULH (R77): Ed receives the high 64 bits of the signed product. -/
  | mulh (t : Nat) (rd ra rb : Reg)
  /-- MULHU (R77): Ed receives the high 64 bits of the unsigned product. -/
  | mulhu (t : Nat) (rd ra rb : Reg)
  /-- MULHSU (R77): Ed receives the high 64 bits of Ea signed × Eb unsigned. -/
  | mulhsu (t : Nat) (rd ra rb : Reg)
  /-- MULWU (R126): The pair Ed, Ed+1 receives the unsigned 128-bit product. -/
  | mulwu (t : Nat) (rd ra rb : Reg)
  /-- MULWS (R126): The pair Ed, Ed+1 receives the signed 128-bit product. -/
  | mulws (t : Nat) (rd ra rb : Reg)
  /-- DIV (R123): Ed receives the signed quotient, with the edge results of R123 or a trap when DIVTRAP is 1. -/
  | div (t : Nat) (rd ra rb : Reg)
  /-- DIVU (R123): Ed receives the unsigned quotient, with the edge results of R123. -/
  | divu (t : Nat) (rd ra rb : Reg)
  /-- REM (R123): Ed receives the signed remainder, which takes the sign of the dividend. -/
  | rem (t : Nat) (rd ra rb : Reg)
  /-- REMU (R123): Ed receives the unsigned remainder. -/
  | remu (t : Nat) (rd ra rb : Reg)
  /-- DIVW (R122): Ed receives the signed 32-bit quotient, sign-extended. -/
  | divw (t : Nat) (rd ra rb : Reg)
  /-- DIVWU (R122): Ed receives the unsigned 32-bit quotient, sign-extended. -/
  | divwu (t : Nat) (rd ra rb : Reg)
  /-- ADDI (R78): Ed receives Ea + sext(IMM16). -/
  | addi (t : Nat) (rd ra : Reg) (imm : BitVec 16)
  /-- ANDI (R78): Ed receives Ea AND zext(IMM16). -/
  | andi (t : Nat) (rd ra : Reg) (imm : BitVec 16)
  /-- ORI (R78): Ed receives Ea OR zext(IMM16). -/
  | ori (t : Nat) (rd ra : Reg) (imm : BitVec 16)
  /-- XORI (R78): Ed receives Ea XOR zext(IMM16). -/
  | xori (t : Nat) (rd ra : Reg) (imm : BitVec 16)
  /-- SLTI (R78): Ed receives 1 if Ea is below the sign-extended immediate, compared signed. -/
  | slti (t : Nat) (rd ra : Reg) (imm : BitVec 16)
  /-- SLTIU (R78): Ed receives 1 if Ea is below the sign-extended immediate, compared unsigned. -/
  | sltiu (t : Nat) (rd ra : Reg) (imm : BitVec 16)
  /-- LUI (R78): Ed receives sext(IMM16 << 16). -/
  | lui (t : Nat) (rd : Reg) (imm : BitVec 16)
  /-- INSI (R78): IMM16 is inserted into halfword h of Ed; the other bits are unchanged. -/
  | insi (t : Nat) (rd : Reg) (h : BitVec 2) (imm : BitVec 16)
  /-- ADDPC (R78): Ed receives the 4 KiB-aligned PC plus sext(IMM21) × 4096. -/
  | addpc (t : Nat) (rd : Reg) (imm : BitVec 21)
  /-- SLLI (R78): Ed receives Ea shifted left by SHAMT. -/
  | slli (t : Nat) (rd ra : Reg) (sh : BitVec 6)
  /-- SRLI (R78): Ed receives Ea shifted right logically by SHAMT. -/
  | srli (t : Nat) (rd ra : Reg) (sh : BitVec 6)
  /-- SRAI (R78): Ed receives Ea shifted right arithmetically by SHAMT. -/
  | srai (t : Nat) (rd ra : Reg) (sh : BitVec 6)
  /-- RORI (R78): Ed receives Ea rotated right by SHAMT. -/
  | rori (t : Nat) (rd ra : Reg) (sh : BitVec 6)
  /-- LB (R79): A byte is loaded from Ea + offset and sign-extended into Ed. -/
  | lb (t : Nat) (rd ra : Reg) (imm : BitVec 16)
  /-- LBU (R79): A byte is loaded and zero-extended into Ed. -/
  | lbu (t : Nat) (rd ra : Reg) (imm : BitVec 16)
  /-- LH (R79): A halfword is loaded and sign-extended into Ed. -/
  | lh (t : Nat) (rd ra : Reg) (imm : BitVec 16)
  /-- LHU (R79): A halfword is loaded and zero-extended into Ed. -/
  | lhu (t : Nat) (rd ra : Reg) (imm : BitVec 16)
  /-- LW (R79): A word is loaded and sign-extended into Ed. -/
  | lw (t : Nat) (rd ra : Reg) (imm : BitVec 16)
  /-- LWU (R79): A word is loaded and zero-extended into Ed. -/
  | lwu (t : Nat) (rd ra : Reg) (imm : BitVec 16)
  /-- LD (R79): A doubleword is loaded into Ed, subject to translation, memory type, forwarding and the split rules. -/
  | ld (t : Nat) (rd ra : Reg) (imm : BitVec 16)
  /-- LQ (R79): 16 bytes are loaded into the pair Ed, Ed+1. -/
  | lq (t : Nat) (rd ra : Reg) (imm : BitVec 16)
  /-- SB (R79): The low byte of the data register is stored. -/
  | sb (t : Nat) (rd ra : Reg) (imm : BitVec 16)
  /-- SH (R79): The low halfword of the data register is stored. -/
  | sh (t : Nat) (rd ra : Reg) (imm : BitVec 16)
  /-- SW (R79): The low word of the data register is stored. -/
  | sw (t : Nat) (rd ra : Reg) (imm : BitVec 16)
  /-- SD (R79): The doubleword in the data register is stored. -/
  | sd (t : Nat) (rd ra : Reg) (imm : BitVec 16)
  /-- SQ (R79): The pair Ed, Ed+1 is stored as 16 bytes. -/
  | sq (t : Nat) (rd ra : Reg) (imm : BitVec 16)
  /-- MEMX (R80): An indexed load or store at Ea + (Eb << SCALE), optionally with acquire or release ordering. -/
  | memx (t : Nat) (rd ra rb : Reg) (kind : BitVec 4) (scale : BitVec 2) (ord : Bool)
  /-- FLH (R81): A binary16 value is loaded into the low 16 bits of SVd, and the rest of SVd is zeroed. -/
  | flh (t : Nat) (sd ra : Reg) (off : BitVec 13)
  /-- FLW (R81): A binary32 value is loaded into the low 32 bits of SVd, and the rest is zeroed. -/
  | flw (t : Nat) (sd ra : Reg) (off : BitVec 13)
  /-- FLD (R81): A binary64 value is loaded into the low 64 bits of SVd, and the rest is zeroed. -/
  | fld (t : Nat) (sd ra : Reg) (off : BitVec 13)
  /-- SVL (R81): A whole 32-byte SV register is loaded. -/
  | svl (t : Nat) (sd ra : Reg) (off : BitVec 13)
  /-- FSH (R81): The low 16 bits of SVd are stored. -/
  | fsh (t : Nat) (sd ra : Reg) (off : BitVec 13)
  /-- FSW (R81): The low 32 bits of SVd are stored. -/
  | fsw (t : Nat) (sd ra : Reg) (off : BitVec 13)
  /-- FSD (R81): The low 64 bits of SVd are stored. -/
  | fsd (t : Nat) (sd ra : Reg) (off : BitVec 13)
  /-- SVS (R81): A whole 32-byte SV register is stored. -/
  | svs (t : Nat) (sd ra : Reg) (off : BitVec 13)
  /-- ATOM_ADD (R82): Atomic add at Ea; Ed receives the old value. -/
  | atomAdd (t : Nat) (rd ra rb : Reg) (ord hint size : BitVec 2)
  /-- ATOM_AND (R82): Atomic AND at Ea; Ed receives the old value. -/
  | atomAnd (t : Nat) (rd ra rb : Reg) (ord hint size : BitVec 2)
  /-- ATOM_OR (R82): Atomic OR at Ea; Ed receives the old value. -/
  | atomOr (t : Nat) (rd ra rb : Reg) (ord hint size : BitVec 2)
  /-- ATOM_XOR (R82): Atomic XOR at Ea; Ed receives the old value. -/
  | atomXor (t : Nat) (rd ra rb : Reg) (ord hint size : BitVec 2)
  /-- ATOM_SMIN (R82): Atomic signed minimum at Ea; Ed receives the old value. -/
  | atomSmin (t : Nat) (rd ra rb : Reg) (ord hint size : BitVec 2)
  /-- ATOM_SMAX (R82): Atomic signed maximum at Ea; Ed receives the old value. -/
  | atomSmax (t : Nat) (rd ra rb : Reg) (ord hint size : BitVec 2)
  /-- ATOM_UMIN (R82): Atomic unsigned minimum at Ea; Ed receives the old value. -/
  | atomUmin (t : Nat) (rd ra rb : Reg) (ord hint size : BitVec 2)
  /-- ATOM_UMAX (R82): Atomic unsigned maximum at Ea; Ed receives the old value. -/
  | atomUmax (t : Nat) (rd ra rb : Reg) (ord hint size : BitVec 2)
  /-- ATOM_SWAP (R82): Atomic swap with Eb at Ea; Ed receives the old value. -/
  | atomSwap (t : Nat) (rd ra rb : Reg) (ord hint size : BitVec 2)
  /-- ATOM_CAS (R82): Atomic compare-and-swap against the old Ed, over the access size. -/
  | atomCas (t : Nat) (rd ra rb : Reg) (ord hint size : BitVec 2)
  /-- ATOM_FADD (R83): Atomic floating-point add with roundTiesToEven, no flags and no FTZ or DAZ. -/
  | atomFadd (t : Nat) (rd ra rb : Reg) (ord hint size : BitVec 2)
  /-- BEQ (R84): Branches if Ea equals Eb; the thread's fetch stops until the branch resolves. -/
  | beq (t : Nat) (ra rb : Reg) (off : BitVec 16)
  /-- BNE (R84): Branches if Ea differs from Eb. -/
  | bne (t : Nat) (ra rb : Reg) (off : BitVec 16)
  /-- BLT (R84): Branches if Ea is less than Eb, compared signed. -/
  | blt (t : Nat) (ra rb : Reg) (off : BitVec 16)
  /-- BGE (R84): Branches if Ea is greater than or equal to Eb, compared signed. -/
  | bge (t : Nat) (ra rb : Reg) (off : BitVec 16)
  /-- BLTU (R84): Branches if Ea is less than Eb, compared unsigned. -/
  | bltu (t : Nat) (ra rb : Reg) (off : BitVec 16)
  /-- BGEU (R84): Branches if Ea is greater than or equal to Eb, compared unsigned. -/
  | bgeu (t : Nat) (ra rb : Reg) (off : BitVec 16)
  /-- LOOP (R85): Decrements the trip count in Ec and branches backwards while the new count is non-zero. -/
  | loop (t : Nat) (ra : Reg) (off : BitVec 16)
  /-- J (R84): Unconditional PC-relative jump. -/
  | jmp (t : Nat) (off : BitVec 26)
  /-- JAL (R84): E1 receives PC + 4, then the thread jumps PC-relative. -/
  | jal (t : Nat) (off : BitVec 26)
  /-- JALR (R84): Ed receives PC + 4, then the thread jumps to Ea + immediate. -/
  | jalr (t : Nat) (rd ra : Reg) (imm : BitVec 16)
  /-- MFS (R86): Reads system state into Ed, under the access checks of R49. -/
  | mfs (t : Nat) (rd : Reg) (num : BitVec 12)
  /-- MTS (R86): Writes system state from Es, under the access checks of R49 and the sync rules of R50. -/
  | mts (t : Nat) (num : BitVec 12) (rs : Reg)
  /-- SYNCS (R50): Makes later instructions of the thread see every new value of sync-required state. -/
  | syncs (t : Nat)
  /-- XRET (R55): Restores TSTAT from XSTAT_t and continues at XPC_t, or raises ILLEGAL_RETURN. -/
  | xret (t : Nat)
  /-- WAIT (R87): Suspends the thread until an interrupt for it is pending. -/
  | wait (t : Nat)
  /-- WAIT_WAKE (R87): An interrupt or doorbell that becomes pending for a suspended thread ends its WAIT. -/
  | waitWake (t : Nat)
  /-- FENCE_LL (R65): Orders earlier loads before later loads. -/
  | fenceLl (t : Nat)
  /-- FENCE_LS (R65): Orders earlier loads before later stores. -/
  | fenceLs (t : Nat)
  /-- FENCE_SL (R65): Orders earlier stores before later loads. -/
  | fenceSl (t : Nat)
  /-- FENCE_SS (R65): Orders earlier stores before later stores. -/
  | fenceSs (t : Nat)
  /-- FENCE_FULL (R65): Orders all earlier accesses before all later accesses. -/
  | fenceFull (t : Nat)
  /-- FENCE_IO (R65): Acts as FENCE.FULL and waits until earlier Device stores have been accepted. -/
  | fenceIo (t : Nat)
  /-- FENCE_FETCH (R65): Later instruction fetches see the stores visible to the thread. -/
  | fenceFetch (t : Nat)
  /-- SEND (R328): Sends an inter-processor interrupt, either virtual or physical, once earlier stores are visible. -/
  | isend (t : Nat) (ra rb : Reg)
  /-- SYSCALL (R88): Raises a SYSCALL call exception with the immediate in INFO. -/
  | syscall (t : Nat) (imm : BitVec 16)
  /-- HYPCALL (R88): Raises a HYPCALL to level 2, or PRIV_INSTR where R56 forbids it. -/
  | hypcall (t : Nat) (imm : BitVec 16)
  /-- MONCALL (R88): Raises a MONCALL to level 3. -/
  | moncall (t : Nat) (imm : BitVec 16)
  /-- BREAK (R88): Raises a BREAK debug exception. -/
  | ibreak (t : Nat) (imm : BitVec 16)
  /-- CMO_C (R181): Cleans the line at Ea in every cache of the chip. -/
  | cmoC (t : Nat) (ra : Reg)
  /-- CMO_I (R181): Invalidates the line at Ea; a guest's invalidate is performed as CI. -/
  | cmoI (t : Nat) (ra : Reg)
  /-- CMO_CI (R181): Cleans and then invalidates the line at Ea. -/
  | cmoCi (t : Nat) (ra : Reg)
  /-- CMO_RANGE_C (R186): Cleans a range in 4 KiB steps; the operation can be interrupted, with its progress kept in Ea and Eb. -/
  | cmoRangeC (t : Nat) (ra rb : Reg) (upto : Option Nat := none)
  /-- CMO_RANGE_I (R186): Invalidates a range in 4 KiB steps. -/
  | cmoRangeI (t : Nat) (ra rb : Reg) (upto : Option Nat := none)
  /-- CMO_RANGE_CI (R186): Cleans and invalidates a range in 4 KiB steps. -/
  | cmoRangeCi (t : Nat) (ra rb : Reg) (upto : Option Nat := none)
  /-- CMO_SW_C (R188): Cleans the entry in the cache slot named by set and way. -/
  | cmoSwC (t : Nat) (ra : Reg)
  /-- CMO_SW_I (R188): Invalidates the entry in the slot named by set and way. -/
  | cmoSwI (t : Nat) (ra : Reg)
  /-- CMO_SW_CI (R188): Cleans and invalidates the entry in the slot named by set and way. -/
  | cmoSwCi (t : Nat) (ra : Reg)
  /-- TLBI_VA (R294): Removes the translations of one page, for an ASID or global, on every core and the IOTU. -/
  | tlbiVa (t : Nat) (ra rb : Reg)
  /-- TLBI_ASID (R294): Removes every non-global entry of an ASID. -/
  | tlbiAsid (t : Nat) (rb : Reg)
  /-- TLBI_VMID (R294): Removes every entry of a VMID, at both stages. -/
  | tlbiVmid (t : Nat) (rb : Reg)
  /-- TLBI_ALL (R294): Removes every entry of the issuing world. -/
  | tlbiAll (t : Nat)
  /-- FADD (R91): Scalar floating-point add, with rounding and flags per FPCTL. -/
  | fadd (t : Nat) (fmt : BitVec 2) (rd ra rb : Reg)
  /-- FSUB (R91): Scalar floating-point subtract. -/
  | fsub (t : Nat) (fmt : BitVec 2) (rd ra rb : Reg)
  /-- FMUL (R91): Scalar floating-point multiply. -/
  | fmul (t : Nat) (fmt : BitVec 2) (rd ra rb : Reg)
  /-- FDIV (R91): Scalar floating-point divide. -/
  | fdiv (t : Nat) (fmt : BitVec 2) (rd ra rb : Reg)
  /-- FSQRT (R91): Scalar floating-point square root. -/
  | fsqrt (t : Nat) (fmt : BitVec 2) (rd ra : Reg)
  /-- FMADD (R91): Fused Sd + Sa × Sb with one rounding. -/
  | fmadd (t : Nat) (fmt : BitVec 2) (rd ra rb : Reg)
  /-- FMSUB (R91): Fused Sd − Sa × Sb with one rounding. -/
  | fmsub (t : Nat) (fmt : BitVec 2) (rd ra rb : Reg)
  /-- FMIN (R135): IEEE 754-2019 minimum. -/
  | fmin (t : Nat) (fmt : BitVec 2) (rd ra rb : Reg)
  /-- FMAX (R135): IEEE 754-2019 maximum. -/
  | fmax (t : Nat) (fmt : BitVec 2) (rd ra rb : Reg)
  /-- FABS (R91): Clears the sign bit without changing any flag. -/
  | fabs (t : Nat) (fmt : BitVec 2) (rd ra : Reg)
  /-- FNEG (R91): Inverts the sign bit without changing any flag. -/
  | fneg (t : Nat) (fmt : BitVec 2) (rd ra : Reg)
  /-- FCMPEQ (R135): Quiet equality compare into an E register. -/
  | fcmpeq (t : Nat) (fmt : BitVec 2) (rd ra rb : Reg)
  /-- FCMPLT (R135): Signalling less-than compare into an E register. -/
  | fcmplt (t : Nat) (fmt : BitVec 2) (rd ra rb : Reg)
  /-- FCMPLE (R135): Signalling less-or-equal compare into an E register. -/
  | fcmple (t : Nat) (fmt : BitVec 2) (rd ra rb : Reg)
  /-- FCLASS (R136): Writes a one-hot class bitmap of Sa to Ed. -/
  | fclass (t : Nat) (fmt : BitVec 2) (rd ra : Reg)
  /-- FCVT (R91): Converts between floating-point formats. -/
  | fcvt (t : Nat) (fmt : BitVec 2) (rd ra : Reg) (dst : BitVec 2)
  /-- FCVTI (R137): Converts to a signed 64-bit integer, with saturation and INVALID out of range. -/
  | fcvti (t : Nat) (fmt : BitVec 2) (rd ra : Reg)
  /-- FCVTIU (R137): Converts to an unsigned 64-bit integer, with saturation and INVALID out of range. -/
  | fcvtiu (t : Nat) (fmt : BitVec 2) (rd ra : Reg)
  /-- FCVTF (R137): Converts a signed integer in Ea to floating point. -/
  | fcvtf (t : Nat) (fmt : BitVec 2) (rd ra : Reg)
  /-- FCVTFU (R137): Converts an unsigned integer in Ea to floating point. -/
  | fcvtfu (t : Nat) (fmt : BitVec 2) (rd ra : Reg)
  /-- FMVE (R91): Moves the low 64 bits of Sa to Ed. -/
  | fmve (t : Nat) (fmt : BitVec 2) (rd ra : Reg)
  /-- FMVS (R91): Moves Ea to the low 64 bits of Sd and zeroes the rest. -/
  | fmvs (t : Nat) (fmt : BitVec 2) (rd ra : Reg)
  /-- VADD (R92): Lane-wise add on SV or LV registers, masked. -/
  | vadd (t : Nat) (long : Bool) (vd va vb : Reg) (mask et : BitVec 3)
  /-- VSUB (R92): Lane-wise subtract. -/
  | vsub (t : Nat) (long : Bool) (vd va vb : Reg) (mask et : BitVec 3)
  /-- VMUL (R92): Lane-wise multiply; integer forms keep the low half. -/
  | vmul (t : Nat) (long : Bool) (vd va vb : Reg) (mask et : BitVec 3)
  /-- VMULH (R92): Lane-wise high half of the signed product. -/
  | vmulh (t : Nat) (long : Bool) (vd va vb : Reg) (mask et : BitVec 3)
  /-- VMIN (R92): Lane-wise signed or IEEE minimum. -/
  | vmin (t : Nat) (long : Bool) (vd va vb : Reg) (mask et : BitVec 3)
  /-- VMAX (R92): Lane-wise signed or IEEE maximum. -/
  | vmax (t : Nat) (long : Bool) (vd va vb : Reg) (mask et : BitVec 3)
  /-- VMINU (R92): Lane-wise unsigned minimum. -/
  | vminu (t : Nat) (long : Bool) (vd va vb : Reg) (mask et : BitVec 3)
  /-- VMAXU (R92): Lane-wise unsigned maximum. -/
  | vmaxu (t : Nat) (long : Bool) (vd va vb : Reg) (mask et : BitVec 3)
  /-- VAND (R92): Lane-wise AND. -/
  | vand (t : Nat) (long : Bool) (vd va vb : Reg) (mask et : BitVec 3)
  /-- VOR (R92): Lane-wise OR. -/
  | vor (t : Nat) (long : Bool) (vd va vb : Reg) (mask et : BitVec 3)
  /-- VXOR (R92): Lane-wise XOR. -/
  | vxor (t : Nat) (long : Bool) (vd va vb : Reg) (mask et : BitVec 3)
  /-- VSLL (R92): Lane-wise left shift, modulo the element width. -/
  | vsll (t : Nat) (long : Bool) (vd va vb : Reg) (mask et : BitVec 3)
  /-- VSRL (R92): Lane-wise logical right shift. -/
  | vsrl (t : Nat) (long : Bool) (vd va vb : Reg) (mask et : BitVec 3)
  /-- VSRA (R92): Lane-wise arithmetic right shift. -/
  | vsra (t : Nat) (long : Bool) (vd va vb : Reg) (mask et : BitVec 3)
  /-- VFMA (R151): Lane-wise fused multiply-add; the bfloat16 form accumulates pairs into binary32. -/
  | vfma (t : Nat) (long : Bool) (vd va vb : Reg) (mask et : BitVec 3)
  /-- VFMS (R151): Lane-wise fused multiply-subtract. -/
  | vfms (t : Nat) (long : Bool) (vd va vb : Reg) (mask et : BitVec 3)
  /-- VDIV (R153): Lane-wise floating-point divide on the vector divider. -/
  | vdiv (t : Nat) (long : Bool) (vd va vb : Reg) (mask et : BitVec 3)
  /-- VSQRT (R153): Lane-wise floating-point square root. -/
  | vsqrt (t : Nat) (long : Bool) (vd va : Reg) (mask et : BitVec 3)
  /-- VCMPEQ (R148): Lane-wise equality compare into a mask register. -/
  | vcmpeq (t : Nat) (long : Bool) (vd va vb : Reg) (mask et : BitVec 3)
  /-- VCMPLT (R148): Lane-wise less-than compare into a mask register. -/
  | vcmplt (t : Nat) (long : Bool) (vd va vb : Reg) (mask et : BitVec 3)
  /-- VCMPLE (R148): Lane-wise less-or-equal compare into a mask register. -/
  | vcmple (t : Nat) (long : Bool) (vd va vb : Reg) (mask et : BitVec 3)
  /-- VCMPLTU (R148): Lane-wise unsigned less-than compare into a mask register. -/
  | vcmpltu (t : Nat) (long : Bool) (vd va vb : Reg) (mask et : BitVec 3)
  /-- VREDSUM (R149): Sums the active lanes into lane 0. -/
  | vredsum (t : Nat) (long : Bool) (vd va : Reg) (mask et : BitVec 3)
  /-- VREDMIN (R149): Takes the minimum of the active lanes into lane 0. -/
  | vredmin (t : Nat) (long : Bool) (vd va : Reg) (mask et : BitVec 3)
  /-- VREDMAX (R149): Takes the maximum of the active lanes into lane 0. -/
  | vredmax (t : Nat) (long : Bool) (vd va : Reg) (mask et : BitVec 3)
  /-- VSAD (R155): Sums of absolute differences over 64-bit groups. -/
  | vsad (t : Nat) (long : Bool) (vd va vb : Reg) (mask et : BitVec 3)
  /-- VSADA (R155): Sums of absolute differences, accumulated into VD. -/
  | vsada (t : Nat) (long : Bool) (vd va vb : Reg) (mask et : BitVec 3)
  /-- VCVT (R150): Lane-wise type conversion, widening or narrowing. -/
  | vcvt (t : Nat) (long : Bool) (vd va : Reg) (mask et dst : BitVec 3)
  /-- VBCAST (R92): Broadcasts a scalar to every lane. -/
  | vbcast (t : Nat) (long : Bool) (vd va : Reg) (mask et : BitVec 3)
  /-- VSEL (R92): Selects lanes of VA or VB by the mask. -/
  | vsel (t : Nat) (long : Bool) (vd va vb : Reg) (mask et : BitVec 3)
  /-- VPERM (R92): Permutes the lanes of VA by the indices in VB. -/
  | vperm (t : Nat) (long : Bool) (vd va vb : Reg) (mask et : BitVec 3)
  /-- VEXT (R92): Extracts lane Eb of VA into Ed. -/
  | vext (t : Nat) (long : Bool) (vd va vb : Reg) (mask et : BitVec 3)
  /-- MAND (R94): Md receives Ma AND Mb. -/
  | mand (t : Nat) (md ma mb : Reg)
  /-- MOR (R94): Md receives Ma OR Mb. -/
  | mor (t : Nat) (md ma mb : Reg)
  /-- MXOR (R94): Md receives Ma XOR Mb. -/
  | mxor (t : Nat) (md ma mb : Reg)
  /-- MANDN (R94): Md receives Ma AND NOT Mb. -/
  | mandn (t : Nat) (md ma mb : Reg)
  /-- MNOT (R94): Md receives NOT Ma. -/
  | mnot (t : Nat) (md ma : Reg)
  /-- MPOP (R94): Ed receives the number of set bits of Ma. -/
  | mpop (t : Nat) (rd ma : Reg)
  /-- MFIRST (R94): Ed receives the index of the lowest set bit of Ma, or 256 if none. -/
  | mfirst (t : Nat) (rd ma : Reg)
  /-- MGET (R94): Ed receives 64-bit part PART of Ma. -/
  | mget (t : Nat) (rd ma : Reg) (part : BitVec 2)
  /-- MSET (R94): 64-bit part PART of Md receives Ea. -/
  | mset (t : Nat) (md ra : Reg) (part : BitVec 2)
  /-- VLS_LOAD (R95): Contiguous or strided vector load from VPROG onward, element by element. -/
  | vlsLoad (t : Nat) (long : Bool) (vd ra rb : Reg) (mask : BitVec 3) (esize : BitVec 2) (upto : Option Nat := none)
  /-- VLS_STORE (R95): Contiguous or strided vector store, with elements committed in index order. -/
  | vlsStore (t : Nat) (long : Bool) (vd ra rb : Reg) (mask : BitVec 3) (esize : BitVec 2) (upto : Option Nat := none)
  /-- VGATHER (R159): Gathers elements near or far, committing lanes in index order from VPROG. -/
  | vgather (t : Nat) (long : Bool) (vd ra vidx : Reg) (mask : BitVec 3) (scale hint esize : BitVec 2) (idx64 : Bool) (upto : Option Nat := none)
  /-- VSCATTER (R162): Scatters elements near, in index order; the highest-numbered active element wins a shared byte. -/
  | vscatter (t : Nat) (long : Bool) (vd ra vidx : Reg) (mask : BitVec 3) (scale hint esize : BitVec 2) (idx64 : Bool) (upto : Option Nat := none)
  /-- IRQ_PHYS (R57): A pending physical interrupt or doorbell interrupt is taken at an instruction or element boundary. -/
  | irqPhys (t : Nat)
  /-- IRQ_VIRT (R325): A vINTID returned by TAKE is taken to level 1 at the next boundary at which the conditions still hold. -/
  | irqVirt (t : Nat)
  /-- LOOP_COUNT_WAIT (R103): A LOOP held at DE1 loads a trip counter once the value of Ec is available. -/
  | loopCountWait (t : Nat) (ra : Reg) (bad : Bool := false)
  /-- STAGING_READ (R106): A staging read returns a block to the thread's staging entry without changing any state. -/
  | stagingRead (t : Nat) (bad : Bool := false)
  /-- STORE_BUFFER_DRAIN (R114): A retired store is written from the store buffer to L1D in program order. -/
  | storeBufferDrain (t : Nat)
  /-- LINE_FILL (R173): The last byte of a line fill arrives; the waiting access completes in the following cycle. -/
  | lineFill (stop line level cls : Nat)
  /-- WAY_DISABLE_COMPLETE (R178): Once a way's dirty lines are written back and its entries invalidated, the way is marked disabled. -/
  | wayDisableComplete (level stop way : Nat)
  /-- RDSHARED (R222): The home serves a read for sharing according to the directory state. -/
  | rdshared (t line : Nat) (sec : Bool) (pf : Bool := false)
  /-- RDCODE (R222): The home serves an instruction-fetch read, granting S. -/
  | rdcode (t line : Nat) (sec : Bool)
  /-- RDOWN (R222): The home serves a read for ownership, invalidating other copies. -/
  | rdown (t line : Nat) (sec : Bool)
  /-- UPGRADE (R222): The home grants ownership of a line held in S, or serves the request as RdOwn. -/
  | upgrade (t line : Nat) (sec : Bool)
  /-- RDCUR (R222): The home supplies the current value, and the requester keeps no copy. -/
  | rdcur (agent line : Nat) (sec : Bool) (cls stream : Nat)
  /-- GATHERREQ (R159): A home slice reads up to 16 gather elements coherently and packs the response. -/
  | gatherreq (t : Nat) (sec long : Bool) (vd : Reg) (esz : Nat) (elems : List (Nat × Nat × Nat))
  /-- WRLINE (R222): The home writes a full line, invalidating copies and clearing poison. -/
  | wrline (agent line : Nat) (sec : Bool) (cls stream : Nat) (data : BitVec 512) (poison : Bool := false)
  /-- WRPART (R222): The home merges a partial write into the line. -/
  | wrpart (agent line : Nat) (sec : Bool) (cls stream : Nat) (data : BitVec 512) (mask : BitVec 64) (poison : Bool := false)
  /-- ATOMFAR (R232): The home's ALU performs a far atomic and returns the old value. -/
  | atomfar (t line : Nat) (sec : Bool) (va : BitVec 64) (rd : Reg) (atop size : Nat) (operand cmp : BitVec 128) (auto : Bool)
  /-- WBREQ (R222): The home answers a dirty eviction with WbPull or WbCancel. -/
  | wbreq (stop line : Nat)
  /-- EVICTCLEAN (R222): The home removes the core from the directory entry and may pull clean data. -/
  | evictclean (stop line : Nat)
  /-- CMOREQ (R185): The home performs maintenance on a line: it snoops, collects dirty data and writes memory. -/
  | cmoreq (t line : Nat) (sec : Bool) (op : Nat)
  /-- SNPSHARED (R218): The owner forwards the data in S and downgrades, or parks the snoop during its hold window. -/
  | snpshared (stop line : Nat)
  /-- SNPOWN (R218): The owner forwards the data and invalidates its copy. -/
  | snpown (stop line : Nat)
  /-- SNPINV (R218): The holder invalidates its copy without sending data. -/
  | snpinv (stop line : Nat)
  /-- SNPCUR (R218): The owner sends a copy of the data to the home at once and keeps its state. -/
  | snpcur (stop line : Nat)
  /-- SNPRECALL (R218): The holder invalidates its copy and returns dirty data to the home. -/
  | snprecall (stop line : Nat)
  /-- WBPULL (R222): The evicting core sends the evicted data to the home. -/
  | wbpull (stop line : Nat)
  /-- SNPRESP (R206): The home records a completed snoop. -/
  | snpresp (stop line : Nat)
  /-- CMP (R222): The requester receives the completion that all invalidations are done. -/
  | cmp (stop line : Nat)
  /-- COMPACK (R217): The home closes the open transaction and serves the next request to the line. -/
  | compack (stop line : Nat)
  /-- WBCANCEL (R222): The core frees its victim buffer. -/
  | wbcancel (stop line : Nat)
  /-- ATOMRESP (R231): The core completes a far atomic with the old value and its CONTENDED bit. -/
  | atomresp (t line : Nat)
  /-- CMODONE (R185): The issuing core records that maintenance of a line has completed. -/
  | cmodone (t line : Nat)
  /-- DATA (R222): The requester installs line data from the home, with its grant and poison mark. -/
  | data (stop line : Nat)
  /-- FWDDATA (R222): The requester installs data forwarded by the owner. -/
  | fwddata (stop line : Nat)
  /-- SNPDATA (R206): The home receives data returned on a snoop. -/
  | snpdata (stop line : Nat)
  /-- WBDATA (R222): The home writes written-back data into the LLC sector or memory and closes the write-back. -/
  | wbdata (stop line : Nat)
  /-- GATHERDATA (R159): The core writes the packed far-gather elements into their lanes. -/
  | gatherdata (t line : Nat)
  /-- HOLD_WINDOW_END (R224): The hold window ends, and the cache answers the snoops it parked. -/
  | holdWindowEnd (stop line : Nat)
  /-- FLIT_CRC_ERROR (R211): A receiver discards a flit with a bad CRC and requests replay from the transmitter. -/
  | flitCrcError (kind stop : Nat) (ba again : Bool)
  /-- LINK_RETRAIN_END (R212): Retraining ends with spare lanes, half width, recovery or failure of the link. -/
  | linkRetrainEnd (kind stop : Nat) (ba ok : Bool) (lanes : List Nat)
  /-- MESH_LINK_FAILED (R213): Rerouting of a failed element completes, service is restored and the element is logged. -/
  | meshLinkFailed (kind stop : Nat)
  /-- AQUEDUCT_IDLE_TIMEOUT (R494): 100 µs after the last message crossed, an aqueduct withdraws its DEP vote. -/
  | aqueductIdleTimeout (n : Nat)
  /-- MEMORY_REQUEST (R251): A controller queues a read or write and schedules it by age, QoS, type and row state. -/
  | memoryRequest (line : Nat) (wr : Bool) (cls : Nat) (part : Bool := false)
  /-- DRAM_ACCESS_COMPLETE (R260): A DRAM read completes with ECC checking and its data are delivered, corrected or poisoned. -/
  | dramAccessComplete (k : Nat) (e : MemErr)
  /-- REFRESH_DUE (R255): At each tREFI a refresh falls due for a rank and is issued or postponed. -/
  | refreshDue (u r : Nat) (postpone : Bool)
  /-- SELF_REFRESH_ENTRY (R258): A channel idle for SR_IDLE repays its debt and enters self-refresh. -/
  | selfRefreshEntry (u : Nat)
  /-- SELF_REFRESH_EXIT (R258): A request arriving in self-refresh restarts the clocks and the DIMMs leave self-refresh. -/
  | selfRefreshExit (u pc : Nat) (ok : Bool)
  /-- PERIODIC_RETRAIN (R259): Every 100 ms, staggered, a channel or stack retrains. -/
  | periodicRetrain (u pc : Nat) (ok : Bool)
  /-- SUBST_WALK_END (R262): The re-encoding walk of a rank completes. -/
  | substWalkEnd (c r : Nat)
  /-- CHANNEL_FAILURE (R263): A DDR5 channel fails; a mirrored active member starts failover, and an unmirrored channel returns poison. -/
  | channelFailure (c cause : Nat)
  /-- DDR_FAILOVER (R263): Re-sent reads complete on the survivor, and the failover event is written. -/
  | ddrFailover (c : Nat)
  /-- PATROL_SCRUB (R266): A patrol read of the next line, handled under the error rules. -/
  | patrolScrub (u : Nat) (e : MemErr)
  /-- HBM_ROW_REPAIR (R267): A soft post-package repair of a row completes and is logged. -/
  | hbmRowRepair (st pc bank row : Nat)
  /-- DEVICE_REQUEST (R299): The IOTU translates a device memory request under its stream's context, or faults it. -/
  | deviceRequest (stream iova : Nat) (op : DevOp) (tr : Bool) (pasid : Bool := false)
  /-- MSI_WRITE (R301): A write to the MSI window is passed to the Interrupt Router and translated to a post or a physical interrupt. -/
  | msiWrite (stream iova : Nat) (data : BitVec 32)
  /-- ATS_TRANSLATION_REQUEST (R303): The IOTU returns the combined translation and permissions to a device. -/
  | atsTranslationRequest (stream iova : Nat) (pasid : Bool := false)
  /-- ATS_INV_TIMEOUT (R303): An ATS Invalidate not completed within TIMEOUT is recorded, and the device's translated requests are faulted. -/
  | atsInvTimeout (stream : Nat)
  /-- IOT_INV_STREAM (R311): Removes one stream's context and translations, optionally preloading and pinning it. -/
  | iotInvStream (a : Agent) (stream : Nat) (preload : Bool)
  /-- IOT_INV_ALL (R311): Removes every context and translation. -/
  | iotInvAll (a : Agent) (stream : Nat) (preload : Bool)
  /-- INTERNAL_INTERRUPT (R317): An internal source raises an event ID, which the router translates through the internal table. -/
  | internalInterrupt (src ev : Nat)
  /-- DOORBELL (R323): A doorbell reaches a thread's core and sets its PENDING flag. -/
  | doorbell (t : Nat)
  /-- TAKE (R325): The core asks the router for the highest-priority pending vINTID. -/
  | take (t : Nat)
  /-- TAKE_REPLY (R325): The router's reply delivers a vINTID or NONE to the core; an undeliverable vINTID is handed back. -/
  | takeReply (t : Nat)
  /-- RECORD_LOAD (R324): A write to IRT_THR_n with V = 1 loads a posting record on the thread. -/
  | recordLoad (a : Agent) (n rec : Nat)
  /-- RECORD_UNLOAD (R324): A write to IRT_THR_n with V = 0 unloads the record and may raise the doorbell interrupt. -/
  | recordUnload (a : Agent) (n : Nat)
  /-- IRT_TCMD_INVALIDATE_SOURCE (R346): Invalidates the cached entries of one source. -/
  | irtTcmdInvalidateSource (a : Agent) (internal : Bool) (src : Nat)
  /-- IRT_TCMD_INVALIDATE_ALL (R346): Invalidates every cached entry and reloads the pinned ones. -/
  | irtTcmdInvalidateAll (a : Agent)
  /-- IRT_TCMD_PIN (R330): Pins an Express entry into a pinned slot. -/
  | irtTcmdPin (a : Agent) (internal : Bool) (src ev : Nat)
  /-- IRT_TCMD_UNPIN (R346): Unpins an Express entry. -/
  | irtTcmdUnpin (a : Agent) (internal : Bool) (src ev : Nat)
  /-- IRT_ACK_N (R327): Reading the Normal acknowledge register returns and clears the lowest pending Normal-bank INTID. -/
  | irtAckN (a : Agent) (n : Nat)
  /-- IRT_ACK_S (R327): Reading the Secure acknowledge register returns and clears the lowest pending Secure-bank INTID. -/
  | irtAckS (a : Agent) (n : Nat)
  /-- IRQ_DEADLINE (R333): An Express interrupt not taken 1 µs after arrival writes a deadline record. -/
  | irqDeadline (k : Nat)
  /-- BANDWIDTH_WINDOW (R336): Each 1 µs QoS window starts, and the per-class memory counts restart. -/
  | bandwidthWindow
  /-- TENANT_RESET (R339): Galley 0x0305 starts quiesce-and-reset of a VMID in a reset slot. -/
  | tenantReset (r : Nat)
  /-- TENANT_RESET_DONE (R339): The reset sequence reaches step 7 and the slot shows DONE. -/
  | tenantResetDone (slot : Nat)
  /-- RESET_TIMEOUT (R339): A tenant reset still running 200 µs after acceptance is reported. -/
  | resetTimeout (slot : Nat)
  /-- TENANT_RELEASE (R340): Galley 0x0306 releases a VMID's block and its slot. -/
  | tenantRelease (r : Nat)
  /-- QOS_TRST_RESET (R353): QOS_TRST with OP = 1 starts a tenant reset. -/
  | qosTrstReset (a : Agent) (vmid cls : Nat)
  /-- QOS_TRST_RELEASE (R353): QOS_TRST with OP = 2 releases a tenant. -/
  | qosTrstRelease (a : Agent) (vmid cls : Nat)
  /-- MT_CODE_FRAME (R355): A complete MT_CODE frame is received and its CRC checked. -/
  | mtCodeFrame (value : BitVec 64) (crc : BitVec 8)
  /-- MT_EPOCH (R356): An epoch is judged good or bad, and the Lock-Keeper acquires, keeps or loses time. -/
  | mtEpoch
  /-- REFERENCE_LOST (R357): No MT_REFCLK edge for 50 ns enters HOLDOVER on the internal oscillator. -/
  | referenceLost
  /-- PTP_WAIT_EXPIRY (R357): After PTP_WAIT ms in AWAIT or HOLDOVER with PTP_EN, the state becomes PTP. -/
  | ptpWaitExpiry
  /-- PTP_SYNC (R359): The Lengthsman sets or steers MT from an accepted IEEE 1588 synchronisation. -/
  | ptpSync (t : BitVec 64) (ppb : Int)
  /-- SLEW_END (R358): A slewing MT reaches the machine's time and SLEWING clears. -/
  | slewEnd
  /-- PASSAGE_PRESENT (R367): 2 µs before F, a RAISE, RELEASE or SNAPSHOT passage is handed to its destination. -/
  | passagePresent (b : Nat)
  /-- RAISE (R366): At F, internal source 0x080 + b raises the berth's event ID. -/
  | raise (b : Nat)
  /-- RELEASE (R399): At F, a Barge channel's release input clears HOLD or adds a credit. -/
  | release (b : Nat)
  /-- SNAPSHOT (R376): At F, every counter latches into its shadow. -/
  | snapshot (b : Option Nat)
  /-- PULSE (R366): At F, PULSE_OUT or SYNC_OUT is driven high for WIDTH cycles. -/
  | pulse (b : Nat)
  /-- PULSE_END (R366): After WIDTH reference cycles the pulse ends. -/
  | pulseEnd (pin : Nat)
  /-- VOTE (R366): At F, the LKP vote is placed on or withdrawn from a domain. -/
  | vote (b : Nat)
  /-- SNAPSHOT_COMPLETE (R376): Once every stop confirms, LKP_SNAP_MT is written and SEQ is incremented. -/
  | snapshotComplete
  /-- BERTH_QUOTA_SET (R373): Sets the berth quota of a VMID. -/
  | berthQuotaSet (r : Nat)
  /-- BERTH_ALLOC (R363): Allocates the lowest free berth of the world to an owner. -/
  | berthAlloc (r : Nat)
  /-- BERTH_FREE (R373): Frees a berth, withdrawing its presented passage. -/
  | berthFree (r : Nat)
  /-- BERTH_ARM (R373): Replaces a berth's programme in one step, or returns DEADLINE_MISSED. -/
  | berthArm (r : Nat)
  /-- BERTH_DISARM (R373): Disarms a berth and returns LAST. -/
  | berthDisarm (r : Nat)
  /-- BERTH_QUERY (R373): Returns a berth's FIRE, owner and configuration. -/
  | berthQuery (r : Nat)
  /-- TIME_STATUS (R373): Returns LKP_STATUS and LKP_EPOCH. -/
  | timeStatus (r : Nat)
  /-- TIME_PTP (R373): Sets PTP_EN. -/
  | timePtp (r : Nat)
  /-- SYNC_GATE (R373): Arms or disarms the Sync gate. -/
  | syncGate (r : Nat)
  /-- LKP_BERTH_CFG_WRITE (R364): A CFG frame write arms or disarms a berth, within ACTMASK and range checks. -/
  | lkpBerthCfgWrite (a : Agent) (b : Nat) (data : BitVec 64)
  /-- LKP_SEC_RES_WRITE (R362): Secure firmware reserves the top berths as Secure and locks the count, if none of them is Normal-allocated. -/
  | lkpSecResWrite (a : Agent) (data : BitVec 64)
  /-- LKP_SYNC_CTL_ARM (R374): A write of ARMED = 1 arms the Sync gate and raises SYNC_ARM. -/
  | lkpSyncCtlArm (a : Agent) (timeout : Nat)
  /-- LKP_SYNC_CTL_DISARM (R374): A write of ARMED = 0 disarms the Sync gate. -/
  | lkpSyncCtlDisarm (a : Agent) (timeout : Nat)
  /-- SYNC_IN_RISE (R374): A sampled rising edge of SYNC_IN is acknowledged if the gate is armed, or counted as unarmed. -/
  | syncInRise
  /-- SYNC_IN_FALL (R374): SYNC_IN sampled low releases SYNC_OUT. -/
  | syncInFall
  /-- SYNC_TIMEOUT (R374): A gate armed for TIMEOUT µs without an edge is reported. -/
  | syncTimeout
  /-- BRG_CH_TAIL (R389): A channel doorbell write records TAIL for the engine to take manifests. -/
  | brgChTail (a : Agent) (c tail : Nat)
  /-- MANIFEST_TAKE (R393): A RUNNING channel reads and checks the manifest at HEAD and advances HEAD. -/
  | manifestTake (c : Nat)
  /-- MANIFEST_START (R398): A taken manifest starts once NOT_BEFORE, a credit, its predecessor and FENCE allow. -/
  | manifestStart (c : Nat)
  /-- MANIFEST_END (R396): With every write response in, the final status is written in ring order. -/
  | manifestEnd (c : Nat)
  /-- STATUS_WRITE_ACCEPTED (R396): Acceptance of the status write raises the manifest's interrupt. -/
  | statusWriteAccepted (c : Nat)
  /-- DMA_DEADLINE (R402): A manifest without a final status at DEADLINE is reported late. -/
  | dmaDeadline (c : Nat)
  /-- BRG_CH_ENABLE (R413): ENABLE = 1 makes a channel run, or HELD with HOLD. -/
  | brgChEnable (a : Agent) (c : Nat) (hold : Bool)
  /-- BRG_CH_DISABLE (R407): ENABLE = 0 stops taking and starts the disable steps. -/
  | brgChDisable (a : Agent) (c : Nat)
  /-- BRG_CH_RESTART (R409): RESTART takes the channel out of ERROR and resumes at HEAD. -/
  | brgChRestart (a : Agent) (c : Nat)
  /-- BRG_CH_ABORT (R408): ABORT runs the stop steps and ends in STOPPED. -/
  | brgChAbort (a : Agent) (c : Nat)
  /-- CHANNEL_STOP_COMPLETE (R407): Outstanding requests end, in-flight manifests become CANCELLED, and the channel becomes IDLE or STOPPED. -/
  | channelStopComplete (c : Nat)
  /-- DISABLE_TIMEOUT (R407): A stop not complete after 64 µs is reported. -/
  | disableTimeout (c : Nat)
  /-- SHADOW_ARM (R417): Requests hand-over of the shadow configuration at the next boundary. -/
  | shadowArm (a : Agent) (c : Nat)
  /-- HAND_OVER (R405): The shadow registers are copied to the live ones, starting a new ring if BASE or LIMIT changed. -/
  | handOver (c : Nat)
  /-- ENGINE_DEP_RELEASE (R410): 100 µs after the last work or release, the engine withdraws its DEP vote. -/
  | engineDepRelease (e : Nat)
  /-- INBOUND_WRITE (R424): An inbound posted write is sent upstream to the IOTU and performed as WrLine or WrPart in order. -/
  | inboundWrite (p req addr : Nat) (bs : List Byte) (ep tr : Bool) (pasid : Bool := false)
  /-- INBOUND_READ (R424): An inbound read is performed as RdCur after earlier posted writes and completed. -/
  | inboundRead (p req addr n : Nat) (tr : Bool) (pasid : Bool := false)
  /-- INBOUND_ATOMICOP (R424): An inbound AtomicOp runs far at the home, or receives Completer Abort. -/
  | inboundAtomicop (p req addr : Nat) (op : DevOp) (tr : Bool) (pasid : Bool := false)
  /-- COMPLETION (R431): A completion for an outbound request is delivered, or discarded if late. -/
  | completion (p l tag status completer data : Nat) (ep : Bool)
  /-- COMPLETION_TIMEOUT (R430): An outbound request's timer expires; the outcome depends on the requester. -/
  | completionTimeout (p l tag : Nat)
  /-- QUARANTINE_END (R431): A timed-out tag leaves quarantine after 2 × TIMEOUT. -/
  | quarantineEnd (p l tag : Nat)
  /-- LINK_DOWN (R432): A link loss completes outstanding requests at once and fails later accesses. -/
  | linkDown (p l cause : Nat)
  /-- LINK_UP (R433): A link trains and LINK_UP is written. -/
  | linkUp (p l rate width : Nat) (cxl : Bool)
  /-- PORT_HOT_RESET (R342): A PCIe hot reset or DPC trigger resets a root port and its subtree. -/
  | portHotReset (p l : Nat) (dpc : Bool)
  /-- RPT_HDM_WRITE (R427): An enabling write to an HDM decoder claims its range, or sets ERR. -/
  | rptHdmWrite (a : Agent) (p n : Nat) (data : BitVec 64)
  /-- PEER_WINDOW_ACCESS (R438): A host access to PF1's BAR2 is decoded against the peer windows, a DB window acting as a doorbell. -/
  | peerWindowAccess (x : Nat) (op : DevOp) (ep : Bool)
  /-- WHF_PW_COMMIT (R439): Copies a window's shadow registers into its live registers in one cycle. -/
  | whfPwCommit (a : Agent) (mask : Nat)
  /-- FLR (R442): A function level reset starts disabling a Wharf function. -/
  | flr (fn : Nat)
  /-- BUS_MASTER_CLEAR (R442): The host clears a function's Bus Master Enable, disabling its outbound traffic. -/
  | busMasterClear (fn : Nat)
  /-- VF_DISABLE (R442): The host clears VF Enable or lowers NumVFs, disabling VFs. -/
  | vfDisable (n : Nat)
  /-- WHF_VF_CTL_RESET (R443): A chip-side reset of a VF, run as an FLR would be. -/
  | whfVfCtlReset (a : Agent) (v : Nat)
  /-- FUNC_RESET (R442): A function disable settles and FUNC_RESET is written. -/
  | funcReset (fn : Nat)
  /-- FUNC_DISABLE_TIMEOUT (R442): A disable not settled after 1 ms is reported. -/
  | funcDisableTimeout (fn : Nat)
  /-- WHF_IRQ_GO (R455): Raises an MSI-X vector of PF1 or of a VF. -/
  | whfIrqGo (a : Agent) (fn vec : Nat)
  /-- HOST_PERST (R612): The host's PERST# holds the Wharf's functions in reset while it is low. -/
  | hostPerst (low : Bool)
  /-- TOL_SMR_WRITE (R462): Enables, disables or locks a secure memory region; the Tollhouse draws or destroys its key. -/
  | tolSmrWrite (a : Agent) (n : Nat) (data : BitVec 64)
  /-- MAP_LOCK (R481): A write of 1 locks the CCS map until reset. -/
  | mapLock (a : Agent)
  /-- RANDOM (R468): A mailbox operation that returns 256 random bits. -/
  | random (a : Agent)
  /-- SHA384 (R468): A mailbox SHA-384 digest of a buffer. -/
  | sha384 (a : Agent) (src len dst : BitVec 64)
  /-- ECDSA_VERIFY (R468): A mailbox ECDSA P-384 verification. -/
  | ecdsaVerify (a : Agent) (digest key sig : BitVec 64)
  /-- MLDSA_VERIFY (R468): A mailbox ML-DSA-87 verification. -/
  | mldsaVerify (a : Agent) (msg len key sig : BitVec 64)
  /-- SEAL (R468): Mailbox AES-256-GCM sealing under the device sealing key. -/
  | seal (a : Agent) (src len dst : BitVec 64)
  /-- UNSEAL (R468): Mailbox unsealing, failing on a bad tag. -/
  | unseal (a : Agent) (src len dst : BitVec 64)
  /-- MAILBOX_COMPLETE (R468): The mailbox operation finishes, RESULT is set and GO clears. -/
  | mailboxComplete
  /-- DEBUG_CHALLENGE (R472): Returns a fresh 128-bit nonce for the ring. -/
  | debugChallenge (r : Nat)
  /-- DEBUG_UNLOCK (R473): Checks the buffered token and grants its debug enables. -/
  | debugUnlock (r : Nat)
  /-- DEBUG_STATUS (R472): Returns the enables in force, the lifecycle and the expiry. -/
  | debugStatus (r : Nat)
  /-- DEBUG_LOCK (R472): Clears the debug enables in MASK. -/
  | debugLock (r : Nat)
  /-- DEBUG_TOKEN_PART (R472): Writes 48 token bytes into the ring's token buffer. -/
  | debugTokenPart (r : Nat)
  /-- DEBUG_GRANT_NORMAL (R472): The Secure ring grants NI and NN without a token. -/
  | debugGrantNormal (r : Nat)
  /-- DEBUG_ENABLE_EXPIRY (R473): Debug enables lapse at their EXPIRY MT. -/
  | debugEnableExpiry
  /-- EXTEST (R471): JTAG boundary-scan test drives the lands, when permitted; `cells` are shifted into the boundary-scan register. -/
  | extest (cells : List Bool := [])
  /-- SAMPLE_PRELOAD (R471): JTAG samples or preloads the boundary-scan register. -/
  | samplePreload (cells : List Bool)
  /-- IDCODE (R471): JTAG shifts out the device identification; with `tlr`, selected by Test-Logic-Reset. -/
  | idcode (tlr : Bool := false)
  /-- BYPASS (R471): JTAG selects the 1-bit bypass register, by the opcode 0xFF or one that is not listed. -/
  | bypass (opcode : BitVec 8 := 0xFF)
  /-- BOOTSTAT (R600): JTAG captures GAL_BOOT_STAT. -/
  | bootstat
  /-- DEBUG_ADDR (R471): JTAG sets the target of debug accesses. -/
  | debugAddr (addr : BitVec 64)
  /-- DEBUG_READ (R471): A debug-port read of memory, CCS, system state or a register, if granted. -/
  | debugRead (size : BitVec 2)
  /-- DEBUG_WRITE (R471): A debug-port write, if granted. -/
  | debugWrite (size : BitVec 2) (data : BitVec 64)
  /-- DEBUG_HALT_CONTROL (R470): Halts, resumes or single-steps a thread through the debug port. -/
  | debugHaltControl (data : BitVec 64)
  /-- WATCHDOG_START (R477): The Monitor starts the secure watchdog, locking TOL_WDOG_CTL. -/
  | watchdogStart (a : Agent) (timeout intid thread : Nat)
  /-- TOL_WDOG_KICK (R477): A correct kick restarts the count and draws a new token; a wrong one is counted. -/
  | tolWdogKick (a : Agent) (v : Nat)
  /-- WDOG_WARNING (R477): With TIMEOUT ÷ 8 left, WARNED is set and a Secure-bank interrupt is raised. -/
  | wdogWarning
  /-- WDOG_EXPIRY (R478): The watchdog expires, is logged and causes a warm chip reset. -/
  | wdogExpiry
  /-- PVC_HYP_VOTE (R492): A write places or withdraws the HYP vote on a domain. -/
  | pvcHypVote (a : Agent) (d : Nat) (vote : Bool)
  /-- PVC_SEC_VOTE (R492): A write places or withdraws the SEC vote on a domain. -/
  | pvcSecVote (a : Agent) (d : Nat) (vote : Bool)
  /-- PVC_CLK (R514): A write stops or restarts a domain's clock, refused from Normal under SEC. -/
  | pvcClk (a : Agent) (d : Nat) (stop : Bool)
  /-- DOMAIN_DRAINED (R496): After draining, the clock stops, isolation and reset assert and the switch opens, using a token. -/
  | domainDrained (d : Nat)
  /-- POWER_GOOD (R497): Local power-good releases isolation and reset, and the unit runs on FIC. -/
  | powerGood (d : Nat)
  /-- WAKE_TIMEOUT (R499): Power-good is missing after 20 µs; the wake is retried, or the domain marked FAILED. -/
  | wakeTimeout (d : Nat)
  /-- PLL_LOCK (R498): PLL lock moves non-core domains to their PLLs and sets LOCKED for cores. -/
  | pllLock (d : Nat)
  /-- PLL_LOCK_FAILED (R500): No lock 100 µs after power-good leaves the domain on FIC. -/
  | pllLockFailed (d : Nat)
  /-- CLOCK_REF_LOST (R501): Loss of SYS_REFCLK moves every PLL domain to FIC. -/
  | clockRefLost
  /-- CLOCK_REF_RESTORED (R501): The PLLs relock and domains return to them. -/
  | clockRefRestored
  /-- SWITCH_TOKEN (R503): Every 10 ms a token is added, releasing a deferred switch-off. -/
  | switchToken
  /-- WEAR_COPY (R503): Hourly, switch counts are copied to the Logbook. -/
  | wearCopy
  /-- POWER_STATUS (R505): Returns a domain's PVC_DOM and PVC_WEAR. -/
  | powerStatus (r : Nat)
  /-- HOST_DIRECT_ENTER (R504): Enters command-driven domain switching. -/
  | hostDirectEnter (r : Nat)
  /-- HOST_DIRECT_EXIT (R504): Leaves HOST_DIRECT; domains take the states their votes give. -/
  | hostDirectExit (r : Nat)
  /-- DOMAIN_SET (R505): Switches a domain on or off in HOST_DIRECT. -/
  | domainSet (r : Nat)
  /-- POWER_CAP_SET (R505): Sets the package power limit. -/
  | powerCapSet (r : Nat)
  /-- POWER_CAP_STATUS (R505): Returns LIMIT, measured power and CAP. -/
  | powerCapStatus (r : Nat)
  /-- FREQUENCY_RECOMPUTE (R507): Every 1 ms, granted frequencies and tile voltages are recomputed and applied. -/
  | frequencyRecompute
  /-- POWER_CAP_LOOP (R508): Every 1 ms, CAP is adjusted from measured package power. -/
  | powerCapLoop (p : Nat)
  /-- GAL_TAIL (R524): A ring doorbell write makes posted packets available to take. -/
  | galTail (a : Agent) (r tail : Nat)
  /-- GALLEY_TAKE (R524): A packet is taken, when a proof slot is free, checked and handed to its executor. -/
  | galleyTake (r : Nat)
  /-- GAL_STAT_ERR_CLEAR (R544): Clearing ERR resumes taking at HEAD. -/
  | galStatErrClear (a : Agent) (r : Nat)
  /-- NOP (R532): Echoes its parameters. -/
  | nop (r : Nat)
  /-- NET_CONFIG (R519): Sets and keeps the management port's configuration. -/
  | netConfig (r : Nat)
  /-- CORE_STATUS (R532): Returns a core's map entry and CLKSEL. -/
  | coreStatus (r : Nat)
  /-- CORE_RESET (R343): Resets one core's threads, caches and predictors. -/
  | coreReset (r : Nat)
  /-- CORE_RETIRE (R555): Spares an active core without a fault. -/
  | coreRetire (r : Nat)
  /-- CHIP_RESET (R532): Starts a warm or cold chip reset 10 µs after the proof. -/
  | chipReset (r : Nat)
  /-- MEM_STATUS (R532): Returns a controller's RAS status and configuration. -/
  | memStatus (r : Nat)
  /-- MEM_RETRAIN (R532): Retrains a channel or stack. -/
  | memRetrain (r pc : Nat) (ok : Bool)
  /-- ERR_INJECT (R532): Marks a line so that its next DRAM read finds an injected error. -/
  | errInject (r : Nat)
  /-- TELEMETRY_READ (R533): Returns a sensor value and its MT. -/
  | telemetryRead (r : Nat) (value mt : BitVec 64)
  /-- LOGBOOK_INFO (R532): Returns the record count and the wear. -/
  | logbookInfo (r : Nat)
  /-- LOGBOOK_READ (R532): Returns 16 bytes of a journal record. -/
  | logbookRead (r : Nat)
  /-- FW_STAGE_BEGIN (R532): Opens a firmware staging. -/
  | fwStageBegin (r : Nat)
  /-- FW_STAGE_DATA (R532): Supplies 48 bytes of the staged image. -/
  | fwStageData (r : Nat)
  /-- FW_STAGE_COMMIT (R534): Submits the staged image for verification. -/
  | fwStageCommit (r : Nat)
  /-- FW_VERIFY_DONE (R534): Verification ends, GALLEY_RESULT is written, and an accepted image is written to the other slot. -/
  | fwVerifyDone (version rbMin : Nat) (ok : Bool)
  /-- FW_STATUS (R532): Returns firmware versions and rollback state. -/
  | fwStatus (r : Nat)
  /-- SNAPSHOT_NOW (R532): Performs a berthless SNAPSHOT at FIRE. -/
  | snapshotNow (r : Nat)
  /-- COUNTER_READ (R532): Returns the value of a counter or shadow. -/
  | counterRead (r : Nat)
  /-- GALLEY_DATAGRAM (R518): A UDP datagram on port 5186 is taken as a SERVICE command, or its stored proof is resent. -/
  | galleyDatagram (addr port : Nat) (bytes : List Byte)
  /-- ARP_REQUEST (R518): The management port answers ARP. -/
  | arpRequest (target sender : Nat)
  /-- ICMP_ECHO (R518): The management port answers an ICMP echo. -/
  | icmpEcho (target sender : Nat) (bytes : List Byte)
  /-- MGMT_LINK_UP (R519): The management link comes up and sends a gratuitous ARP. -/
  | mgmtLinkUp
  /-- LENGTHSMAN_FAULT (R516): A lockstep disagreement or SRAM uncorrectable error stops and restarts the Lengthsman. -/
  | lengthsmanFault (cause : Nat)
  /-- LEN_RESTART (R516): The restart completes, and taken commands are proved FAILED. -/
  | lenRestart
  /-- TOWPATH_BREAK (R521): A ring break moves traffic to the other ring, or, if nodes are unreachable, resets the chip. -/
  | towpathBreak (ring node : Nat)
  /-- EVQ_CONS (R539): A consumer index write frees slots and re-evaluates the interrupt. -/
  | evqCons (a : Agent) (q cons : Nat)
  /-- EVQ_CTL_WRITE (R539): Enables a queue, writing held events, and re-tests the interrupt condition. -/
  | evqCtlWrite (a : Agent) (q : Nat) (data : BitVec 64)
  /-- RAS_REPORT (R548): A RAS collector's report reaches the Lengthsman over the Towpath, which writes the event and logs it. -/
  | rasReport (e : RasErr)
  /-- CORE_ARRAY_UE (R558): An uncorrectable core-array error freezes the core and starts sparing. -/
  | coreArrayUe (stop array : Nat) (masks : List Nat)
  /-- CORE_SPARED (R558): The state is written into the spare, the core map is rewritten, and the threads resume. -/
  | coreSpared (stop : Nat)
  /-- SPARING_FLUSH_END (R558): The frozen core's flush ends, and its domain is switched off and marked FAILED. -/
  | sparingFlushEnd (stop : Nat)
  /-- SAMPLE_RECORD (R587): At the thread's recognising boundary, a sample record is written after a wrap. -/
  | sampleRecord (t : Nat)
  /-- BANDWIDTH_WINDOW_END (R588): A bandwidth window ends and its entry is written complete. -/
  | bandwidthWindowEnd (u : Nat)
  /-- UNC_BW_CTL_WRITE (R588): Clears every window entry and restarts accumulation at the next boundary. -/
  | uncBwCtlWrite (a : Agent) (u : Nat) (data : BitVec 64)
  /-- RESET_N_RELEASE (R595): RESET_N release samples the straps and starts the Tollhouse from ROM. -/
  | resetNRelease (straps : BitVec 4)
  /-- RESET_N_ASSERT (R601): RESET_N asserted ends any boot, lowers RAIL_EN and resets the device. -/
  | resetNAssert
  /-- TOLLHOUSE_FW_VERIFIED (R593): The Tollhouse firmware is verified and started, or the other slot is tried. -/
  | tollhouseFwVerified
  /-- LENGTHSMAN_START (R595): The verified Lengthsman firmware starts and restores the Colophon and REPLACE_N. -/
  | lengthsmanStart
  /-- REFERENCE_PRESENT (R595): SYS_REFCLK is found present and the boot configuration is verified. -/
  | referencePresent
  /-- RAILS_IN_TOLERANCE (R606): A rail group reads in tolerance and the next group is enabled. -/
  | railsInTolerance
  /-- RAIL_ENABLE_TIMEOUT (R606): A rail out of tolerance 10 ms after its enable halts the boot with HALT 3. -/
  | railEnableTimeout (rail mv cause : Nat)
  /-- FABRIC_READY (R595): The mesh is trained and MODE and the memory configuration are locked. -/
  | fabricReady
  /-- MEMORY_TRAINED (R595): Training completes, the nodes are built and the host image is placed. -/
  | memoryTrained (dimms : List (Nat × Nat × Nat × Nat)) (hbmBad : List Nat)
  /-- CLEAR_COMPLETE (R596): Memory clearing completes. -/
  | clearComplete
  /-- BOOT_DONE (R595): Every thread of every active core is released at the reset vector, and rollback is raised. -/
  | bootDone
  /-- WARM_CHIP_RESET (R599): Cores stop, memory enters self-refresh, domains reset, and boot stages 0, 1 and 4 rerun. -/
  | warmChipReset
  /-- COLD_RESET_COMMAND (R607): A commanded cold reset lowers RAIL_EN for 100 ms and then boots from stage 0. -/
  | coldResetCommand
  /-- RAIL_FAULT (R607): A package rail leaving tolerance lowers RAIL_EN and halts with HALT 3. -/
  | railFault (rail mv : Nat)
  /-- THERMAL_CONTROL_TICK (R617): Every 1 ms, tile thermal ceilings, CRIT and the HBM thermal measures are updated. -/
  | thermalControlTick (tiles : List Int) (io : Int) (hbm : List Int)
  /-- THERMAL_TRIP (R618): The hardware comparator trips, driving THERMTRIP_N low and removing the package rails. -/
  | thermalTrip (sensor : Nat) (temp : Int)
  /-- MT_REFCLK_RETURN (R374): MT_REFCLK returns after a loss: REF_OK is set and Sync sampling resumes, with a still-high SYNC_IN seen as a rising edge. -/
  | mtRefclkReturn
  /-- EPOCH_MISSING (R357): An expected epoch cycle passes with no MT_EPOCH pulse; the epoch counts as bad (TIME_CODE_ERROR KIND 1), and three in a row enter HOLDOVER. -/
  | epochMissing
  /-- LONG_VECTOR_IDLE_TIMEOUT (R154): 1 ms of machine time after the last long-vector instruction of the core retires, the core withdraws its DEP vote on the long-vector domain. -/
  | longVectorIdleTimeout (stop : Nat)
  /-- ATS_INV_COMPLETION (R303): A device's completion of an ATS Invalidate arrives, letting the waiting TLBI or IOT_INV complete. -/
  | atsInvCompletion (stream : Nat)
  /-- VF_ENABLE (R436): The external host sets VF Enable or raises NumVFs through PF1's SR-IOV capability, enabling VFs (WHF_VF_CTL ENABLED, WHF_ROLE NUMVFS). -/
  | vfEnable (n : Nat)
  /-- BUS_MASTER_ENABLE (R440): The external host sets a Wharf function's Bus Master Enable, which opens its outbound window to chip-side requests. -/
  | busMasterEnable (fn : Nat) (masks : Option (Bool × List Nat) := none)
  /-- PF0_ENABLE (R522): The external host enables Wharf PF0 in the endpoint role, and the Lengthsman enables the SERVICE ring and the Service queue. -/
  | pf0Enable
  deriving DecidableEq, Repr

end Sys2Proof
end

