-- ==== Sys2Proof/Config.lean ====
section
/-! DEFINITION. What one implementation fixes or the spec leaves open: the free values (opaque, no body: nothing in Lean can evaluate them), and the make-up of the four variants (spec/00_scope.md R1, R2). -/
namespace Sys2Proof.Config

/-- Free choice number `tag` of the step whose counter is `seed`: replacement choices (04 R104, 10 R293) and the old-or-new view of sync-required state (02 R50). notes/assumptions/5.md -/
opaque pick : Nat → Nat → Nat

/-- Free 64-bit value: random numbers (15 R468, R472, R477, 04 R105) and values the spec does not give. notes/assumptions/6.md -/
opaque freeWord : Nat → Nat → BitVec 64

/-- What a line of memory written under region key `k1` reads as under key `k2` (15 R464): unrelated data. notes/assumptions/7.md -/
opaque otherKeyByte : Nat → Nat → Nat → BitVec 8

/-- ECDSA P-384 verification outcome (15 R468): digest, public key, signature. notes/assumptions/8.md -/
opaque ecdsaValid : List (BitVec 8) → List (BitVec 8) → List (BitVec 8) → Bool

/-- ML-DSA-87 verification outcome (15 R468): message, public key, signature. notes/assumptions/8.md -/
opaque mldsaValid : List (BitVec 8) → List (BitVec 8) → List (BitVec 8) → Bool

/-- Do both signatures of a message verify under the public keys whose two SHA-384 hashes are given (15 R465, R473; 20 R593)? notes/assumptions/8.md -/
opaque bothSigned : BitVec 768 → List (BitVec 8) → List (BitVec 8) → Bool

/-- The WILEC_KEYS fuses (15 R465): the SHA-384 hashes of Wilec's two public keys, written at manufacture. notes/assumptions/6.md -/
opaque wilecKeys : BitVec 768

/-- The ROOT_KEY fuses (15 R465), written at manufacture. notes/assumptions/6.md -/
opaque rootKey : BitVec 256

/-- The device sealing key derived from ROOT_KEY and a ROLLBACK value (15 R468). notes/assumptions/130.md -/
opaque sealKey : BitVec 256 → Nat → BitVec 256

/-- AES-256-GCM (15 R468): byte i of the key stream of a key and nonce, which is added to the plain text. notes/assumptions/130.md -/
opaque gcmStream : BitVec 256 → List (BitVec 8) → Nat → BitVec 8

/-- AES-256-GCM (15 R468): the 16-byte tag of a key, a nonce and a cipher text. notes/assumptions/130.md -/
opaque gcmTag : BitVec 256 → List (BitVec 8) → List (BitVec 8) → BitVec 128

/-- Rank, bank and row at which a scheduler (32 · unit + pseudo-channel) places a local address (09 R251): the spec does not give the mapping. notes/assumptions/104.md -/
opaque dramPlace : Nat → Nat → Nat × Nat × Nat

/-- The pseudo-channel of an entry of a stack that serves as a cache (09 R250): stack and entry; the spec does not give it. notes/assumptions/104.md -/
opaque cachePc : Nat → Nat → Nat

/-- Configuration offsets at which a root-port function has its AER, DPC and ACS capabilities (14 R420): the spec does not give them. notes/assumptions/121.md -/
opaque aerCap : Nat
/-- See `aerCap`. -/
opaque dpcCap : Nat
/-- See `aerCap`. -/
opaque acsCap : Nat

/-- The four supplied variants (00 R1). -/
inductive Variant where
  | gz208H | gz176H | gz208D | gz144D
  deriving DecidableEq, Repr

/-- Active cores per tile as shipped (00 R1, R2). -/
def activePerTile : Variant → Nat
  | .gz208H => 52 | .gz176H => 44 | .gz208D => 52 | .gz144D => 36

/-- Fused-off cores per tile (00 R2): 56 stops less active less 4 spares. -/
def fusedPerTile (v : Variant) : Nat := 52 - activePerTile v

/-- HBM subsystem present (00 R1). -/
def hasHbm : Variant → Bool
  | .gz208H => true | .gz176H => true | .gz208D => false | .gz144D => false

/-- Long-vector unit present (00 R1). -/
def hasLv : Variant → Bool
  | .gz144D => false | _ => true

/-- CXL protocol layer present (00 R1). -/
def hasCxl : Variant → Bool
  | .gz144D => false | _ => true

/-- DDR5 channels present (00 R1). -/
def ddrChannels : Variant → Nat
  | .gz144D => 12 | _ => 16

/-- Root ports present (00 R1). -/
def rootPorts : Variant → Nat
  | .gz144D => 6 | _ => 8

/-- PCIe and CXL lanes (00 R1): sixteen per root port. -/
def lanes (v : Variant) : Nat := 16 * rootPorts v

/-- PART_CODE of the Colophon header (01 R30). -/
def partCode : Variant → Nat
  | .gz208H => 0x9201 | .gz176H => 0x9202 | .gz208D => 0x9203 | .gz144D => 0x9204

end Sys2Proof.Config
end

