-- ==== Sys2Proof/Machine/Bits.lean ====
section
/-! DEFINITION. Bit-field, sign-extension, counting and byte helpers used by every meaning (field notation [msb:lsb] of spec/00_scope.md). -/
namespace Sys2Proof.Machine

/-- Field [lo+w-1:lo] of a natural number. -/
def natField (v lo w : Nat) : Nat := (v >>> lo) % 2 ^ w

/-- Field [lo+w-1:lo] of a word, as a natural number. -/
def fld {n : Nat} (v : BitVec n) (lo w : Nat) : Nat := natField v.toNat lo w

/-- Bit n of a word. -/
def bit {n : Nat} (v : BitVec n) (i : Nat) : Bool := v.getLsbD i

/-- Mask with ones in [lo+w-1:lo]. -/
def fieldMask (lo w : Nat) : Word := BitVec.ofNat 64 ((2 ^ w - 1) <<< lo)

/-- A word with field [lo+w-1:lo] replaced by x modulo 2^w. -/
def setFld (v : Word) (lo w x : Nat) : Word :=
  (v &&& ~~~(fieldMask lo w)) ||| (BitVec.ofNat 64 ((x % 2 ^ w) <<< lo))

/-- A word with one bit set to b. -/
def setBit (v : Word) (i : Nat) (b : Bool) : Word := setFld v i 1 b.toNat

/-- Sign extension to 64 bits of the low w bits. -/
def sextN {n : Nat} (v : BitVec n) : Word := v.signExtend 64

/-- Number of leading zeros of a 64-bit value, 0–64 (03 R76). -/
def clz64 (v : Word) : Nat := if v.toNat = 0 then 64 else 63 - Nat.log2 v.toNat

/-- Number of trailing zeros among the low k bits counted upwards. -/
def ctzAux (v : Nat) : Nat → Nat
  | 0 => 0
  | k + 1 => if v % 2 = 1 then 0 else 1 + ctzAux (v / 2) k

/-- Number of trailing zeros of a 64-bit value, 0–64 (03 R76). -/
def ctz64 (v : Word) : Nat := ctzAux v.toNat 64

/-- Set bits among the low k bits. -/
def popAux (v : Nat) : Nat → Nat
  | 0 => 0
  | k + 1 => v % 2 + popAux (v / 2) k

/-- Set bits of an n-bit value. -/
def popN {n : Nat} (v : BitVec n) : Nat := popAux v.toNat n

/-- Index of the lowest set bit, or n if none (03 R94 MFIRST). -/
def firstSet {n : Nat} (v : BitVec n) : Nat := ctzAux v.toNat n

/-- Byte i of a value, little-endian. -/
def byteAt {n : Nat} (v : BitVec n) (i : Nat) : Byte := v.extractLsb' (8 * i) 8

/-- The byte-reversed word (03 R76 BSWAP). -/
def bswap64 (v : Word) : Word :=
  byteAt v 0 ++ byteAt v 1 ++ byteAt v 2 ++ byteAt v 3 ++ byteAt v 4 ++ byteAt v 5 ++ byteAt v 6 ++ byteAt v 7

/-- Little-endian value of a list of bytes, the first byte lowest. -/
def leVal : List Byte → Nat
  | [] => 0
  | b :: r => b.toNat + 256 * leVal r

/-- The n low bytes of a value, lowest first. -/
def leBytes : Nat → Nat → List Byte
  | 0, _ => []
  | n + 1, v => BitVec.ofNat 8 v :: leBytes n (v / 256)

/-- Does x lie in [lo, lo + len)? -/
def inRange (x lo len : Nat) : Bool := decide (lo ≤ x) && decide (x < lo + len)

end Sys2Proof.Machine
end

