-- ==== Sys2Proof/Machine/SparseMap.lean ====
section
/-! DEFINITION. Sparse maps as plain data: an association list with strictly rising keys that lists no entry equal to what an unlisted key reads as. Every register file, memory and queue index of State that is sparse is one of these; memory itself is one over bytes. -/
namespace Sys2Proof

/-- A sparse map from natural numbers: strictly rising keys, no default entries (`SMap.wf`). -/
abbrev SMap (β : Type) := List (Nat × β)

namespace Machine

/-- First entry under a key. -/
def smFind {β : Type} : SMap β → Nat → Option β
  | [], _ => none
  | (k', v) :: r, k => if k' = k then some v else smFind r k

/-- Read: an unlisted key reads as `d k`. -/
def smGet {β : Type} (d : Nat → β) (m : SMap β) (k : Nat) : β :=
  match smFind m k with
  | some v => v
  | none => d k

/-- Insertion before the first larger key. -/
def smInsert {β : Type} (k : Nat) (v : β) : SMap β → SMap β
  | [] => [(k, v)]
  | (k', v') :: r => if k < k' then (k, v) :: (k', v') :: r else (k', v') :: smInsert k v r

/-- Removal of every entry under a key. -/
def smErase {β : Type} (k : Nat) (m : SMap β) : SMap β := m.filter (fun e => e.1 != k)

/-- Write, keeping the canonical form: writing the value an unlisted key reads as removes the entry. -/
def smSet {β : Type} [DecidableEq β] (d : Nat → β) (m : SMap β) (k : Nat) (v : β) : SMap β :=
  if v = d k then smErase k m else smInsert k v (smErase k m)

/-- The canonical form: keys strictly rising, no entry equal to the default of its key. -/
abbrev smWf {β : Type} (d : Nat → β) (m : SMap β) : Prop :=
  m.Pairwise (fun a b => a.1 < b.1) ∧ ∀ e ∈ m, e.2 ≠ d e.1

end Machine
end Sys2Proof
end

