-- ==== Sys2Proof/Machine/CohTypes.lean ====
section
/-! DEFINITION. State of the memory system: private caches, LLC, directories, home transactions and messages in flight (spec/07_caches.md, spec/08_mesh_coherence.md), memory contents with poison marks (spec/09_memory.md) as plain data. -/
namespace Sys2Proof.Machine

/-- MOESI state of a private copy (08 R218); a line with no entry is in I. -/
inductive Moes where
  | m | o | e | s
  deriving DecidableEq, Repr

/-- Dirty states (R218). -/
def Moes.dirty : Moes → Bool
  | .m => true | .o => true | .e => false | .s => false

/-- One line held by the private caches of a stop (07 R170, 08 R218). `l1d`, `l1i`, `l2` are the ways that hold it; `hold` is an open hold window (R224); `fresh` names the thread and its PC while the access that caused the request has still to be performed (R224, R225); `victim` marks a line in the victim buffer waiting for its eviction to be served; `cls` is the QoS class of the request that brought it or, in the victim buffer, of the request that displaced it (07 R193); `l2old` is what L2 still holds while the L1D copy is newer (write-back, 07 R170); `fwd`: another core's copy came with the request whose access is due (08 R231). -/
structure PLine where
  st : Moes
  data : Line
  poison : Bool
  sec : Bool
  l1d : Option Nat
  l1i : Option Nat
  l2 : Option Nat
  hold : Bool
  fresh : Option (Nat × Word)
  victim : Bool
  cls : Nat
  l2old : Option Line
  fwd : Bool := false
  deriving DecidableEq, Repr

/-- A tag block of an LLC slice (07 R170, R172): way, class, its 2-bit re-reference prediction, and per sector the SEC tag (15 R457), valid, dirty and poison bits and data. -/
structure LlcBlk where
  slice : Nat
  set : Nat
  way : Nat
  sec : BitVec 4
  cls : Nat
  rrpv : Nat
  valid : BitVec 4
  dirty : BitVec 4
  poison : BitVec 4
  data : BitVec 2048
  deriving DecidableEq, Repr

/-- Directory entry states (08 R219). -/
inductive DirState where
  | s | ex | o
  deriving DecidableEq, Repr

/-- A directory entry (08 R219): the way it occupies, SEC, state, format, the owner, the sharers as stop numbers in the precise format (at most four holders) or the group bits of the coarse one, poison, and the order of its allocation (R227). -/
structure DirEntry where
  slice : Nat
  set : Nat
  way : Nat
  sec : Bool
  st : DirState
  coarse : Bool
  owner : Option Nat
  sharers : List Nat
  groups : BitVec 28
  poison : Bool
  stamp : Nat
  deriving DecidableEq, Repr

/-- The requests of the REQ network (08 R206). -/
inductive ReqKind where
  | rdShared | rdCode | rdOwn | upgrade | rdCur | gatherReq | wrLine | wrPart | atomFar | wbReq | evictClean
  | cmoC | cmoI | cmoCI | dirEvict
  deriving DecidableEq, Repr

/-- A far atomic (08 R232): ATOP, size code, byte offset in the line, operand and comparand. -/
structure AtomOp where
  atop : Nat
  size : Nat
  off : Nat
  operand : BitVec 128
  cmp : BitVec 128
  deriving DecidableEq, Repr

/-- A request as its home sees it: requester number (stop, or 224 and above for I/O agents, 08 R216), line number (physical address / 64), SEC attribute, QoS class, the payload of writes (with its poison mark, R206), atomics and gathers, and the requesting thread with its PC; `elems` of a far atomic holds its destination register, whether its HINT is AUTO, and its virtual address. -/
structure HomeReq where
  kind : ReqKind
  req : Nat
  line : Nat
  sec : Bool
  cls : Nat
  data : Line
  mask : BitVec 64
  atom : AtomOp
  thread : Nat
  elems : List Nat
  poison : Bool := false
  pc : Word := 0
  deriving DecidableEq, Repr

/-- An open transaction of a home (08 R217): the request, the stops whose snoop response is awaited, the stop whose WbData is awaited, whether the requester's CompAck is awaited, the Cmp owed once the invalidations are done (grant, and whether data accompany it), the owner asked to forward, returned data with dirty and poison, CONTENDED of a far atomic (R231), and for a directory eviction the request that waits for its entry (R229). -/
structure Txn where
  rq : HomeReq
  waitResp : List Nat
  waitData : Option Nat
  waitAck : Bool
  cmp : Option (Moes × Bool)
  fwd : Option Nat
  got : Option (Line × Bool × Bool)
  contended : Bool
  next : Option HomeReq
  deriving DecidableEq, Repr

/-- The messages of the SNP, RSP and DAT networks (08 R206). -/
inductive MsgKind where
  | snpShared | snpOwn | snpInv | snpCur | snpRecall | wbPull
  | snpResp | cmp | compAck | wbCancel | atomResp | cmoDone
  | data | fwdData | snpData | wbData | gatherData
  deriving DecidableEq, Repr

/-- A message in flight: kind, sender and receiver (stop or requester number; a home is named by its slice), line, the requester a snoop names, granted or final state, ACKS (in a Cmp: it completes a grant that came with data), line data, the dirty mark (in an SnpResp: data were sent) and the poison mark, the CONTENDED bit, the thread, and the elements of a gather response, or register, AUTO, size and virtual address of a far atomic; `bad` lists the poisoned elements of a gather response with their virtual addresses. -/
structure Msg where
  kind : MsgKind
  src : Nat
  dst : Nat
  line : Nat
  rqr : Nat
  grant : Option Moes
  acks : Bool
  data : Line
  dirty : Bool
  poison : Bool
  sec : Bool
  contended : Bool
  thread : Nat
  elems : List (Nat × Nat)
  bad : List (Nat × Word) := []
  deriving DecidableEq, Repr

/-- One element of a far gather (06 R159): its lane, physical address and virtual address. -/
structure GElem where
  lane : Nat
  pa : Nat
  va : Word
  deriving DecidableEq, Repr

/-- A GatherReq at its home (06 R159): the thread, destination, element size and class, the elements that wait for their line's open transaction (08 R237), and those served, with the poisoned ones. -/
structure Gather where
  thread : Nat
  stop : Nat
  slice : Nat
  line : Nat
  rqr : Nat
  esz : Nat
  cls : Nat
  left : List GElem
  got : List (Nat × Nat)
  bad : List (Nat × Word)
  deriving DecidableEq, Repr

/-- A private cache's outstanding miss (07 R174): kind, class, stale mark (07 R189), data received and waiting for Cmp (08 R222), Cmp received, the thread that asked and its PC, the accesses of other threads that joined it, and whether it is a hardware prefetch. -/
structure Miss where
  kind : ReqKind
  cls : Nat
  stale : Bool
  held : Option PLine
  needCmp : Bool
  gotCmp : Bool
  thread : Nat
  pc : Word
  joined : List (Nat × Word)
  pf : Bool
  deriving DecidableEq, Repr

/-- Bytes of a stale fill, for a load that waited on it (07 R189 step 4): the stop, the line, the thread and the PC of the load. -/
structure Given where
  stop : Nat
  line : Nat
  thread : Nat
  pc : Word
  data : Line
  poison : Bool
  deriving DecidableEq, Repr

/-- A far atomic performed on a line, for CONTENDED (08 R231): the core and the mesh cycle count. -/
structure FarUse where
  core : Nat
  cycle : Nat
  deriving DecidableEq, Repr

/-- Counter events raised by the memory system (19 R584), to be counted by the caller: code, unit index, requester, address. -/
structure CntEv where
  code : Nat
  unit : Nat
  req : Nat
  addr : Nat
  deriving DecidableEq, Repr

/-- The memory system: memory bytes (unlisted bytes read zero, 20 R596), poison marks of memory lines (07 R176), the region key a line was last written under (15 R463) and what a line not written since power-up counts as written under (0 after clearing; 20 R596), private copies keyed by stop · 2^46 + line, outstanding misses under the same keys, parked snoops (08 R224), LLC blocks keyed by block number, directory entries keyed by line, open transactions keyed by line, the retry queue (R228), gathers with elements that wait, messages in flight, dirty victims lost to a snoop and awaiting their WbCancel (R234), the bytes of stale fills, each core's latest far atomic per line within 256 mesh cycles, the pseudo-LRU trees of the private caches (07 R170), counters waiting to be counted, and the allocation stamp. -/
structure Coh where
  mem : List Host.Cell
  poison : SMap Bool
  lineKey : SMap Nat
  unwritten : Nat
  priv : SMap (Option PLine)
  misses : SMap (Option Miss)
  parked : List Msg
  llc : SMap (Option LlcBlk)
  dir : SMap (Option DirEntry)
  txns : SMap (Option Txn)
  waiting : List HomeReq
  retry : List HomeReq
  gathers : List Gather
  msgs : List Msg
  gone : List Nat
  given : List Given
  farUse : SMap (List FarUse)
  plru : SMap Nat
  evs : List CntEv
  stamp : Nat
  deriving DecidableEq, Repr

/-- An empty memory system. -/
def Coh.empty : Coh := ⟨[], [], [], 0, [], [], [], [], [], [], [], [], [], [], [], [], [], [], [], 0⟩

end Sys2Proof.Machine
end

