-- ==== Sys2Proof/Machine/CohOps.lean ====
section
/-! DEFINITION. Operations over the memory system: memory lines, LLC blocks, private caches, directory entries (spec/07_caches.md, spec/08_mesh_coherence.md). Each works on `Coh` alone; what it needs of the registers and maps comes in a `CohEnv`. -/
namespace Sys2Proof.Machine

/-- Where a line lives (09 R249): its home slice, LLC set and directory set. -/
structure HomeLoc where
  slice : Nat
  llcSet : Nat
  dirSet : Nat
  deriving DecidableEq, Repr

/-- What the memory system reads of the rest of the chip in one step: the imposition map, way masks, quoins and disabled ways, region keys, memory whose reads return poison and memory whose writes are lost, lines with an uncorrectable error injected, the choice seed and the mesh cycle count. -/
structure CohEnv where
  home : Nat → Option HomeLoc
  waymask : Nat → Nat → Nat
  quoin : Nat → Nat → Word
  llcDis : Nat → Nat
  dirDis : Nat → Nat
  l1dDis : Nat → Nat
  l1iDis : Nat → Nat
  l2Dis : Nat → Nat
  secLine : Nat → Bool
  keyOf : Nat → Nat
  badMem : Nat → Bool
  lostMem : Nat → Bool
  inj : Nat → Bool
  native : Bool
  seed : Nat
  cycle : Nat

/-- Map default: nothing listed. -/
def dNone {β : Type} : Nat → Option β := fun _ => none

/-- Key of a private copy: stop and line. -/
def privKey (stop line : Nat) : Nat := stop * 2 ^ 46 + line

/-- The private copy of a line at a stop, if any. -/
def Coh.pl (c : Coh) (stop line : Nat) : Option PLine := smGet dNone c.priv (privKey stop line)
/-- Set or remove a private copy. -/
def Coh.setPl (c : Coh) (stop line : Nat) (p : Option PLine) : Coh :=
  { c with priv := smSet dNone c.priv (privKey stop line) p }
/-- The directory entry of a line, if any. -/
def Coh.de (c : Coh) (line : Nat) : Option DirEntry := smGet dNone c.dir line
/-- Set or free a directory entry. -/
def Coh.setDe (c : Coh) (line : Nat) (e : Option DirEntry) : Coh := { c with dir := smSet dNone c.dir line e }
/-- The open transaction of a line, if any (R217). -/
def Coh.txn (c : Coh) (line : Nat) : Option Txn := smGet dNone c.txns line
/-- Open, change or close the transaction of a line. -/
def Coh.setTxn (c : Coh) (line : Nat) (t : Option Txn) : Coh := { c with txns := smSet dNone c.txns line t }
/-- The outstanding miss of a stop for a line, if any (07 R174). -/
def Coh.miss (c : Coh) (stop line : Nat) : Option Miss := smGet dNone c.misses (privKey stop line)
/-- Set or end a miss. -/
def Coh.setMiss (c : Coh) (stop line : Nat) (x : Option Miss) : Coh :=
  { c with misses := smSet dNone c.misses (privKey stop line) x }
/-- Note a counter event (19 R584). -/
def Coh.count (c : Coh) (code unit req addr : Nat) : Coh := { c with evs := c.evs ++ [⟨code, unit, req, addr⟩] }
/-- Flits of a message (R201): one without data, two with a line, a header and the data transfers of 06 R159 for a gather response. AtomResp carries less than a line, of which R201 does not speak: one flit (DESIGN CHOICE, notes/assumptions/103.md). -/
def Msg.flits (m : Msg) : Nat :=
  match m.kind with
  | .data | .fwdData | .snpData | .wbData => 2
  | .gatherData => 1 + (m.elems.length * (m.rqr / 128) + 63) / 64
  | _ => 1
/-- Note a message of some flits between two ends, to be counted along its route (R207). -/
def Coh.hop (c : Coh) (src dst flits : Nat) : Coh := c.count (0xF000 + flits) src dst 0
/-- Note messages, given as source, destination and flits. -/
def Coh.hops (c : Coh) (l : List (Nat × Nat × Nat)) : Coh := l.foldl (fun c x => c.hop x.1 x.2.1 x.2.2) c

/-! ### Memory lines -/

/-- A line from its 64 bytes. -/
def lineOf (f : Nat → Byte) : Line := BitVec.ofNat 512 (leVal ((List.range 64).map f))

/-- Bytes of `new` where the mask bit is set, bytes of `old` elsewhere. -/
def mergeLine (old new : Line) (mask : BitVec 64) : Line :=
  lineOf (fun i => if mask.getLsbD i then byteAt new i else byteAt old i)

/-- All 64 byte enables. -/
def fullMask : BitVec 64 := BitVec.allOnes 64

/-- Does a line that nothing has written since power-up hold check bits that do not match (20 R596)? Which do is a free choice. -/
def Coh.badInit (c : Coh) (line : Nat) : Bool :=
  c.unwritten != 0 && smGet (fun _ => c.unwritten) c.lineKey line == c.unwritten && Config.pick c.unwritten line % 2 == 1

/-- A line read from memory with its poison mark: what was written, or unrelated data when the line was last written under another region key (15 R463, R464); failed memory returns poison (09 R265, R268). -/
def Coh.memLine (c : Coh) (env : CohEnv) (line : Nat) : Line × Bool :=
  let key := env.keyOf line
  let k := smGet (fun _ => c.unwritten) c.lineKey line
  (lineOf (fun i => if k = key then smGet (fun _ => 0#8) c.mem (64 * line + i) else Config.otherKeyByte k key (64 * line + i)),
   smGet (fun _ => false) c.poison line || env.badMem line || env.inj line)

/-- Store 64 bytes of a line. -/
def putBytes (m : List Host.Cell) (base : Nat) : List Byte → List Host.Cell
  | [] => m
  | b :: r => putBytes (smSet (fun _ => 0#8) m base b) (base + 1) r

/-- The class of a memory write that carries none (11 R334). -/
def noClass : Nat := 64

/-- A write of the bytes of a line that the mask names (09 R253): the merge keeps a poison mark, `poison` adds one, a full clean write replaces the pattern (R261). A write to failed memory is discarded. The write is noted for the counters under its class, a partial one as such (R260). -/
def Coh.memWrite (c : Coh) (env : CohEnv) (line : Nat) (d : Line) (mask : BitVec 64) (poison : Bool) (cls : Nat) : Coh :=
  let part := (mask != fullMask).toNat
  if env.lostMem line then c.count 0x041 cls part (64 * line)
  else
    let (old, op) := c.memLine env line
    let new := mergeLine old d mask
    { c.count 0x041 cls part (64 * line) with
      mem := putBytes c.mem (64 * line) ((List.range 64).map (byteAt new))
      lineKey := smSet (fun _ => c.unwritten) c.lineKey line (env.keyOf line)
      poison := smSet (fun _ => false) c.poison line (poison || (op && mask != fullMask)) }

/-! ### LLC blocks (07 R170–R172, R191–R194) -/

/-- The tag block that holds a line, if present. -/
def Coh.blk (c : Coh) (line : Nat) : Option LlcBlk := smGet dNone c.llc (line / 4)
/-- Set or drop a tag block; one left without a valid sector is dropped. -/
def Coh.setBlk (c : Coh) (block : Nat) (b : Option LlcBlk) : Coh := { c with llc := smSet dNone c.llc block (b.filter (fun x => x.valid != 0)) }

/-- Sector data of a block. -/
def LlcBlk.sector (b : LlcBlk) (i : Nat) : Line := b.data.extractLsb' (512 * i) 512
/-- A block with one sector written, of which the SEC tag is `sec` (15 R457). -/
def LlcBlk.put (b : LlcBlk) (i : Nat) (d : Line) (dirty poison sec : Bool) : LlcBlk :=
  { b with
    sec := if sec then b.sec ||| (1#4 <<< i) else b.sec &&& ~~~(1#4 <<< i)
    valid := b.valid ||| (1#4 <<< i)
    dirty := if dirty then b.dirty ||| (1#4 <<< i) else b.dirty &&& ~~~(1#4 <<< i)
    poison := if poison then b.poison ||| (1#4 <<< i) else b.poison &&& ~~~(1#4 <<< i)
    data := (b.data &&& ~~~((BitVec.allOnes 512).setWidth 2048 <<< (512 * i))) ||| (d.setWidth 2048 <<< (512 * i)) }
/-- A block with one sector dropped. -/
def LlcBlk.drop (b : LlcBlk) (i : Nat) : LlcBlk :=
  { b with valid := b.valid &&& ~~~(1#4 <<< i), dirty := b.dirty &&& ~~~(1#4 <<< i), poison := b.poison &&& ~~~(1#4 <<< i) }

/-- Valid sector of a line: data, dirty and poison (R172). -/
def Coh.sectorOf (c : Coh) (line : Nat) : Option (Line × Bool × Bool) :=
  match c.blk line with
  | none => none
  | some b =>
    let i := line % 4
    if b.valid.getLsbD i then some (b.sector i, b.dirty.getLsbD i, b.poison.getLsbD i) else none

/-- The SEC tag that caches and directory hold for a line: that of its directory entry, or of its LLC sector (15 R457). -/
def Coh.tagOf (c : Coh) (line : Nat) : Option Bool :=
  match c.de line with
  | some e => some e.sec
  | none => (c.blk line).bind (fun b => if b.valid.getLsbD (line % 4) then some (b.sec.getLsbD (line % 4)) else none)
/-- Does a message about a line carry SEC = 1 by the line's tag (15 R456)? -/
def Coh.tagged (c : Coh) (line : Nat) : Bool := (c.tagOf line).getD false

/-- Put a message in flight (08 R206). A snoop, write-back or fill carries the SEC tag of its line (15 R456). -/
def Coh.send (c : Coh) (m : Msg) : Coh := { c.hop m.src m.dst m.flits with msgs := c.msgs ++ [{ m with sec := m.sec || c.tagged m.line }] }

/-- Write one sector of a block to memory if it is valid and dirty, under a class. -/
def Coh.flushSector (env : CohEnv) (block cls : Nat) (b : LlcBlk) (c : Coh) (i : Nat) : Coh :=
  if b.valid.getLsbD i && b.dirty.getLsbD i then
    c.memWrite env (4 * block + i) (b.sector i) fullMask (b.poison.getLsbD i) cls
  else c

/-- Evict a tag block: each dirty sector is written to memory under the class of the request that caused the eviction (11 R334), clean sectors are dropped (R172). -/
def Coh.evictBlk (c : Coh) (env : CohEnv) (block cls : Nat) : Coh :=
  match smGet dNone c.llc block with
  | none => c
  | some b => ([0, 1, 2, 3].foldl (Coh.flushSector env block cls b) c).setBlk block none

/-- Is way w of a slice a quoin, and of class cls? -/
def quoinLocked (env : CohEnv) (slice w : Nat) : Bool := bit (env.quoin slice w) 8
/-- A quoin of the class. -/
def quoinOf (env : CohEnv) (slice w cls : Nat) : Bool := quoinLocked env slice w && fld (env.quoin slice w) 0 6 == cls

/-- Ways a class may allocate into (R193). An allocation without a class, which a directory recall makes (11 R334), has no way mask: it may use every way that is neither locked nor disabled (DESIGN CHOICE, notes/assumptions/118.md). -/
def eligibleWays (env : CohEnv) (slice cls : Nat) : List Nat :=
  (List.range 16).filter (fun w =>
    !(env.llcDis slice).testBit w &&
      (quoinOf env slice w cls || ((cls == noClass || (env.waymask slice cls).testBit w) && !quoinLocked env slice w)))

/-- Blocks of a set by way. -/
def Coh.blocksOf (c : Coh) (slice set : Nat) : List (Nat × LlcBlk) :=
  c.llc.filterMap (fun e => match e.2 with
    | some b => if b.slice = slice && b.set = set then some (e.1, b) else none
    | none => none)

/-- The highest prediction among blocks. -/
def maxRrpv (l : List (Nat × LlcBlk)) : Nat := l.foldl (fun m b => max m b.2.rrpv) 0
/-- The candidate a re-reference prediction replaces: the lowest way among those whose prediction is furthest off. -/
def rrpVictim (l : List (Nat × LlcBlk)) : Option (Nat × LlcBlk) :=
  l.foldl (fun r b => if b.2.rrpv != maxRrpv l then r else match r with | some x => if x.2.way ≤ b.2.way then some x else some b | none => some b) none

/-- The way an allocation takes and the block it replaces, if some way is eligible (R191, R193): a free way, else the candidate that the 2-bit re-reference predictions name (R170). R170 names the policy alone; its rules here are a DESIGN CHOICE (notes/assumptions/102.md). -/
def Coh.chooseWay (c : Coh) (env : CohEnv) (slice set cls : Nat) : Option (Nat × Option Nat) :=
  let ws := eligibleWays env slice cls
  let bs := c.blocksOf slice set
  match ws.find? (fun w => bs.all (fun b => b.2.way != w)) with
  | some w => some (w, none)
  | none =>
    let cand := bs.filter (fun b => ws.contains b.2.way && !(quoinOf env slice b.2.way cls && bit (env.quoin slice b.2.way) 9))
    (rrpVictim cand).map (fun b => (b.2.way, some b.1))

/-- Age the predictions of a set by n, up to 3. -/
def Coh.ageSet (c : Coh) (slice set n : Nat) : Coh :=
  (c.blocksOf slice set).foldl (fun c b => c.setBlk b.1 (some { b.2 with rrpv := min 3 (b.2.rrpv + n) })) c
/-- A hit on a block predicts its reuse. -/
def Coh.hitBlk (c : Coh) (line : Nat) : Coh :=
  match c.blk line with
  | some b => c.setBlk (line / 4) (some { b with rrpv := 0 })
  | none => c

/-- Put a line into its LLC sector, allocating a block if none is present; `none` when no way is eligible (R193). -/
def Coh.llcPut (c : Coh) (env : CohEnv) (line : Nat) (d : Line) (dirty poison sec : Bool) (cls : Nat) : Option Coh :=
  match c.blk line with
  | some b => some (c.setBlk (line / 4) (some (b.put (line % 4) d dirty poison sec)))
  | none =>
    match env.home line with
    | none => none
    | some h =>
      match c.chooseWay env h.slice h.llcSet cls with
      | none => none
      | some (w, ev) =>
        let c1 := match ev with
          | some b => (c.ageSet h.slice h.llcSet (3 - ((smGet dNone c.llc b).elim 3 (·.rrpv)))).evictBlk env b cls
          | none => c
        let nb : LlcBlk := ⟨h.slice, h.llcSet, w, 0, cls, 2, 0, 0, 0, 0⟩
        some (c1.setBlk (line / 4) (some (nb.put (line % 4) d dirty poison sec)))

/-- The poison mark that a line's home holds for it, in its directory entry or its LLC sector (07 R176). -/
def Coh.markOf (c : Coh) (line : Nat) : Bool :=
  (match c.de line with | some e => e.poison | none => false) || (match c.sectorOf line with | some (_, _, p) => p | none => false)

/-- Dirty data at the home: into the LLC sector, or to memory when no way is eligible, counted as LLC_NOALLOC (R171, R193). A mark the home holds stays (07 R176). -/
def Coh.homePutDirty (c : Coh) (env : CohEnv) (line : Nat) (d : Line) (poison0 sec : Bool) (cls : Nat) : Coh :=
  let poison := poison0 || c.markOf line
  match c.llcPut env line d true poison sec cls with
  | some c1 => c1
  | none => (c.memWrite env line d fullMask poison cls).count 0x022 ((env.home line).elim 0 (·.slice)) 0 (64 * line)

/-- The home's own copy: a valid LLC sector, or memory (R221). -/
def Coh.homeData (c : Coh) (env : CohEnv) (line : Nat) : Line × Bool × Bool :=
  match c.sectorOf line with
  | some x => x
  | none => let (d, p) := c.memLine env line; (d, false, p)

/-- A fill from memory for a demand request allocates a block in the home slice (R171); counts LLC_LOOKUP and LLC_MISS. -/
def Coh.homeFill (c : Coh) (env : CohEnv) (line : Nat) (sec : Bool) (cls req : Nat) : Coh :=
  let slice := (env.home line).elim 0 (·.slice)
  let c0 := c.count 0x020 slice req (64 * line)
  match c0.sectorOf line with
  | some _ => c0.hitBlk line
  | none =>
    let c1 := (c0.count 0x021 slice req (64 * line)).count 0x040 cls req (64 * line)
    let (d, p) := c1.memLine env line
    match c1.llcPut env line d false p sec cls with
    | some c2 => c2
    | none => c1.count 0x022 slice req (64 * line)

/-! ### Directory (08 R219, R220, R227–R229) -/

/-- The stops a directory entry's invalidation snoops (R220). -/
def DirEntry.holders (e : DirEntry) : List Nat :=
  let own := e.owner.toList
  if e.coarse then
    own ++ ((List.range 224).filter (fun s => e.groups.getLsbD (s / 8) && !own.contains s))
  else own ++ e.sharers.filter (fun s => !own.contains s)

/-- Copies tracked, a coarse entry counting as more than four (R227). -/
def DirEntry.copies (e : DirEntry) : Nat := if e.coarse then 5 else e.owner.toList.length + e.sharers.length

/-- Group bits of a list of stops (R220). -/
def groupBits (l : List Nat) : BitVec 28 := l.foldl (fun g s => g ||| (1#28 <<< (s / 8))) 0

/-- Record one more sharer; the fifth holder switches the entry to the coarse format (R220), in which the owner's own group is marked too (DESIGN CHOICE, notes/assumptions/114.md). Answers whether it switched. -/
def DirEntry.addSharer (e : DirEntry) (s : Nat) : DirEntry × Bool :=
  if e.owner = some s then (e, false)
  else if e.coarse then ({ e with groups := e.groups ||| (1#28 <<< (s / 8)) }, false)
  else if e.sharers.contains s then (e, false)
  else if e.copies < 4 then ({ e with sharers := e.sharers ++ [s] }, false)
  else ({ e with coarse := true, sharers := [], groups := groupBits (s :: e.owner.toList ++ e.sharers) }, true)

/-- Remove a holder; a precise entry with none left is freed (R222 EvictClean). -/
def DirEntry.remove (e : DirEntry) (s : Nat) : Option DirEntry :=
  if e.owner = some s then
    if e.st = .o && (e.coarse || !e.sharers.isEmpty) then some { e with owner := none, st := .s }
    else none
  else if e.coarse then some e
  else
    let sh := e.sharers.filter (fun x => x != s)
    if sh.isEmpty && e.owner.isNone then none else some { e with sharers := sh }

/-- Is the stop recorded by the entry? -/
def DirEntry.records (e : DirEntry) (s : Nat) : Bool := e.holders.contains s

/-- Data a holder returns on a recall: dirty data and its poison mark (R218). -/
def Coh.dirtyFrom (c : Coh) (line : Nat) : List Nat → Option (Line × Bool)
  | [] => none
  | s :: r =>
    match c.pl s line with
    | some p => if p.st.dirty then some (p.data, p.poison) else c.dirtyFrom line r
    | none => c.dirtyFrom line r

/-- Does a cache park snoops for its copy: inside the hold window (R224), or the access that caused its request still to be performed (R225)? -/
def PLine.keeps (p : PLine) : Bool := p.hold || p.fresh.isSome

/-- Does some listed stop, other than `but`, park snoops for the line (R224, R225)? -/
def Coh.held (c : Coh) (line but : Nat) (l : List Nat) : Bool :=
  l.any (fun s => s != but && (match c.pl s line with | some p => p.keeps | none => false))

/-- A stop loses its copy to a snoop: a dirty line in its victim buffer leaves the buffer waiting for the WbCancel of its WbReq (R234). -/
def Coh.lose (c : Coh) (line stop : Nat) : Coh :=
  match c.pl stop line with
  | none => c
  | some p => { c.setPl stop line none with gone := if p.victim && p.st.dirty then c.gone ++ [privKey stop line] else c.gone }

/-- Remove the copies of the listed stops. -/
def Coh.dropAll (c : Coh) (line : Nat) (l : List Nat) : Coh := l.foldl (fun c s => c.lose line s) c

/-- Messages of snoops sent to the listed stops and of their responses; a stop with dirty data returns it. -/
def Coh.noteSnoops (c : Coh) (h line : Nat) (pull : Bool) (l : List Nat) : Coh :=
  l.foldl (fun x s => x.hops ([(h, s, 1)] ++ (if pull && (match c.pl s line with | some p => p.st.dirty | none => false) then [(s, h, 2)] else []) ++ [(s, h, 1)])) c

/-- Recall every copy of a line: dirty data go to the home's LLC sector (R229), with the entry's poison mark, and the entry is freed. -/
def Coh.recall (c : Coh) (env : CohEnv) (line : Nat) (cls : Nat) : Coh :=
  match c.de line with
  | none => c
  | some e =>
    let l := e.holders
    let d := c.dirtyFrom line l
    let c1 := ((c.noteSnoops e.slice line true l).dropAll line l).setDe line none
    match d with
    | some (x, p) => c1.homePutDirty env line x (p || e.poison) e.sec cls
    | none => c1

/-- Entries of a directory set. -/
def Coh.entriesOf (c : Coh) (slice set : Nat) : List (Nat × DirEntry) :=
  c.dir.filterMap (fun x => match x.2 with
    | some d => if d.slice = slice && d.set = set then some (x.1, d) else none
    | none => none)

/-- The victim of R227: fewest copies, then least recently allocated. -/
def pickVictim : List (Nat × DirEntry) → Option (Nat × DirEntry)
  | [] => none
  | x :: r =>
    match pickVictim r with
    | none => some x
    | some y =>
      if x.2.copies < y.2.copies || (x.2.copies == y.2.copies && decide (x.2.stamp ≤ y.2.stamp)) then some x else some y

/-- Directory ways in service. -/
def dirWays (env : CohEnv) (slice : Nat) : List Nat := (List.range 16).filter (fun w => !(env.dirDis slice).testBit w)
/-- A free way of a directory set (R227). -/
def Coh.dirFree (c : Coh) (env : CohEnv) (h : HomeLoc) : Option Nat :=
  (dirWays env h.slice).find? (fun w => (c.entriesOf h.slice h.dirSet).all (fun e => e.2.way != w))
/-- The entry R227 evicts: none with an open transaction. -/
def Coh.dirVictim (c : Coh) (env : CohEnv) (h : HomeLoc) : Option (Nat × DirEntry) :=
  pickVictim ((c.entriesOf h.slice h.dirSet).filter (fun e => (c.txn e.1).isNone && (dirWays env h.slice).contains e.2.way))

/-- A way for a new directory entry (R227): a free way, or that of an evicted entry without an open transaction; `none` when every way is busy (R228) or a victim's holder is inside its hold window (R237). -/
def Coh.dirWay (c : Coh) (env : CohEnv) (h : HomeLoc) (force : Bool) : Option (Nat × Coh) :=
  match c.dirFree env h with
  | some w => some (w, c)
  | none =>
    match c.dirVictim env h with
    | none => none
    | some (line, e) =>
      if !force && c.held line 999 e.holders then none
      else some (e.way, (c.recall env line noClass).count 0x026 h.slice 0 (64 * line))

/-! ### Private caches (07 R170, R171) -/

/-- Lines of a stop that share an index under a modulus, excluding the victim buffer. -/
def Coh.linesOf (c : Coh) (stop idx modulus : Nat) : List (Nat × PLine) :=
  c.priv.filterMap (fun x => match x.2 with
    | some p =>
      let line := x.1 % 2 ^ 46
      if x.1 / 2 ^ 46 = stop && line % modulus = idx && !p.victim then some (line, p) else none
    | none => none)

/-- The way a pseudo-LRU tree points to: at each node of the heap-numbered tree the bit names the half used longer ago, unless that half has no way in service. -/
def plruWay (bits : Nat) (ok : Nat → Bool) : Nat → Nat → Nat → Nat
  | 0, _, base => base
  | k + 1, node, base =>
    let some? (b : Nat) : Bool := (List.range (2 ^ k)).any (fun i => ok (b + i))
    if (if bits.testBit node then some? (base + 2 ^ k) else !some? base) then plruWay bits ok k (2 * node + 1) (base + 2 ^ k)
    else plruWay bits ok k (2 * node) base
/-- The tree after a use of way w: every node on its path points to the other half. -/
def plruUse (w : Nat) : Nat → Nat → Nat → Nat
  | 0, _, bits => bits
  | k + 1, node, bits =>
    if w.testBit k then plruUse w k (2 * node + 1) (if bits.testBit node then bits - 2 ^ node else bits)
    else plruUse w k (2 * node) (bits ||| 2 ^ node)

/-- Levels of the tree of a cache: 0 L1D of 8 ways, 1 L1I of 4, 2 L2 of 16. -/
def treeDepth (cache : Nat) : Nat := if cache = 0 then 3 else if cache = 1 then 2 else 4
/-- Sets of a cache. -/
def cacheSets (cache : Nat) : Nat := if cache = 0 then 128 else if cache = 1 then 256 else 2048
/-- Key of a set's tree. -/
def plruKey (stop cache line : Nat) : Nat := (3 * stop + cache) * 2048 + line % cacheSets cache
/-- A use of a way of a private cache: a hit or a fill (R170 names the policy; DESIGN CHOICE, notes/assumptions/102.md). -/
def Coh.useWay (c : Coh) (stop cache line way : Nat) : Coh :=
  { c with plru := smSet (fun _ => 0) c.plru (plruKey stop cache line) (plruUse way (treeDepth cache) 1 (smGet (fun _ => 0) c.plru (plruKey stop cache line))) }

/-- The way an allocation takes in the set of a line, and the line it displaces: a free way, else the one the tree points to (R170). -/
def Coh.chooseIn (c : Coh) (stop cache line dis : Nat) (occ : List (Nat × Nat)) : Option (Nat × Option Nat) :=
  let ws := (List.range (2 ^ treeDepth cache)).filter (fun w => !dis.testBit w)
  match ws.find? (fun w => occ.all (fun o => o.2 != w)) with
  | some w => some (w, none)
  | none =>
    if ws.isEmpty then none
    else
      let w := plruWay (smGet (fun _ => 0) c.plru (plruKey stop cache line)) ws.contains (treeDepth cache) 1 0
      some (w, (occ.find? (fun o => o.2 == w)).map (·.1))

/-- Displace a line from L2: a dirty line, or one left in no cache, goes to the victim buffer until its eviction is served (R171, 08 R218); a clean line still in L1I stays there. Its eviction carries the class of the request that caused it (R193). -/
def Coh.evictL2 (c : Coh) (stop line cls : Nat) : Coh :=
  match c.pl stop line with
  | none => c
  | some p =>
    if !p.st.dirty && p.l1i.isSome then c.setPl stop line (some { p with l1d := none, l2 := none, l2old := none })
    else c.setPl stop line (some { p with l1d := none, l1i := none, l2 := none, victim := true, hold := false, fresh := none, cls := cls, l2old := none })

/-- Install or keep a line in L2 (2048 sets of 16 ways) for a request of a class. -/
def Coh.fillL2 (c : Coh) (env : CohEnv) (stop line cls : Nat) : Coh :=
  match c.pl stop line with
  | none => c
  | some p =>
    if p.victim then c
    else match p.l2 with
    | some w => c.useWay stop 2 line w
    | none =>
      let occ := (c.linesOf stop (line % 2048) 2048).filterMap (fun x => x.2.l2.map (fun w => (x.1, w)))
      match c.chooseIn stop 2 line (env.l2Dis stop) occ with
      | none => c
      | some (w, ev) =>
        let c1 := match ev with
          | some l => c.evictL2 stop l cls
          | none => c
        (c1.setPl stop line (some { p with l2 := some w })).useWay stop 2 line w

/-- Install a line in L1D (128 sets of 8 ways); L2 is inclusive of L1D (R171). -/
def Coh.fillL1d (c0 : Coh) (env : CohEnv) (stop line cls : Nat) : Coh :=
  let c := match (c0.pl stop line).bind (·.l1d) with | some _ => c0 | none => c0.fillL2 env stop line cls
  match c.pl stop line with
  | none => c
  | some p =>
    if p.victim then c
    else match p.l1d with
    | some w => c.useWay stop 0 line w
    | none =>
      let occ := (c.linesOf stop (line % 128) 128).filterMap (fun x => x.2.l1d.map (fun w => (x.1, w)))
      match c.chooseIn stop 0 line (env.l1dDis stop) occ with
      | none => c
      | some (w, ev) =>
        let c1 := match ev with
          | some l => match c.pl stop l with
            | some q => c.setPl stop l (some { q with l1d := none, l2old := none })
            | none => c
          | none => c
        (c1.setPl stop line (some { p with l1d := some w })).useWay stop 0 line w

/-- Install a line in L1I (256 sets of 4 ways). A line left in no cache goes to the victim buffer. -/
def Coh.fillL1i (c : Coh) (env : CohEnv) (stop line cls : Nat) : Coh :=
  match c.pl stop line with
  | none => c
  | some p =>
    if p.victim then c
    else match p.l1i with
    | some w => c.useWay stop 1 line w
    | none =>
      let occ := (c.linesOf stop (line % 256) 256).filterMap (fun x => x.2.l1i.map (fun w => (x.1, w)))
      match c.chooseIn stop 1 line (env.l1iDis stop) occ with
      | none => c
      | some (w, ev) =>
        let c1 := match ev with
          | some l => match c.pl stop l with
            | some q =>
              if q.l2.isNone then c.setPl stop l (some { q with l1i := none, victim := true, hold := false, fresh := none, cls := cls })
              else c.setPl stop l (some { q with l1i := none })
            | none => c
          | none => c
        (c1.setPl stop line (some { p with l1i := some w })).useWay stop 1 line w

/-! ### Whole transactions of a core's own access

An instruction is one indivisible step: the request, its service by the home under R222 and the delivery of the data are done at once, and their messages are noted for the counters. A hit needs the private copy alone. A request has to wait (`none`) while the line has an open transaction or an outstanding miss of the core, while the core's own copy is in its victim buffer, or while a copy the home must snoop parks snoops. A line newly granted in native mode opens its own hold window (08 R224), which HOLD_WINDOW_END closes. -/

/-- Is the line free for a request of the stop? -/
def Coh.lineFree (c : Coh) (stop line : Nat) : Bool :=
  (c.txn line).isNone && (c.miss stop line).isNone && !c.gone.contains (privKey stop line) && (match c.pl stop line with | some p => !p.victim | none => true) &&
    c.retry.all (fun x => x.line != line)

/-- A new directory entry for a line. -/
def Coh.newEntry (c : Coh) (h : HomeLoc) (w line : Nat) (sec : Bool) (st : DirState) (owner : Option Nat) (sharers : List Nat) (poison : Bool) : Coh :=
  { c.setDe line (some ⟨h.slice, h.dirSet, w, sec, st, false, owner, sharers, 0, poison, c.stamp⟩) with stamp := c.stamp + 1 }

/-- A copy just granted to a core whose access is performed in the same step. -/
def freshLine (env : CohEnv) (st : Moes) (d : Line) (poison sec : Bool) (cls : Nat) : PLine := ⟨st, d, poison, sec, none, none, none, env.native, none, false, cls, none, false⟩

/-- An entry that comes to stand for one owner alone. A coarse entry stays coarse until it is freed (R220). -/
def DirEntry.ownedBy (e : DirEntry) (a : Nat) (poison : Bool) : DirEntry :=
  { e with st := .ex, owner := some a, sharers := [], groups := 0, poison := e.poison || poison }

/-- Install in L1I for a fetch, in L1D for a load. -/
def Coh.fillFor (c : Coh) (env : CohEnv) (stop line : Nat) (code : Bool) (cls : Nat) : Coh := if code then c.fillL1i env stop line cls else c.fillL1d env stop line cls

/-- A reader gets a copy in S of data with a poison mark, and is recorded (R219, R220, R222). -/
def Coh.addReader (c : Coh) (env : CohEnv) (slice stop line : Nat) (e : DirEntry) (d : Line) (p : Bool) (code : Bool) (cls : Nat) : Coh :=
  let (e2, co) := e.addSharer stop
  let c1 := c.setDe line (some { e2 with poison := e2.poison || p })
  let c2 := if co then c1.count 0x027 slice stop (64 * line) else c1
  (c2.setPl stop line (some (freshLine env .s d p e.sec cls))).fillFor env stop line code cls

/-- Obtain a readable copy (RdShared, or RdCode for a fetch), R222. -/
def Coh.acquireRead (c : Coh) (env : CohEnv) (stop line : Nat) (code : Bool) (cls : Nat) : Option Coh :=
  match c.pl stop line with
  | some p => if p.victim then none else some (c.fillFor env stop line code cls)
  | none =>
    if !c.lineFree stop line then none
    else
      match env.home line with
      | none => none
      | some h =>
        let sec := (c.tagOf line).getD (env.secLine line)
        match c.de line with
        | none =>
          match c.dirWay env h false with
          | none => none
          | some (w, c1) =>
            let c2 := (c1.homeFill env line sec cls stop).hops [(stop, h.slice, 1), (h.slice, stop, 2), (stop, h.slice, 1)]
            let (d, _, p) := c2.homeData env line
            let st := if code then Moes.s else Moes.e
            let c3 := c2.newEntry h w line sec (if code then .s else .ex) (if code then none else some stop) (if code then [stop] else []) p
            some ((c3.setPl stop line (some (freshLine env st d p sec cls))).fillFor env stop line code cls)
        | some e =>
          match e.owner with
          | some b =>
            if c.held line stop [b] then none
            else
              match c.pl b line with
              | none => none
              | some q =>
                let q' := match q.st with
                  | .m => { q with st := .o }
                  | .e => { q with st := .s }
                  | _ => q
                let e1 := if q.st.dirty then { e with st := .o } else ({ e with st := .s, owner := none }.addSharer b).1
                let c1 := (c.setPl b line (some q')).count 0x020 h.slice stop (64 * line)
                let c2 := c1.hops [(stop, h.slice, 1), (h.slice, b, 1), (b, stop, 2), (b, h.slice, 1), (stop, h.slice, 1)]
                some (c2.addReader env h.slice stop line e1 q.data q.poison code cls)
          | none =>
            let c1 := (c.homeFill env line e.sec cls stop).hops [(stop, h.slice, 1), (h.slice, stop, 2), (stop, h.slice, 1)]
            let (d, _, p) := c1.homeData env line
            some (c1.addReader env h.slice stop line e d p code cls)

/-- How a core came by ownership of a line, for its contention predictor (R231): a hit in E or M, a copy forwarded or recalled from another core, or otherwise. -/
inductive OwnHow where
  | hit | forwarded | other
  deriving DecidableEq, Repr

/-- Obtain the line in E or M (RdOwn or Upgrade), R222. Answers the memory system and how the line was had (08 R231). -/
def Coh.acquireOwn (c : Coh) (env : CohEnv) (stop line : Nat) (cls : Nat) : Option (Coh × OwnHow) :=
  let mine := c.pl stop line
  if mine.any (fun p => !p.victim && (p.st == .m || p.st == .e)) then some (c.fillL1d env stop line cls, .hit)
  else if !c.lineFree stop line then none
  else
    match env.home line with
    | none => none
    | some h =>
      match mine, c.de line with
      | some p, some e =>
        let others := e.holders.filter (fun s => s != stop)
        if c.held line stop others then none
        else
          let from_ := c.dirtyFrom line others
          let c1 := ((c.noteSnoops h.slice line false others).hops [(stop, h.slice, 1), (h.slice, stop, 1), (stop, h.slice, 1)]).dropAll line others
          let (d, po) := from_.getD (p.data, p.poison)
          let c2 := c1.setDe line (some (e.ownedBy stop po))
          let c3 := c2.setPl stop line (some { p with st := if from_.isSome || p.st.dirty then .m else .e, data := d, poison := po, hold := env.native, cls := cls })
          some (c3.fillL1d env stop line cls, if from_.isSome then .forwarded else .other)
      | some _, none => none
      | none, some e =>
        let hs := e.holders.filter (fun s => s != stop)
        if c.held line stop hs then none
        else
          let fromOwner := match e.owner with
            | some b => (c.pl b line).map (fun q => (b, q))
            | none => none
          let c00 := (c.count 0x020 h.slice stop (64 * line)).noteSnoops h.slice line false hs
          let c0 := if hs.any (fun x => e.owner != some x) then c00.hop h.slice stop 1 else c00
          let c1 := ((match fromOwner with
              | some (b, _) => c0.hops [(stop, h.slice, 1), (b, stop, 2), (stop, h.slice, 1)]
              | none => (c.homeFill env line e.sec cls stop).noteSnoops h.slice line false hs |>.hops ([(stop, h.slice, 1), (h.slice, stop, 2), (stop, h.slice, 1)] ++ (if hs.isEmpty then [] else [(h.slice, stop, 1)]))).dropAll line hs)
          let (d, dirty, p) := match fromOwner with
            | some (_, q) => (q.data, q.st.dirty, q.poison)
            | none => let (d, _, p) := c1.homeData env line; (d, false, p)
          let c2 := c1.setDe line (some (e.ownedBy stop p))
          let c3 := c2.setPl stop line (some (freshLine env (if dirty then .m else .e) d p e.sec cls))
          some (c3.fillL1d env stop line cls, if fromOwner.isSome then .forwarded else .other)
      | none, none =>
        match c.dirWay env h false with
        | none => none
        | some (w, c1) =>
          let sec := (c.tagOf line).getD (env.secLine line)
          let c2 := (c1.homeFill env line sec cls stop).hops [(stop, h.slice, 1), (h.slice, stop, 2), (stop, h.slice, 1)]
          let (d, dirty, p) := c2.homeData env line
          let c3 := match dirty, c2.blk line with
            | true, some b => c2.setBlk (line / 4) (some (b.put (line % 4) d false p sec))
            | _, _ => c2
          let c4 := c3.newEntry h w line sec .ex (some stop) [] p
          let c5 := c4.setPl stop line (some (freshLine env (if dirty then .m else .e) d p sec cls))
          some (c5.fillL1d env stop line cls, .other)

/-- Write bytes into a line held in E or M: the line moves to M (R218); a poisoned sector keeps its mark (07 R176), and the SEC tag is that of the region map at the write (15 R457). -/
def Coh.writeOwned (c : Coh) (env : CohEnv) (stop line : Nat) (d : Line) (mask : BitVec 64) : Coh :=
  match c.pl stop line with
  | none => c
  | some p => ((c.de line).elim c (fun e => c.setDe line (some { e with sec := env.secLine line }))).setPl stop line (some { p with st := .m, sec := env.secLine line, data := mergeLine p.data d mask, l2old := if p.l2old.isSome then p.l2old else if p.l1d.isSome && p.l2.isSome then some p.data else none })

/-- The current value of a line as the home supplies it to a reader that keeps no copy (RdCur, R222): the owner's copy, else the LLC sector, else memory. -/
def Coh.current (c : Coh) (env : CohEnv) (line : Nat) : Line × Bool :=
  let home : Line × Bool := let (d, _, p) := c.homeData env line; (d, p)
  match c.de line with
  | none => home
  | some e =>
    match e.owner with
    | none => home
    | some b =>
      match c.pl b line with
      | some q => (q.data, q.poison)
      | none =>
        match ((c.txn line).bind (·.fwd)).bind (fun x => c.pl x line) with
        | some q => (q.data, q.poison)
        | none => home

/-- The agent's write at the home once no copy is left (R222): the LLC sector if valid, else memory; one write of the whole line removes its poison mark, `poison` leaves one (R206, 07 R176). -/
def Coh.putHome (c : Coh) (env : CohEnv) (line : Nat) (d : Line) (mask : BitVec 64) (poison : Bool) (cls : Nat) : Coh :=
  match c.sectorOf line, c.blk line with
  | some (old, _, p), some b =>
    c.setBlk (line / 4) (some (b.put (line % 4) (mergeLine old d mask) true (poison || (mask != fullMask && p)) (env.secLine line)))
  | _, _ => c.memWrite env line d mask poison cls

/-- WrLine or WrPart of a requester performed at once (R222): copies are invalidated (for a partial write dirty data are recalled and merged), then the write. The hold windows of the copies have ended (R237). `poison` is the mark its data carry (R206). -/
def Coh.homeWrite (c : Coh) (env : CohEnv) (line : Nat) (d : Line) (mask : BitVec 64) (cls : Nat) (poison : Bool := false) (src : Nat := 224) : Coh :=
  let home := (env.home line).elim 0 (·.slice)
  let c0 := c.hop src home 2
  let c1 :=
    if mask == fullMask then
      match c0.de line with
      | some e => ((c0.noteSnoops home line false e.holders).dropAll line e.holders).setDe line none
      | none => c0
    else c0.recall env line cls
  c1.putHome env line d mask poison cls

/-- Mark a line at its home as poisoned (07 R176): in its directory entry if it has one, and in its LLC sector, which then holds the mark dirty until it is written back; in memory where no way is eligible. What the lost line held is not known; memory's bytes stand for it. -/
def Coh.poisonLine (c : Coh) (env : CohEnv) (line : Nat) : Coh :=
  let c1 := match c.de line with
    | some e => c.setDe line (some { e with poison := true })
    | none => c
  c1.homePutDirty env line (c1.homeData env line).1 true (c1.tagOf line |>.getD (env.secLine line)) noClass

/-- A far atomic of a core on a line, noted for CONTENDED (08 R231): each core's latest within 256 mesh cycles. -/
def Coh.noteFar (c : Coh) (env : CohEnv) (core line : Nat) : Coh :=
  let l := (smGet (fun _ => []) c.farUse line).filter (fun u => u.core != core && decide (env.cycle ≤ u.cycle + 256))
  { c with farUse := smSet (fun _ => []) c.farUse line (l ++ [⟨core, env.cycle⟩]) }

/-- Had a copy of the line to be recalled from an owner other than `core` (sharers are only invalidated, R222), or was a far atomic of another core performed on it within 256 mesh cycles (08 R231)? -/
def Coh.contendedFor (c : Coh) (env : CohEnv) (core line : Nat) : Bool :=
  (match c.de line with | some e => e.owner.any (fun h => h != core && (c.pl h line).isSome) | none => false) ||
  (smGet (fun _ => []) c.farUse line).any (fun u => u.core != core && decide (env.cycle ≤ u.cycle + 256))

/-- A far atomic at the home (08 R222, R232): copies are recalled, `f` operates on the line, and the LLC sector holds the result, dirty. A poisoned sector is left unchanged. Answers the old line, its poison mark and CONTENDED. -/
def Coh.farOp (c : Coh) (env : CohEnv) (core line : Nat) (cls : Nat) (f : Line → Line) : Coh × Line × Bool × Bool :=
  let con := c.contendedFor env core line
  let slice := (env.home line).elim 0 (·.slice)
  let c1 := ((c.recall env line cls).count 0x020 slice core (64 * line)).hops [(core, slice, 1), (slice, core, 1)]
  let (d, _, p) := c1.homeData env line
  let c2 := c1.noteFar env core line
  if p then (c2, d, true, con) else (c2.homePutDirty env line (f d) false (env.secLine line) cls, d, false, con)

/-- Lines held by a stop's private caches. -/
def Coh.linesAt (c : Coh) (stop : Nat) : List Nat :=
  c.priv.filterMap (fun x => if x.1 / 2 ^ 46 = stop && x.2.isSome then some (x.1 % 2 ^ 46) else none)

/-- Clean and invalidate one private copy: dirty data go to the home's LLC sector and the holder is removed from the directory (07 R181). -/
def Coh.flushLine (env : CohEnv) (stop : Nat) (c : Coh) (line : Nat) : Coh :=
  match c.pl stop line with
  | none => c
  | some p =>
    let c1 := if p.st.dirty then c.homePutDirty env line p.data p.poison p.sec noClass else c
    let c2 := match c1.de line with
      | some e => c1.setDe line (e.remove stop)
      | none => c1
    c2.setPl stop line none

/-- Clean and invalidate every private cache of a stop (16 R496, 11 R343, 18 R558). -/
def Coh.flushStop (c : Coh) (env : CohEnv) (stop : Nat) : Coh := (c.linesAt stop).foldl (Coh.flushLine env stop) c

/-- Does a request for the line wait at its home: for an open transaction, or behind an older request in the input or retry queue (R216, R217)? -/
def Coh.queued (c : Coh) (line : Nat) : Bool := (c.txn line).isSome || c.waiting.any (fun x => x.line == line) || c.retry.any (fun x => x.line == line)

/-- Is the line busy, or a copy of it inside a hold window? -/
def Coh.blocked (c : Coh) (line : Nat) : Bool :=
  (c.txn line).isSome || (match c.de line with | some e => c.held line 999 e.holders | none => false)

/-! ### Maintenance (07 R181, R187, R188) -/

/-- A dirty copy becomes clean (R181, R218). -/
def PLine.clean (p : PLine) : PLine := { p with st := match p.st with | .m => .e | .o => .s | .e => .e | .s => .s, l2old := none }

/-- Dirty data of a line reach memory, and a valid LLC sector agrees with them, clean. The mark that the home holds goes with them (07 R176, R190). -/
def Coh.putClean (c : Coh) (env : CohEnv) (line : Nat) (d : Line) (po0 : Bool) (cls : Nat) : Coh :=
  let po := po0 || c.markOf line
  let c1 := c.memWrite env line d fullMask po cls
  match c1.blk line with
  | some b => if b.valid.getLsbD (line % 4) then c1.setBlk (line / 4) (some (b.put (line % 4) d false po (env.secLine line))) else c1
  | none => c1

/-- Write the latest dirty data of a line to memory: a private dirty copy, or a dirty LLC sector; copies stay, clean. An owner in O becomes a sharer. -/
def Coh.cleanLine (c : Coh) (env : CohEnv) (line cls : Nat) : Coh :=
  let put (c : Coh) (d : Line) (po : Bool) : Coh := c.putClean env line d po cls
  match c.de line with
  | none => match c.sectorOf line with | some (d, true, po) => put c d po | _ => c
  | some e =>
    match c.dirtyFrom line e.holders with
    | none => match c.sectorOf line with | some (d, true, po) => put c d po | _ => c
    | some (d, po) =>
      let c1 := put c d po
      let c2 := e.holders.foldl (fun c h => match c.pl h line with | some p => c.setPl h line (some p.clean) | none => c) c1
      match e.st, e.owner with
      | .o, some b => c2.setDe line (some ({ e with owner := none, st := .s }.addSharer b).1)
      | _, _ => c2

/-- Count QUOIN_INVALIDATED for a line whose block lies in a quoin (R192). -/
def Coh.countQuoin (c : Coh) (env : CohEnv) (b : LlcBlk) (line : Nat) : Coh :=
  if quoinLocked env b.slice b.way then c.count 0x023 b.slice 0 (64 * line) else c

/-- The code under which maintenance of a line is noted, for fills of it that memory has still to deliver (07 R189). -/
def evCmo : Nat := 0xE000

/-- Remove every copy of a line, data and poison marks discarded. -/
def Coh.invalLine (c : Coh) (env : CohEnv) (line : Nat) : Coh :=
  let c1 := match c.de line with
    | some e => (c.dropAll line e.holders).setDe line none
    | none => c
  match c1.blk line with
  | some b => if b.valid.getLsbD (line % 4) then (c1.setBlk (line / 4) (some (b.drop (line % 4)))).countQuoin env b line else c1
  | none => c1

/-- Remove one stop's copy of a line without writing it back. -/
def Coh.dropCopy (c : Coh) (stop line : Nat) : Coh :=
  let c1 := match c.de line with
    | some e => c.setDe line (e.remove stop)
    | none => c
  c1.setPl stop line none

/-- The line in a private slot: cache 0 L1D, 1 L1I, 2 L2 (R187). -/
def Coh.slotLine (c : Coh) (stop level set way : Nat) : Option (Nat × PLine) :=
  let n := if level = 0 then 128 else if level = 1 then 256 else 2048
  (c.linesOf stop set n).find? (fun x => (if level = 0 then x.2.l1d else if level = 1 then x.2.l1i else x.2.l2) == some way)

/-- Invalidate one private slot (R171, R188): an L2 entry takes the L1D copy with it; an L1D entry leaves what L2 holds; a line left in no cache is dropped. The L1I copy of a line whose dirty L2 entry is discarded goes too (DESIGN CHOICE, notes/assumptions/113.md). -/
def Coh.invalSlot (c : Coh) (stop level line : Nat) (p : PLine) : Coh :=
  let q : PLine :=
    if level = 0 then { p with l1d := none, data := p.l2old.getD p.data, l2old := none }
    else if level = 1 then { p with l1i := none }
    else { p with l1d := none, l2 := none, l2old := none }
  if level = 2 && p.l1i.isSome && p.st.dirty then c.dropCopy stop line
  else if q.l1d.isNone && q.l1i.isNone && q.l2.isNone then c.dropCopy stop line
  else c.setPl stop line (some q)

end Sys2Proof.Machine
end

