-- ==== Sys2Proof/Machine/Fp.lean ====
section
/-! DEFINITION. Floating-point arithmetic of spec/05_arithmetic.md (R127–R140): every operation computes the exact rational result and rounds it once; flags are the six bits of FPFLAGS (02 R45). -/
namespace Sys2Proof.Machine

/-- A format (R127): precision p, emin, emax, and the width of the encoding. -/
structure Fmt where
  p : Nat
  emin : Int
  emax : Int
  width : Nat
  deriving DecidableEq, Repr

/-- binary16 (R127). -/
def fmtH : Fmt := ⟨11, -14, 15, 16⟩
/-- binary32 (R127). -/
def fmtS : Fmt := ⟨24, -126, 127, 32⟩
/-- binary64 (R127). -/
def fmtD : Fmt := ⟨53, -1022, 1023, 64⟩
/-- bfloat16 (R127). -/
def fmtB : Fmt := ⟨8, -126, 127, 16⟩

/-- The format named by FMT of an FPS encoding (03 R91). -/
def fmtOf : BitVec 2 → Fmt := fun f =>
  if f = 0 then fmtH else if f = 1 then fmtS else if f = 2 then fmtD else fmtB

/-- Fraction bits of the encoding. -/
def Fmt.fb (f : Fmt) : Nat := f.p - 1
/-- The all-ones biased exponent. -/
def Fmt.expMax (f : Fmt) : Nat := 2 ^ (f.width - f.p) - 1
/-- The canonical NaN (R127, R128). -/
def Fmt.canonNan (f : Fmt) : Nat := (f.expMax <<< f.fb) + 2 ^ (f.fb - 1)
/-- The encoding of infinity. -/
def Fmt.infPat (f : Fmt) (neg : Bool) : Nat := (neg.toNat <<< (f.width - 1)) + (f.expMax <<< f.fb)
/-- The encoding of the largest finite number L (R127). -/
def Fmt.maxPat (f : Fmt) (neg : Bool) : Nat := f.infPat neg - 1
/-- The encoding of zero. -/
def Fmt.zeroPat (f : Fmt) (neg : Bool) : Nat := neg.toNat <<< (f.width - 1)

/-- A decoded operand: NaN (signalling or quiet), infinity, or (−1)^neg · m · 2^e. -/
inductive FpVal where
  | nan (signalling : Bool)
  | inf (neg : Bool)
  | fin (neg : Bool) (m : Nat) (e : Int)
  deriving DecidableEq, Repr

/-- The flags of FPFLAGS (02 R45). -/
structure FpFlags where
  iv : Bool := false
  dz : Bool := false
  of : Bool := false
  uf : Bool := false
  ix : Bool := false
  dn : Bool := false
  deriving DecidableEq, Repr

/-- Union of two flag sets (R134). -/
def FpFlags.or (a b : FpFlags) : FpFlags :=
  ⟨a.iv || b.iv, a.dz || b.dz, a.of || b.of, a.uf || b.uf, a.ix || b.ix, a.dn || b.dn⟩

/-- FPFLAGS bits [5:0] (02 R45). -/
def FpFlags.toWord (a : FpFlags) : Word :=
  BitVec.ofNat 64 (a.iv.toNat + 2 * a.dz.toNat + 4 * a.of.toNat + 8 * a.uf.toNat + 16 * a.ix.toNat + 32 * a.dn.toNat)

/-- Rounding mode and the FTZ and DAZ switches of FPCTL (02 R45). -/
structure FpEnv where
  rm : Nat
  ftz : Bool
  daz : Bool
  deriving DecidableEq, Repr

/-- The environment FPCTL gives (R129, R131, R132). -/
def fpEnvOf (fpctl : Word) : FpEnv := ⟨fld fpctl 0 3, bit fpctl 3, bit fpctl 4⟩

/-- The environment of atomic FADD (03 R83): ties to even, no FTZ, no DAZ. -/
def fpEnvAtomic : FpEnv := ⟨0, false, false⟩

/-- Decode an encoding without regard to DAZ. -/
def fpDecode (f : Fmt) (w : Nat) : FpVal :=
  let neg := (w >>> (f.width - 1)) % 2 == 1
  let ex := natField w f.fb (f.width - f.p)
  let fr := w % 2 ^ f.fb
  if ex = f.expMax then
    if fr = 0 then .inf neg else .nan (fr >>> (f.fb - 1) == 0)
  else if ex = 0 then .fin neg fr (f.emin - f.fb)
  else .fin neg (fr + 2 ^ f.fb) (f.emin - f.fb + (ex - 1 : Nat))

/-- Is the encoding a subnormal number? -/
def fpIsSub (f : Fmt) (w : Nat) : Bool :=
  natField w f.fb (f.width - f.p) == 0 && w % 2 ^ f.fb != 0

/-- Read an arithmetic operand (R131): DENORMAL when subnormal; replaced by a zero of its sign under DAZ; INVALID for a signalling NaN (R128). -/
def fpRead (f : Fmt) (env : FpEnv) (w : Nat) : FpVal × FpFlags :=
  let sub := fpIsSub f w
  let v := if sub && env.daz then FpVal.fin ((w >>> (f.width - 1)) % 2 == 1) 0 0 else fpDecode f w
  (v, { iv := (v == .nan true), dn := sub })

/-- Round m·2^e to a multiple of 2^q in the mode (R129); answers the multiple and whether it is inexact. -/
def roundAt (rm : Nat) (neg : Bool) (m : Nat) (e q : Int) : Nat × Bool :=
  if q ≤ e then (m <<< (e - q).toNat, false)
  else
    let k := (q - e).toNat
    let d := m >>> k
    let r := m % 2 ^ k
    let half := 2 ^ (k - 1)
    let up :=
      if rm = 0 then decide (r > half) || (r == half && d % 2 == 1)
      else if rm = 1 then false
      else if rm = 2 then !neg && r != 0
      else if rm = 3 then neg && r != 0
      else decide (r ≥ half)
    (if up then d + 1 else d, r != 0)

/-- Number of significant bits of a natural number. -/
def bitLen (m : Nat) : Nat := if m = 0 then 0 else Nat.log2 m + 1

/-- Encode (−1)^neg · m · 2^e, which the format must hold exactly. -/
def fpEncode (f : Fmt) (neg : Bool) (m : Nat) (e : Int) : Nat :=
  if m = 0 then f.zeroPat neg
  else
    let ev := e + (bitLen m : Int) - 1
    let q := max (ev - f.fb) (f.emin - f.fb)
    let frac := if q ≤ e then m <<< (e - q).toNat else m >>> (q - e).toNat
    let ex := if frac < 2 ^ f.fb then 0 else (ev - f.emin + 1).toNat
    f.zeroPat neg + (ex <<< f.fb) + frac % 2 ^ f.fb

/-- Round an exact non-zero result (−1)^neg · m · 2^e to the format (R129, R130, R132). -/
def fpRound (f : Fmt) (env : FpEnv) (neg : Bool) (m : Nat) (e : Int) : Nat × FpFlags :=
  if m = 0 then (f.zeroPat neg, {})
  else
    let q := e + (bitLen m : Int) - f.p
    let (m1, ix1) := roundAt env.rm neg m e q
    let e1 := min q e
    let m1 := if q ≤ e then m else m1
    let e1 := if q ≤ e then e else e1 + (q - e1)
    let top := e1 + (bitLen m1 : Int) - 1
    if top < f.emin then
      if env.ftz then (f.zeroPat neg, { uf := true, ix := true })
      else
        let (m2, ix2) := roundAt env.rm neg m e (f.emin - f.fb)
        (fpEncode f neg m2 (f.emin - f.fb), { uf := ix2, ix := ix2 })
    else if top > f.emax then
      let toInf := if env.rm = 0 || env.rm = 4 then true else if env.rm = 2 then !neg else if env.rm = 3 then neg else false
      (if toInf then f.infPat neg else f.maxPat neg, { of := true, ix := true })
    else (fpEncode f neg m1 e1, { ix := ix1 })

/-- Exact signed sum of two finite values with the zero-sign rule of IEEE 754 (roundTowardNegative gives −0). -/
def addExact (rm : Nat) (n1 : Bool) (m1 : Nat) (e1 : Int) (n2 : Bool) (m2 : Nat) (e2 : Int) : Bool × Nat × Int :=
  let e := min e1 e2
  let a : Int := (if n1 then -1 else 1) * ((m1 <<< (e1 - e).toNat : Nat) : Int)
  let b : Int := (if n2 then -1 else 1) * ((m2 <<< (e2 - e).toNat : Nat) : Int)
  let s := a + b
  if s = 0 then (if m1 = 0 && m2 = 0 && n1 == n2 then n1 else rm == 3, 0, e)
  else (decide (s < 0), s.natAbs, e)

/-- Sum of two decoded values (R128, R129). -/
def fpAddVal (f : Fmt) (env : FpEnv) (a b : FpVal) : Nat × FpFlags :=
  match a, b with
  | .nan _, _ => (f.canonNan, {})
  | _, .nan _ => (f.canonNan, {})
  | .inf n1, .inf n2 => if n1 == n2 then (f.infPat n1, {}) else (f.canonNan, { iv := true })
  | .inf n1, .fin .. => (f.infPat n1, {})
  | .fin .., .inf n2 => (f.infPat n2, {})
  | .fin n1 m1 e1, .fin n2 m2 e2 =>
    let (n, m, e) := addExact env.rm n1 m1 e1 n2 m2 e2
    if m = 0 then (f.zeroPat n, {}) else fpRound f env n m e

/-- FADD (03 R91). -/
def fpAdd (f : Fmt) (env : FpEnv) (a b : Nat) : Nat × FpFlags :=
  let (x, f1) := fpRead f env a
  let (y, f2) := fpRead f env b
  let (r, f3) := fpAddVal f env x y
  (r, (f1.or f2).or f3)

/-- The encoding with its sign bit inverted. -/
def fpFlip (f : Fmt) (a : Nat) : Nat := a ^^^ 2 ^ (f.width - 1)

/-- FSUB a, b is FADD a, −b (R128). -/
def fpSub (f : Fmt) (env : FpEnv) (a b : Nat) : Nat × FpFlags := fpAdd f env a (fpFlip f b)

/-- FMUL (03 R91). -/
def fpMul (f : Fmt) (env : FpEnv) (a b : Nat) : Nat × FpFlags :=
  let (x, f1) := fpRead f env a
  let (y, f2) := fpRead f env b
  let (r, f3) : Nat × FpFlags :=
    match x, y with
    | .nan _, _ => (f.canonNan, {})
    | _, .nan _ => (f.canonNan, {})
    | .inf n1, .inf n2 => (f.infPat (n1 != n2), {})
    | .inf n1, .fin n2 m2 _ => if m2 = 0 then (f.canonNan, { iv := true }) else (f.infPat (n1 != n2), {})
    | .fin n1 m1 _, .inf n2 => if m1 = 0 then (f.canonNan, { iv := true }) else (f.infPat (n1 != n2), {})
    | .fin n1 m1 e1, .fin n2 m2 e2 => fpRound f env (n1 != n2) (m1 * m2) (e1 + e2)
  (r, (f1.or f2).or f3)

/-- FDIV (03 R91): DIVZERO for a finite non-zero dividend over zero; 0/0 and ∞/∞ are invalid (R128). -/
def fpDiv (f : Fmt) (env : FpEnv) (a b : Nat) : Nat × FpFlags :=
  let (x, f1) := fpRead f env a
  let (y, f2) := fpRead f env b
  let (r, f3) : Nat × FpFlags :=
    match x, y with
    | .nan _, _ => (f.canonNan, {})
    | _, .nan _ => (f.canonNan, {})
    | .inf _, .inf _ => (f.canonNan, { iv := true })
    | .inf n1, .fin n2 _ _ => (f.infPat (n1 != n2), {})
    | .fin n1 _ _, .inf n2 => (f.zeroPat (n1 != n2), {})
    | .fin n1 m1 e1, .fin n2 m2 e2 =>
      if m2 = 0 then (if m1 = 0 then (f.canonNan, { iv := true }) else (f.infPat (n1 != n2), { dz := true }))
      else if m1 = 0 then (f.zeroPat (n1 != n2), {})
      else
        let k := f.p + 4 + bitLen m2
        let n := m1 <<< k
        let q := n / m2
        let s := if n % m2 = 0 then 0 else 1
        fpRound f env (n1 != n2) (2 * q + s) (e1 - e2 - k - 1)
  (r, (f1.or f2).or f3)

/-- Integer square root by bits from the top: the largest r with r² ≤ n among k-bit candidates. -/
def isqrtAux (n : Nat) : Nat → Nat → Nat
  | 0, r => r
  | k + 1, r => if (r + 2 ^ k) * (r + 2 ^ k) ≤ n then isqrtAux n k (r + 2 ^ k) else isqrtAux n k r

/-- FSQRT (03 R91): a value below zero other than −0 is invalid (R128). -/
def fpSqrt (f : Fmt) (env : FpEnv) (a : Nat) : Nat × FpFlags :=
  let (x, f1) := fpRead f env a
  let (r, f3) : Nat × FpFlags :=
    match x with
    | .nan _ => (f.canonNan, {})
    | .inf n => if n then (f.canonNan, { iv := true }) else (f.infPat false, {})
    | .fin n m e =>
      if m = 0 then (f.zeroPat n, {})
      else if n then (f.canonNan, { iv := true })
      else
        let k := 2 * f.p + 6
        let k := if (e - k) % 2 = 0 then k else k + 1
        let n := m <<< k
        let h := (bitLen n + 1) / 2 + 1
        let q := isqrtAux n h 0
        let s := if q * q = n then 0 else 1
        fpRound f env false (2 * q + s) ((e - k) / 2 - 1)
  (r, f1.or f3)

/-- Product of two decoded values kept exact: the value, and whether 0 × ∞ occurred (R128). -/
def mulExact (x y : FpVal) : FpVal × Bool :=
  match x, y with
  | .nan _, _ => (.nan false, false)
  | _, .nan _ => (.nan false, false)
  | .inf n1, .inf n2 => (.inf (n1 != n2), false)
  | .inf n1, .fin n2 m2 _ => if m2 = 0 then (.nan false, true) else (.inf (n1 != n2), false)
  | .fin n1 m1 _, .inf n2 => if m1 = 0 then (.nan false, true) else (.inf (n1 != n2), false)
  | .fin n1 m1 e1, .fin n2 m2 e2 => (.fin (n1 != n2) (m1 * m2) (e1 + e2), false)

/-- The value with its sign inverted. -/
def FpVal.negate : FpVal → FpVal
  | .nan s => .nan s
  | .inf n => .inf (!n)
  | .fin n m e => .fin (!n) m e

/-- FMADD and FMSUB: d ± a·b with one rounding to `f`; a and b are read in `fs` (bfloat16 accumulates in binary32, 03 R91). -/
def fpFma (f fs : Fmt) (env : FpEnv) (sub : Bool) (d a b : Nat) : Nat × FpFlags :=
  let (z, f0) := fpRead f env d
  let (x, f1) := fpRead fs env a
  let (y, f2) := fpRead fs env b
  let (pr, zi) := mulExact x y
  let pr := if sub then pr.negate else pr
  let (r, f3) := fpAddVal f env z pr
  (r, ((f0.or f1).or f2).or (f3.or { iv := zi }))

/-- The exact sum of two values kept exact for the three-term sum of 06 R151: the value, and whether ∞ − ∞ occurred. -/
def sumExact (rm : Nat) (x y : FpVal) : FpVal × Bool :=
  match x, y with
  | .nan _, _ => (.nan false, false)
  | _, .nan _ => (.nan false, false)
  | .inf n1, .inf n2 => if n1 == n2 then (.inf n1, false) else (.nan false, true)
  | .inf n1, .fin .. => (.inf n1, false)
  | .fin .., .inf n2 => (.inf n2, false)
  | .fin n1 m1 e1, .fin n2 m2 e2 =>
    let (n, m, e) := addExact rm n1 m1 e1 n2 m2 e2
    (.fin n m e, false)

/-- One lane of the bfloat16 VFMA and VFMS (06 R151): VD ± (a0·b0 + a1·b1), rounded once to binary32. -/
def fpFma2 (env : FpEnv) (sub : Bool) (d a0 b0 a1 b1 : Nat) : Nat × FpFlags :=
  let (z, f0) := fpRead fmtS env d
  let (x0, f1) := fpRead fmtB env a0
  let (y0, f2) := fpRead fmtB env b0
  let (x1, f3) := fpRead fmtB env a1
  let (y1, f4) := fpRead fmtB env b1
  let (p0, i0) := mulExact x0 y0
  let (p1, i1) := mulExact x1 y1
  let (s, i2) := sumExact env.rm p0 p1
  let s := if sub then s.negate else s
  let (r, f5) := fpAddVal fmtS env z s
  (r, ((f0.or f1).or (f2.or f3)).or ((f4.or f5).or { iv := i0 || i1 || i2 }))

/-- Ordering of two non-NaN values: −1, 0 or 1; zeros of either sign compare equal (R135). -/
def fpCmpVal (x y : FpVal) : Int :=
  match x, y with
  | .inf n1, .inf n2 => if n1 == n2 then 0 else if n1 then -1 else 1
  | .inf n1, _ => if n1 then -1 else 1
  | _, .inf n2 => if n2 then 1 else -1
  | .fin n1 m1 e1, .fin n2 m2 e2 =>
    let e := min e1 e2
    let a : Int := (if n1 then -1 else 1) * ((m1 <<< (e1 - e).toNat : Nat) : Int)
    let b : Int := (if n2 then -1 else 1) * ((m2 <<< (e2 - e).toNat : Nat) : Int)
    if a < b then -1 else if b < a then 1 else 0
  | _, _ => 0

/-- Is the value any NaN? -/
def FpVal.isNan : FpVal → Bool
  | .nan _ => true
  | _ => false

/-- Sign of a value. -/
def FpVal.sign : FpVal → Bool
  | .nan _ => false
  | .inf n => n
  | .fin n _ _ => n

/-- The encoding of an operand after DAZ (R133). -/
def fpAfterDaz (f : Fmt) (env : FpEnv) (w : Nat) : Nat :=
  if fpIsSub f w && env.daz then f.zeroPat ((w >>> (f.width - 1)) % 2 == 1) else w

/-- FMIN (mx = false) and FMAX (mx = true), R135: a NaN operand gives the canonical NaN; −0 is below +0; an operand is returned as it stands after DAZ (R133). -/
def fpMinMax (f : Fmt) (env : FpEnv) (mx : Bool) (a b : Nat) : Nat × FpFlags :=
  let (x, f1) := fpRead f env a
  let (y, f2) := fpRead f env b
  let fl := f1.or f2
  if x.isNan || y.isNan then (f.canonNan, fl)
  else
    let c := fpCmpVal x y
    let aBelow := decide (c < 0) || (c == 0 && x.sign && !y.sign)
    let aw := fpAfterDaz f env a
    let bw := fpAfterDaz f env b
    (if aBelow != mx then aw else bw, fl)

/-- The comparisons of R135: 0 equal (quiet), 1 less-than, 2 less-or-equal (both signalling). -/
def fpCompare (f : Fmt) (env : FpEnv) (kind : Nat) (a b : Nat) : Bool × FpFlags :=
  let (x, f1) := fpRead f env a
  let (y, f2) := fpRead f env b
  let fl := f1.or f2
  if x.isNan || y.isNan then (false, if kind = 0 then fl else fl.or { iv := true })
  else
    let c := fpCmpVal x y
    (if kind = 0 then c == 0 else if kind = 1 then decide (c < 0) else decide (c ≤ 0), fl)

/-- FCLASS (R136): the one-hot class bitmap. -/
def fpClass (f : Fmt) (w : Nat) : Nat :=
  match fpDecode f w with
  | .nan s => if s then 256 else 512
  | .inf n => if n then 1 else 128
  | .fin n m _ =>
    if m = 0 then (if n then 8 else 16)
    else if fpIsSub f w then (if n then 4 else 32)
    else (if n then 2 else 64)

/-- FCVT between floating-point formats (R133, R140). -/
def fpCvt (fs fd : Fmt) (env : FpEnv) (a : Nat) : Nat × FpFlags :=
  let (x, f1) := fpRead fs env a
  match x with
  | .nan _ => (fd.canonNan, f1)
  | .inf n => (fd.infPat n, f1)
  | .fin n m e =>
    let (r, f2) := fpRound fd env n m e
    (r, f1.or f2)

/-- Conversion to a w-bit integer (R137), signed or unsigned: rounds in RMODE, then tests the range. An out-of-range conversion of a subnormal sets DENORMAL (R131) as well as INVALID, which R137 names alone (DESIGN CHOICE, notes/assumptions/112.md). -/
def fpToInt (f : Fmt) (env : FpEnv) (signed : Bool) (w : Nat) (a : Nat) : Nat × FpFlags :=
  let hi : Nat := if signed then 2 ^ (w - 1) - 1 else 2 ^ w - 1
  let lo : Nat := if signed then 2 ^ (w - 1) else 0
  let (x, f1) := fpRead f env a
  match x with
  | .nan _ => (hi, { f1 with iv := true })
  | .inf n => (if n then lo else hi, { f1 with iv := true })
  | .fin n m e =>
    let (q, ix) := roundAt env.rm n m e 0
    if n then
      if q ≤ lo then ((2 ^ w - q) % 2 ^ w, f1.or { ix := ix })
      else (lo, { f1 with iv := true })
    else if q ≤ hi then (q, f1.or { ix := ix })
    else (hi, { f1 with iv := true })

/-- Conversion of an integer, given as sign and magnitude, to floating point (R137): no DENORMAL, no DAZ (R133). -/
def fpOfInt (f : Fmt) (env : FpEnv) (neg : Bool) (m : Nat) : Nat × FpFlags := fpRound f env neg m 0

/-- Sign and magnitude of a w-bit two's complement integer. -/
def intParts (signed : Bool) (w v : Nat) : Bool × Nat :=
  if signed && decide (2 ^ (w - 1) ≤ v) then (true, 2 ^ w - v) else (false, v)

end Sys2Proof.Machine
end

