-- ==== Sys2Proof/Machine/VecAlu.lean ====
section
/-! DEFINITION. Lane arithmetic of the vector instructions: lanes and masks (spec/06_vectors.md R141, R142, R147), the operations of spec/03_instruction_set.md R92, compares, reductions, conversions and sums of absolute differences (06 R148–R151, R155). A register is its value as a natural number; lane i of width w is bits [w·i + w − 1 : w·i]. -/
namespace Sys2Proof.Machine

/-- Element types (03 R92 ETYPE). -/
inductive EType where
  | i8 | i16 | i32 | i64 | f16 | bf16 | f32 | f64
  deriving DecidableEq, Repr

/-- ETYPE from its code (06 R141). -/
def ETypeOf (c : BitVec 3) : EType :=
  if c = 0 then .i8 else if c = 1 then .i16 else if c = 2 then .i32 else if c = 3 then .i64
  else if c = 4 then .f16 else if c = 5 then .bf16 else if c = 6 then .f32 else .f64

/-- Element width in bits (06 R141). -/
def EType.width : EType → Nat
  | .i8 => 8 | .i16 => 16 | .i32 => 32 | .i64 => 64 | .f16 => 16 | .bf16 => 16 | .f32 => 32 | .f64 => 64

/-- ETYPE 0–3 ("int", 03 R92). -/
def EType.isInt : EType → Bool
  | .i8 | .i16 | .i32 | .i64 => true | _ => false

/-- ETYPE 4, 6 and 7 ("fp", 03 R92). -/
def EType.isFp : EType → Bool
  | .f16 | .f32 | .f64 => true | _ => false

/-- Floating-point format of an element type. -/
def EType.fmt : EType → Fmt
  | .f16 => fmtH | .bf16 => fmtB | .f32 => fmtS | _ => fmtD

/-- Lane i of width w of a register value (06 R141). -/
def lane (v w i : Nat) : Nat := natField v (w * i) w

/-- A register value with lane i replaced. -/
def setLane (v w i x : Nat) : Nat := v - (lane v w i <<< (w * i)) + ((x % 2 ^ w) <<< (w * i))

/-- Mask bit i (06 R147). -/
def maskBit (m : BitVec 256) (i : Nat) : Bool := m.getLsbD i

/-- Run a lane function over lanes 0 to n − 1 whose mask bit is set (06 R142): other lanes keep their value; flags are merged (05 R134). -/
def mapLanes (m : BitVec 256) (w : Nat) (f : Nat → Nat × FpFlags) : Nat → Nat → Nat × FpFlags
  | 0, d => (d, {})
  | n + 1, d =>
    let (d1, fl) := mapLanes m w f n d
    if maskBit m n then
      let (x, g) := f n
      (setLane d1 w n x, fl.or g)
    else (d1, fl)

/-- Signed value of a w-bit lane. -/
def laneInt (w v : Nat) : Int := if v < 2 ^ (w - 1) then (v : Int) else (v : Int) - 2 ^ w

/-- A w-bit lane from an integer, modulo 2^w. -/
def laneOf (w : Nat) (x : Int) : Nat := (x % (2 ^ w : Int)).toNat

/-- The two-operand lane operations of 03 R92 VOP 0–13 and 16. -/
inductive VBin where
  | add | sub | mul | mulh | min | max | minu | maxu | and | or | xor | sll | srl | sra | div
  deriving DecidableEq, Repr

/-- Is the operation allocated for the type (03 R92, Types column)? -/
def VBin.allows (op : VBin) (t : EType) : Bool :=
  match op with
  | .add | .sub | .mul | .min | .max => t.isInt || t.isFp
  | .mulh | .minu | .maxu | .and | .or | .xor | .sll | .srl | .sra => t.isInt
  | .div => t.isFp

/-- One lane of a two-operand operation. -/
def vbin (op : VBin) (t : EType) (env : FpEnv) (a b : Nat) : Nat × FpFlags :=
  let w := t.width
  if t.isInt then
    let x := laneInt w a
    let y := laneInt w b
    let r : Nat := match op with
      | .add => laneOf w (x + y)
      | .sub => laneOf w (x - y)
      | .mul => laneOf w (x * y)
      | .mulh => laneOf w ((x * y) / 2 ^ w)
      | .min => if x ≤ y then a else b
      | .max => if x ≤ y then b else a
      | .minu => if a ≤ b then a else b
      | .maxu => if a ≤ b then b else a
      | .and => a &&& b
      | .or => a ||| b
      | .xor => a ^^^ b
      | .sll => (a <<< (b % w)) % 2 ^ w
      | .srl => a >>> (b % w)
      | .sra => laneOf w (x / 2 ^ (b % w))
      | .div => 0
    (r, {})
  else
    match op with
    | .add => fpAdd t.fmt env a b
    | .sub => fpSub t.fmt env a b
    | .mul => fpMul t.fmt env a b
    | .min => fpMinMax t.fmt env false a b
    | .max => fpMinMax t.fmt env true a b
    | .div => fpDiv t.fmt env a b
    | _ => (0, {})

/-- A two-operand vector operation over n lanes (03 R92, R93). -/
def vecBin (op : VBin) (t : EType) (env : FpEnv) (m : BitVec 256) (n d a b : Nat) : Nat × FpFlags :=
  mapLanes m t.width (fun i => vbin op t env (lane a t.width i) (lane b t.width i)) n d

/-- VFMA and VFMS (03 R92; bfloat16 pairs per 06 R151, where n counts binary32 lanes). -/
def vecFma (sub : Bool) (t : EType) (env : FpEnv) (m : BitVec 256) (n d a b : Nat) : Nat × FpFlags :=
  if t = .bf16 then
    mapLanes m 32 (fun i => fpFma2 env sub (lane d 32 i) (lane a 16 (2 * i)) (lane b 16 (2 * i))
      (lane a 16 (2 * i + 1)) (lane b 16 (2 * i + 1))) n d
  else
    mapLanes m t.width (fun i => fpFma t.fmt t.fmt env sub (lane d t.width i) (lane a t.width i) (lane b t.width i)) n d

/-- VSQRT (03 R92). -/
def vecSqrt (t : EType) (env : FpEnv) (m : BitVec 256) (n d a : Nat) : Nat × FpFlags :=
  mapLanes m t.width (fun i => fpSqrt t.fmt env (lane a t.width i)) n d

/-- One lane of a compare (03 R92 VOP 18–21): kind 0 equal, 1 less-than, 2 less-or-equal, 3 unsigned less-than. -/
def vcmp (kind : Nat) (t : EType) (env : FpEnv) (a b : Nat) : Bool × FpFlags :=
  if t.isInt then
    let x := laneInt t.width a
    let y := laneInt t.width b
    (if kind = 0 then a == b else if kind = 1 then decide (x < y) else if kind = 2 then decide (x ≤ y) else decide (a < b), {})
  else fpCompare t.fmt env kind a b

/-- Compare result mask (06 R148): active lanes get the result, inactive lanes below n keep their bit, bits at or above n become 0. -/
def vecCmp (kind : Nat) (t : EType) (env : FpEnv) (m old : BitVec 256) (a b : Nat) : Nat → Nat × FpFlags
  | 0 => (0, {})
  | n + 1 =>
    let (r, fl) := vecCmp kind t env m old a b n
    if maskBit m n then
      let (x, g) := vcmp kind t env (lane a t.width n) (lane b t.width n)
      (r + (x.toNat <<< n), fl.or g)
    else (r + ((old.getLsbD n).toNat <<< n), fl)

/-- The reductions of 03 R92 VOP 22–24. -/
inductive VRed where
  | sum | min | max
  deriving DecidableEq, Repr

/-- FTZ on the result of a reduction step that returns an operand: a subnormal becomes a zero of its sign and sets UNDERFLOW and INEXACT (R132, R133). -/
def redFlush (t : EType) (env : FpEnv) (r : Nat × FpFlags) : Nat × FpFlags :=
  if !t.isInt && env.ftz && fpIsSub t.fmt r.1 then (t.fmt.zeroPat ((r.1 >>> (t.width - 1)) % 2 == 1), r.2.or { uf := true, ix := true }) else r

/-- One step of a reduction; FTZ applies on each step (R133). -/
def redStep (op : VRed) (t : EType) (env : FpEnv) (a b : Nat) : Nat × FpFlags :=
  match op with
  | .sum => vbin .add t env a b
  | .min => redFlush t env (vbin .min t env a b)
  | .max => redFlush t env (vbin .max t env a b)

/-- The identity a reduction with no active lane writes (06 R149). -/
def redIdentity (op : VRed) (t : EType) : Nat :=
  if t.isInt then
    match op with
    | .sum => 0
    | .min => 2 ^ (t.width - 1) - 1
    | .max => 2 ^ (t.width - 1)
  else
    match op with
    | .sum => 0
    | .min => t.fmt.infPat false
    | .max => t.fmt.infPat true

/-- Combine neighbours of a level of the pairwise tree; an inactive lane contributes nothing, and the last lane of a level of odd length passes up as it stands (05 R134 gives neither; DEDUCED, notes/assumptions/12.md). A reduction with one active lane so takes no step, and its result is not flushed under FTZ (R132, R133; DESIGN CHOICE, notes/assumptions/112.md). -/
def redPair (op : VRed) (t : EType) (env : FpEnv) : List (Option Nat) → List (Option Nat) × FpFlags
  | [] => ([], {})
  | [x] => ([x], {})
  | x :: y :: r =>
    let (rest, fl) := redPair op t env r
    match x, y with
    | some a, some b =>
      let (z, g) := redStep op t env a b
      (some z :: rest, g.or fl)
    | some a, none => (some a :: rest, fl)
    | none, yb => (yb :: rest, fl)

/-- Levels of the pairwise tree, at most `fuel`. -/
def redTree (op : VRed) (t : EType) (env : FpEnv) : Nat → List (Option Nat) → Option Nat × FpFlags
  | 0, l => (l.headD none, {})
  | k + 1, l =>
    let (l1, f1) := redPair op t env l
    let (r, f2) := redTree op t env k l1
    (r, f1.or f2)

/-- An operand of a floating-point reduction after the reading rules of R131 and R128. -/
def redLeaf (t : EType) (env : FpEnv) (a : Nat) : Nat × FpFlags :=
  if t.isInt then (a, {})
  else
    let (v, fl) := fpRead t.fmt env a
    (if v.isNan then t.fmt.canonNan else fpAfterDaz t.fmt env a, fl)

/-- The active lanes of a source in index order, with the flags their reading raises. -/
def redLeaves (t : EType) (env : FpEnv) (m : BitVec 256) (a : Nat) : Nat → List (Option Nat) × FpFlags
  | 0 => ([], {})
  | n + 1 =>
    let (l, fl) := redLeaves t env m a n
    if maskBit m n then
      let (x, g) := redLeaf t env (lane a t.width n)
      (l ++ [some x], fl.or g)
    else (l ++ [none], fl)

/-- A reduction of the active lanes of VA into lane 0; the other lanes of VD become zero (03 R92, 06 R149). -/
def vecRed (op : VRed) (t : EType) (env : FpEnv) (m : BitVec 256) (n a : Nat) : Nat × FpFlags :=
  let (l, f1) := redLeaves t env m a n
  let (r, f2) := redTree op t env 8 l
  match r with
  | some x => (x, f1.or f2)
  | none => (redIdentity op t, {})

/-- Sum of absolute differences of k unsigned w-bit lanes from lane index i0 (06 R155). -/
def sadGroup (w a b i0 : Nat) : Nat → Nat
  | 0 => 0
  | k + 1 => sadGroup w a b i0 k + ((laneInt (w + 1) (lane a w (i0 + k)) - laneInt (w + 1) (lane b w (i0 + k))).natAbs)

/-- VSAD and VSADA (06 R155): 64-bit groups, mask bit g governs group g. `bytes` selects the ETYPE 0 form. -/
def vecSad (acc bytes : Bool) (m : BitVec 256) (groups d a b : Nat) : Nat :=
  let w := if bytes then 8 else 16
  let k := if bytes then 8 else 4
  let rw := if bytes then 16 else 32
  (mapLanes m 64 (fun g =>
    let s := sadGroup w a b (k * g) k
    let s := if acc then s + natField d (64 * g) rw else s
    (s % 2 ^ rw, {})) groups d).1

/-- An integer brought into the signed range of a w-bit element; outside it the result and flag of 05 R137 (notes/assumptions/13.md). -/
def satInt (w : Nat) (x : Int) : Nat × FpFlags :=
  if x < -(2 ^ (w - 1) : Int) then (2 ^ (w - 1), { iv := true })
  else if x > (2 ^ (w - 1) : Int) - 1 then (2 ^ (w - 1) - 1, { iv := true })
  else (laneOf w x, {})

/-- One element converted from one type to another (03 R92 VCVT, 05 R133, R137). -/
def cvtLane (ts td : EType) (env : FpEnv) (a : Nat) : Nat × FpFlags :=
  if ts.isInt then
    if td.isInt then satInt td.width (laneInt ts.width a)
    else
      let (n, m) := intParts true ts.width a
      fpOfInt td.fmt env n m
  else if td.isInt then fpToInt ts.fmt env true td.width a
  else fpCvt ts.fmt td.fmt env a

/-- VCVT over n lanes of the wider type (06 R150). -/
def vecCvt (ts td : EType) (env : FpEnv) (m : BitVec 256) (n d a : Nat) : Nat × FpFlags :=
  mapLanes m td.width (fun i => cvtLane ts td env (lane a ts.width i)) n d

/-- VBCAST (03 R92): every active lane receives x. -/
def vecBcast (w : Nat) (m : BitVec 256) (n d x : Nat) : Nat := (mapLanes m w (fun _ => (x, {})) n d).1

/-- VSEL (03 R92, R93): VA where the mask lane is set, else VB. -/
def vecSel (w : Nat) (m : BitVec 256) (n d a b : Nat) : Nat :=
  (mapLanes (BitVec.allOnes 256) w (fun i => (if maskBit m i then lane a w i else lane b w i, {})) n d).1

/-- VPERM (03 R92): lane i = VA lane (VB lane i modulo the lane count). -/
def vecPerm (w : Nat) (m : BitVec 256) (n d a b : Nat) : Nat :=
  (mapLanes m w (fun i => (lane a w (lane b w i % n), {})) n d).1

/-- VEXT (03 R92): lane number idx of VA, or 0 at or above the element count. -/
def vecExt (w n a idx : Nat) : Nat := if idx < n then lane a w idx else 0

end Sys2Proof.Machine
end

