-- ==== Sys2Proof/Machine/AtomAlu.lean ====
section
/-! DEFINITION. The arithmetic of atomic read-modify-write operations (spec/03_instruction_set.md R82, R83). -/
namespace Sys2Proof.Machine

/-- The new value of an atomic over `n` bytes: old memory value, operand and comparand (R82, R83). -/
def atomNew (atop n old opnd cmp : Nat) : Nat :=
  let w := 8 * n
  let m := 2 ^ w
  let o := opnd % m
  let so := laneInt w old
  let sp := laneInt w o
  if atop = 0 then (old + o) % m
  else if atop = 1 then old &&& o
  else if atop = 2 then old ||| o
  else if atop = 3 then old ^^^ o
  else if atop = 4 then (if so ≤ sp then old else o)
  else if atop = 5 then (if so ≤ sp then o else old)
  else if atop = 6 then min old o
  else if atop = 7 then max old o
  else if atop = 8 then o
  else if atop = 9 then (if old = cmp % m then o else old)
  else (fpAdd (if n = 4 then fmtS else fmtD) fpEnvAtomic old o).1

/-- A line with n bytes at offset `off` replaced. -/
def putInLine (d : Line) (off n v : Nat) : Line :=
  mergeLine d ((BitVec.ofNat 512 v) <<< (8 * off)) ((BitVec.allOnes 64 >>> (64 - n)) <<< off)

/-- The n bytes of a line at an offset. -/
def fromLine (d : Line) (off n : Nat) : Nat := natField d.toNat (8 * off) (8 * n)

/-- A far atomic's operation on its line (08 R232). -/
def AtomOp.apply (o : AtomOp) (d : Line) : Line :=
  let n := if o.size = 0 then 4 else if o.size = 1 then 8 else 16
  putInLine d o.off n (atomNew o.atop n (fromLine d o.off n) o.operand.toNat o.cmp.toNat)

end Sys2Proof.Machine
end

