-- ==== Sys2Proof/Machine/CohMsg.lean ====
section
/-! DEFINITION. The coherence protocol message by message: homes, private caches and requesters (spec/08_mesh_coherence.md R216–R237; spec/07_caches.md R185, R189). A home is named by its slice, a private cache by its stop. -/
namespace Sys2Proof.Machine

/-- A message of a kind between two ends about a line. -/
def mkMsg (k : MsgKind) (src dst line rqr : Nat) : Msg := ⟨k, src, dst, line, rqr, none, false, 0, false, false, false, false, 0, [], []⟩

/-- An open transaction that awaits snoop responses and possibly a CompAck. -/
def mkTxn (rq : HomeReq) (resp : List Nat) (ack : Bool) : Txn := ⟨rq, resp, none, ack, none, none, none, false, none⟩

/-- Snoop every stop of a list. -/
def Coh.snoopAll (c : Coh) (k : MsgKind) (h rqr line : Nat) (l : List Nat) : Coh := l.foldl (fun c d => c.send (mkMsg k h d line rqr)) c

/-- Data of the home to the requester, with the grant. -/
def Coh.sendData (c : Coh) (h : Nat) (rq : HomeReq) (g : Option Moes) (acks : Bool) (d : Line) (p : Bool) : Coh :=
  c.send { mkMsg .data h rq.req rq.line rq.req with grant := g, acks := acks, data := d, poison := p, thread := rq.thread }

/-- State granted to a request for ownership that the home answers itself: M when the LLC sector is dirty, whose dirty bit then clears; otherwise E (R222). -/
def Coh.grantOwn (c : Coh) (env : CohEnv) (h : Nat) (rq : HomeReq) (acks : Bool) : Coh :=
  let c1 := c.homeFill env rq.line (env.secLine rq.line) rq.cls rq.req
  let (d, dirty, p) := c1.homeData env rq.line
  let c2 := match dirty, c1.blk rq.line with
    | true, some b => c1.setBlk (rq.line / 4) (some (b.put (rq.line % 4) d false p (b.sec.getLsbD (rq.line % 4))))
    | _, _ => c1
  c2.sendData h rq (some (if dirty then .m else .e)) acks d p

/-! ### Homes (R222) -/

/-- Is the request one for ownership? -/
def ReqKind.own : ReqKind → Bool
  | .rdOwn => true | .upgrade => true | _ => false

/-- An entry as a request of stop `a` finds it: `a`, recorded as owner though it asks again, has lost its copy; an Upgrade from an owner in O is the exception. -/
def DirEntry.seenBy (e : DirEntry) (rq : HomeReq) : Option DirEntry :=
  if e.owner = some rq.req && !(rq.kind = .upgrade && e.st = .o) then e.remove rq.req else some e

/-- No entry: one is allocated in way w, and the home supplies the line (R222 column I). The entry's SEC tag is that of the LLC sector, or of the region map (15 R457). -/
def Coh.serveNew (c : Coh) (env : CohEnv) (h : HomeLoc) (w : Nat) (rq : HomeReq) : Coh :=
  if rq.kind.own then
    let tag := (c.tagOf rq.line).getD (env.secLine rq.line)
    let c1 := (c.newEntry h w rq.line tag .ex (some rq.req) [] false).grantOwn env h.slice rq false
    let p := (c1.homeData env rq.line).2.2
    (c1.newEntry h w rq.line tag .ex (some rq.req) [] p).setTxn rq.line (some (mkTxn rq [] true))
  else
    let code := rq.kind == .rdCode
    let tag := (c.tagOf rq.line).getD (env.secLine rq.line)
    let c1 := c.homeFill env rq.line tag rq.cls rq.req
    let (d, _, p) := c1.homeData env rq.line
    let c2 := (c1.newEntry h w rq.line tag .ex none [] p).sendData h.slice rq (some (if code then .s else .e)) false d p
    (c2.newEntry h w rq.line tag (if code then .s else .ex) (if code then none else some rq.req) (if code then [rq.req] else []) p).setTxn rq.line
      (some (mkTxn rq [] true))

/-- Sharers only: a reader is added; for ownership the other copies are invalidated (R222 column S). -/
def Coh.serveShared (c : Coh) (env : CohEnv) (h : HomeLoc) (e : DirEntry) (rq : HomeReq) : Coh :=
  if rq.kind.own then
    let others := e.holders.filter (fun x => x != rq.req)
    let c1 := (c.snoopAll .snpInv h.slice rq.req rq.line others).setDe rq.line (some (e.ownedBy rq.req (c.homeData env rq.line).2.2))
    if rq.kind = .upgrade && e.records rq.req then
      let c2 := c1.count 0x020 h.slice rq.req (64 * rq.line)
      if others.isEmpty then
        (c2.send { mkMsg .cmp h.slice rq.req rq.line rq.req with grant := some .e }).setTxn rq.line (some (mkTxn rq [] true))
      else c2.setTxn rq.line (some { mkTxn rq others true with cmp := some (.e, false) })
    else
      let c2 := c1.homeFill env rq.line e.sec rq.cls rq.req
      let (d, _, p) := c2.homeData env rq.line
      (c2.sendData h.slice rq (some .e) (!others.isEmpty) d p).setTxn rq.line (some { mkTxn rq others true with cmp := if others.isEmpty then none else some (.e, true) })
  else
    let c1 := c.homeFill env rq.line e.sec rq.cls rq.req
    let (d, _, p) := c1.homeData env rq.line
    let (e2, co) := e.addSharer rq.req
    let c2 := if co then c1.count 0x027 h.slice rq.req (64 * rq.line) else c1
    ((c2.sendData h.slice rq (some .s) false d p).setDe rq.line (some { e2 with poison := e2.poison || p })).setTxn rq.line (some (mkTxn rq [] true))

/-- An owner is recorded: it forwards the line (R222 columns EX and O). -/
def Coh.serveOwned (c : Coh) (h : HomeLoc) (e : DirEntry) (b : Nat) (rq : HomeReq) : Coh :=
  let c0 := c.count 0x020 h.slice rq.req (64 * rq.line)
  if rq.kind.own then
    let others := e.holders.filter (fun x => x != rq.req && x != b)
    let c1 := c0.setDe rq.line (some (e.ownedBy rq.req false))
    let c2 := c1.snoopAll .snpInv h.slice rq.req rq.line others
    if b = rq.req then
      if others.isEmpty then (c2.send { mkMsg .cmp h.slice b rq.line b with grant := some .m }).setTxn rq.line (some (mkTxn rq [] true))
      else c2.setTxn rq.line (some { mkTxn rq others true with cmp := some (.m, false) })
    else
      (c2.send { mkMsg .snpOwn h.slice b rq.line rq.req with acks := !others.isEmpty }).setTxn rq.line
        (some { mkTxn rq (b :: others) true with cmp := if others.isEmpty then none else some (.m, true), fwd := some b })
  else (c0.send (mkMsg .snpShared h.slice b rq.line rq.req)).setTxn rq.line (some (mkTxn rq [b] true))

/-- RdShared, RdCode, RdOwn and Upgrade at the home (R222, R227–R229); `none` when every way of the set has an open transaction (R228). A request whose entry must first be evicted keeps its line busy until the eviction is done; the eviction carries no class (11 R334). -/
def Coh.serveRead (c : Coh) (env : CohEnv) (h : HomeLoc) (rq : HomeReq) : Option Coh :=
  match (c.de rq.line).bind (fun e => e.seenBy rq) with
  | some e =>
    match e.owner with
    | some b => some (c.serveOwned h e b rq)
    | none => some (c.serveShared env h e rq)
  | none =>
    let c0 := c.setDe rq.line none
    match c0.dirFree env h with
    | some w => some (c0.serveNew env h w rq)
    | none =>
      match c0.dirVictim env h with
      | some (v, e) =>
        let ev : HomeReq := { rq with kind := .dirEvict, line := v, sec := e.sec, cls := noClass }
        let c1 := (c0.snoopAll .snpRecall h.slice rq.req v e.holders).count 0x026 h.slice 0 (64 * v)
        some ((c1.setTxn v (some { mkTxn ev e.holders false with next := some rq })).setTxn rq.line (some (mkTxn { rq with kind := .dirEvict } [] true)))
      | none => none

/-- Serve a read or ownership request, or put it into the home's retry queue (R228): DIR_RETRY counts each that enters. A core has one slot there; with its slot taken the request stays in the home's input queue. -/
def Coh.serveOrRetry (c : Coh) (env : CohEnv) (h : HomeLoc) (rq : HomeReq) : Coh :=
  match c.serveRead env h rq with
  | some c1 => c1
  | none =>
    if c.retry.any (fun x => x.req == rq.req && (env.home x.line).elim false (fun y => y.slice == h.slice)) then { c with waiting := c.waiting ++ [rq] }
    else { c.count 0x025 h.slice rq.req (64 * rq.line) with retry := c.retry ++ [rq] }

/-- The write of WrLine and WrPart once no copy is left: the LLC sector if valid, else memory (R222). -/
def Coh.writeHome (c : Coh) (env : CohEnv) (rq : HomeReq) : Coh :=
  (c.setDe rq.line none).putHome env rq.line rq.data (if rq.kind == .wrLine then fullMask else rq.mask) rq.poison rq.cls

/-- A far atomic once no copy is left (R222, R232). -/
def Coh.atomHome (c : Coh) (env : CohEnv) (h : Nat) (rq : HomeReq) (con : Bool) : Coh :=
  let c1 := (c.setDe rq.line none).count 0x020 h rq.req (64 * rq.line)
  let (d, _, p) := c1.homeData env rq.line
  let c2 := c1.noteFar env rq.req rq.line
  let c3 := if p then c2 else c2.homePutDirty env rq.line (rq.atom.apply d) false (env.secLine rq.line) rq.cls
  c3.send { mkMsg .atomResp h rq.req rq.line rq.req with
    data := BitVec.ofNat 512 (fromLine d rq.atom.off (if rq.atom.size = 0 then 4 else if rq.atom.size = 1 then 8 else 16))
    poison := p, contended := con, thread := rq.thread, elems := [(rq.elems.getD 0 0, rq.elems.getD 1 0), (rq.atom.size, rq.elems.getD 2 0)] }

/-- What a write, far atomic or uncached read does at the home when every awaited copy has answered; `got` is data a holder returned. -/
def Coh.finishHome (c : Coh) (env : CohEnv) (h : Nat) (t : Txn) : Coh :=
  let rq := t.rq
  match rq.kind with
  | .wrLine => c.writeHome env rq
  | .wrPart =>
    (match t.got with
     | some (d, true, p) => c.homePutDirty env rq.line d p (c.tagged rq.line) rq.cls
     | _ => c).writeHome env rq
  | .atomFar =>
    (match t.got with
     | some (d, true, p) => c.homePutDirty env rq.line d p (c.tagged rq.line) rq.cls
     | _ => c).atomHome env h rq t.contended
  | .rdCur =>
    match t.got with
    | some (d, _, p) => c.sendData h rq none false d p
    | none => let (d, _, p) := c.homeData env rq.line; c.sendData h rq none false d p
  | .dirEvict =>
    (match t.got with
     | some (d, true, p) => c.homePutDirty env rq.line d p rq.sec rq.cls
     | _ => c).setDe rq.line none
  | _ => c

/-- WrLine, WrPart, AtomFar and RdCur: the copies that must answer first are snooped; with none the request is performed at once (R222). -/
def Coh.serveAgent (c : Coh) (env : CohEnv) (h : HomeLoc) (rq : HomeReq) : Coh :=
  let t0 := mkTxn rq [] false
  match c.de rq.line with
  | none =>
    let c1 := if rq.kind = .rdCur then (c.count 0x020 h.slice rq.req (64 * rq.line)) else c
    c1.finishHome env h.slice { t0 with contended := c.contendedFor env rq.req rq.line }
  | some e =>
    if rq.kind = .rdCur then
      match e.owner with
      | some b => (c.send (mkMsg .snpCur h.slice b rq.line rq.req)).setTxn rq.line (some (mkTxn rq [b] false))
      | none => (c.count 0x020 h.slice rq.req (64 * rq.line)).finishHome env h.slice t0
    else
      let l := e.holders
      let pull := rq.kind != .wrLine
      let c1 := l.foldl (fun c d => c.send (mkMsg (if pull && e.owner == some d then .snpRecall else .snpInv) h.slice d rq.line rq.req)) c
      let t := { mkTxn rq l false with contended := c.contendedFor env rq.req rq.line }
      if l.isEmpty then c1.finishHome env h.slice t else c1.setTxn rq.line (some t)

/-- WbReq and EvictClean (R222). A clean eviction that is not pulled frees the victim buffer at once. A WbReq whose line a snoop has taken meets no recorded owner (R234). A clean line for which no way is eligible is not allocated, counted as LLC_NOALLOC (07 R193). -/
def Coh.serveEvict (c : Coh) (env : CohEnv) (h : HomeLoc) (rq : HomeReq) : Coh :=
  let rec_ := match c.de rq.line with | some e => e.records rq.req | none => false
  if rq.kind = .wbReq then
    if (c.de rq.line).bind (·.owner) = some rq.req then
      (c.send (mkMsg .wbPull h.slice rq.req rq.line rq.req)).setTxn rq.line (some { mkTxn rq [] false with waitData := some rq.req })
    else c.send (mkMsg .wbCancel h.slice rq.req rq.line rq.req)
  else
    let free (c : Coh) : Coh := match c.pl rq.req rq.line with | some p => if p.victim then c.setPl rq.req rq.line none else c | none => c
    if !rec_ then free c
    else
      let c1 := c.setDe rq.line ((c.de rq.line).bind (fun e => e.remove rq.req))
      let room := (c1.blk rq.line).isSome || (c1.chooseWay env h.slice h.llcSet rq.cls).isSome
      if (c1.sectorOf rq.line).isSome then free c1
      else if room then
        (c1.send { mkMsg .wbPull h.slice rq.req rq.line rq.req with sec := rq.sec }).setTxn rq.line (some { mkTxn rq [] false with waitData := some rq.req })
      else (free c1).count 0x022 h.slice rq.req (64 * rq.line)

/-- The requester whose granted fill of the line is not yet acknowledged (07 R189). -/
def Coh.unacked (c : Coh) (line : Nat) : Option Nat :=
  match c.txn line with
  | some t => if t.waitAck && t.waitResp.isEmpty && t.waitData.isNone && t.rq.kind != .dirEvict then some t.rq.req else none
  | none => none

/-- Dirty data of a line that are on their way to a stop in a grant of M (07 R189). -/
def Coh.inFlight (c : Coh) (stop line : Nat) : Option (Line × Bool) :=
  match c.msgs.find? (fun m => (m.kind == .data || m.kind == .fwdData) && m.dst == stop && m.line == line && m.grant == some .m) with
  | some m => some (m.data, m.poison)
  | none =>
    match (c.miss stop line).bind (·.held) with
    | some p => if p.st = .m then some (p.data, p.poison) else none
    | none => none

/-- Maintenance of a line at its home (07 R181, R185, R189): op C, I or CI. A fill granted and not yet acknowledged becomes stale. -/
def Coh.serveCmo (c : Coh) (env : CohEnv) (h : HomeLoc) (rq : HomeReq) : Coh :=
  let act (c0 : Coh) : Coh :=
    let c := match c0.de rq.line with | some e => c0.noteSnoops h.slice rq.line (rq.kind != ReqKind.cmoI) e.holders | none => c0
    match rq.kind with
    | .cmoC => c.cleanLine env rq.line rq.cls
    | .cmoI => c.invalLine env rq.line
    | _ => (c.cleanLine env rq.line rq.cls).invalLine env rq.line
  let c1 :=
    match c.unacked rq.line with
    | none => act c
    | some a =>
      let c0 := c.count 0x024 h.slice rq.req (64 * rq.line)
      let c1 := match c0.miss a rq.line with
        | some x => c0.setMiss a rq.line (some { x with stale := true })
        | none => c0
      let c2 := if rq.kind == ReqKind.cmoI then c1 else match c0.inFlight a rq.line with
        | some (d, p) => c1.putClean env rq.line d p rq.cls
        | none => c1
      let c3 := act c2
      (match c3.pl a rq.line with | some p => if p.victim then c3 else c3.setPl a rq.line none | none => c3).setDe rq.line ((c3.de rq.line).bind (fun e => e.remove a))
  (c1.count evCmo h.slice 0 (64 * rq.line)).send { mkMsg .cmoDone h.slice rq.req rq.line rq.req with thread := rq.thread }

/-- Is the request maintenance? -/
def ReqKind.cmo : ReqKind → Bool
  | .cmoC => true | .cmoI => true | .cmoCI => true | _ => false

/-- Read an element of a gather at its home: an owner is asked for its copy (SnpCur), an unowned line is filled into the LLC (R222). -/
def Coh.gatherOne (c : Coh) (env : CohEnv) (g : Gather) (x : GElem) : Coh × Gather :=
  let line := x.pa / 64
  let c1 := match (c.de line).bind (·.owner) with
    | some b => c.hops [(g.slice, b, 1), (b, g.slice, 2), (b, g.slice, 1)]
    | none => c.homeFill env line ((c.tagOf line).getD (env.secLine line)) g.cls g.stop
  let (d, p) := c1.current env line
  (c1, { g with got := g.got ++ [(x.lane, fromLine d (x.pa % 64) g.esz)], bad := if p then g.bad ++ [(x.lane, x.va)] else g.bad })

/-- Serve the elements of a gather that lie in some lines. -/
def Coh.gatherLines (c : Coh) (env : CohEnv) (g : Gather) (ok : Nat → Bool) : Coh × Gather :=
  (g.left.filter (fun x => ok (x.pa / 64))).foldl (fun (y : Coh × Gather) x => y.1.gatherOne env y.2 x) (c, { g with left := g.left.filter (fun x => !ok (x.pa / 64)) })

/-- The packed response leaves when every element is served (06 R159 step 5); until then the gather is kept. -/
def Coh.gatherEnd (c : Coh) (g : Gather) : Coh :=
  if g.left.isEmpty then
    c.send { mkMsg .gatherData g.slice g.stop g.line g.rqr with thread := g.thread, poison := !g.bad.isEmpty, elems := g.got, bad := g.bad }
  else { c with gathers := c.gathers ++ [g] }

/-- The elements of one line of a gather that waited in the home's input queue (R216, R237). -/
def Coh.gatherServe (c : Coh) (env : CohEnv) (rq : HomeReq) : Coh :=
  match c.gathers.find? (fun g => g.stop == rq.req && g.thread == rq.thread && g.left.any (fun x => x.pa / 64 == rq.line)) with
  | some g =>
    let y := ({ c with gathers := c.gathers.erase g }).gatherLines env g (· == rq.line)
    y.1.gatherEnd y.2
  | none => c

/-- Serve a request whose line has no open transaction (R222). -/
def Coh.homeServe (c : Coh) (env : CohEnv) (rq : HomeReq) : Coh :=
  match env.home rq.line with
  | none => c
  | some h =>
    match rq.kind with
    | .rdShared | .rdCode | .rdOwn | .upgrade => c.serveOrRetry env h rq
    | .rdCur | .wrLine | .wrPart | .atomFar => c.serveAgent env h rq
    | .gatherReq => c.gatherServe env rq
    | .wbReq | .evictClean => c.serveEvict env h rq
    | .cmoC | .cmoI | .cmoCI => c.serveCmo env h rq
    | .dirEvict => c

/-- Must a request wait at the home: an open transaction, an older request to the line in the input or retry queue, or, for maintenance, a copy whose cache parks its snoop (R216, R217, R224, 07 R185, R189)? -/
def Coh.mustWait (c : Coh) (rq : HomeReq) : Bool :=
  if rq.kind.cmo then
    ((c.txn rq.line).isSome && (c.unacked rq.line).isNone) ||
      (match c.de rq.line with | some e => c.held rq.line 999 e.holders | none => false)
  else c.queued rq.line

/-- Maintenance that waits for copies whose caches park its snoop counts HOLD_DEFER at each of them (R224). -/
def Coh.countDefer (c : Coh) (rq : HomeReq) : Coh :=
  if rq.kind.cmo && (c.txn rq.line).isNone then
    match c.de rq.line with
    | some e => (e.holders.filter (fun x => match c.pl x rq.line with | some p => p.keeps | none => false)).foldl (fun c x => c.count 0x01C x x (64 * rq.line)) c
    | none => c
  else c

/-- A request arrives at its home (R216, R217). -/
def Coh.homeArrive (c : Coh) (env : CohEnv) (rq : HomeReq) : Coh :=
  if c.mustWait rq then let c1 := c.countDefer rq; { c1 with waiting := c1.waiting ++ [rq] } else c.homeServe env rq

/-- A gather arrives at its home (06 R159, R216): the elements whose lines have nothing to wait for are served, and the others take their places in the input queue, a line at a time. -/
def Coh.gatherGo (c : Coh) (env : CohEnv) (g : Gather) : Coh :=
  let y := c.gatherLines env g (fun l => !c.queued l)
  let c1 := y.1.gatherEnd y.2
  { c1 with waiting := c1.waiting ++ ((y.2.left.map (fun x => x.pa / 64)).dedup).map (fun l => ⟨.gatherReq, g.stop, l, false, g.cls, 0, 0, ⟨0, 0, 0, 0, 0⟩, g.thread, [], false, 0⟩) }

/-- Take requests of the input queue in order of arrival: each that has not to wait behind an older one to its line is served (R216, R217); `kept` are the ones that wait on. -/
def Coh.pumpGo (env : CohEnv) : List HomeReq → Coh → Coh
  | [], c => c
  | rq :: r, c =>
    if c.mustWait rq then Coh.pumpGo env r { c with waiting := c.waiting ++ [rq] }
    else Coh.pumpGo env r (c.homeServe env rq)

/-- Serve what waits in the input queues of the homes and can go on. -/
def Coh.pump (c : Coh) (env : CohEnv) : Coh := Coh.pumpGo env c.waiting { c with waiting := [] }

/-- The oldest request in the retry queue for the directory set of a line is served (R228); one that still finds every way busy keeps its place. -/
def Coh.serveRetry (c : Coh) (env : CohEnv) (line : Nat) : Coh :=
  let sameSet (x : HomeReq) : Bool := match env.home x.line, env.home line with
    | some a, some b => a.slice == b.slice && a.dirSet == b.dirSet
    | _, _ => false
  match c.retry.find? sameSet with
  | some rq =>
    match env.home rq.line with
    | some h => if (c.txn rq.line).isSome then c else (({ c with retry := c.retry.erase rq }).serveRead env h rq).getD c
    | none => c
  | none => c

/-- Close a line's transaction (R217): the request for which its entry was evicted takes the way, else the oldest request in the retry queue for the directory set is served (R228), then the waiting requests. -/
def Coh.closeTxn (c : Coh) (env : CohEnv) (line : Nat) : Coh :=
  let t := c.txn line
  let c1 := c.setTxn line none
  let c2 := match t.bind (·.next) with
    | some rq => (c1.setTxn rq.line none).homeServe env rq
    | none => c1.serveRetry env line
  c2.pump env

/-- A transaction that has heard from every awaited stop goes on: the owed Cmp is sent, or the request is performed and the transaction closes. -/
def Coh.advance (c : Coh) (env : CohEnv) (line : Nat) : Coh :=
  match c.txn line, env.home line with
  | some t, some h =>
    if !t.waitResp.isEmpty || t.waitData.isSome then c
    else if t.rq.kind.own || t.rq.kind = .rdShared || t.rq.kind = .rdCode then
      match t.cmp with
      | some (g, a) => (c.send { mkMsg .cmp h.slice t.rq.req line t.rq.req with grant := some g, acks := a }).setTxn line (some { t with cmp := none })
      | none => if t.waitAck then c else c.closeTxn env line
    else (c.finishHome env h.slice t).closeTxn env line
  | _, _ => c

/-! ### Private caches (R218, R224) -/

/-- Is a snoop parked while the line is inside its hold window? -/
def parks : MsgKind → Bool
  | .snpShared => true | .snpOwn => true | .snpInv => true | .snpRecall => true | _ => false

/-- A snoop response: final state, whether data were sent. -/
def Coh.snpResp (c : Coh) (m : Msg) (g : Option Moes) (sent : Bool) : Coh :=
  c.send { mkMsg .snpResp m.dst m.src m.line m.rqr with grant := g, dirty := sent }

/-- A private cache answers a snoop (R218). A clean line in the victim buffer is no copy; a dirty one is answered as if still in M or O. -/
def Coh.answer (c : Coh) (m : Msg) : Coh :=
  let q := match c.pl m.dst m.line with
    | some p => if p.victim && !p.st.dirty then none else some p
    | none => none
  match q with
  | none => c.snpResp m none false
  | some p =>
    let lost := c.lose m.line m.dst
    match m.kind with
    | .snpShared =>
      let st := match p.st with | .m => Moes.o | .o => .o | .e => .s | .s => .s
      ((c.setPl m.dst m.line (some { p with st := st })).send { mkMsg .fwdData m.dst m.rqr m.line m.rqr with grant := some .s, data := p.data, poison := p.poison, sec := p.sec }).snpResp m (some st) true
    | .snpOwn =>
      (lost.send { mkMsg .fwdData m.dst m.rqr m.line m.rqr with
          grant := some (if p.st.dirty then .m else .e), acks := m.acks, data := p.data, poison := p.poison, sec := p.sec }).snpResp m none true
    | .snpCur =>
      (c.send { mkMsg .snpData m.dst m.src m.line m.rqr with data := p.data, dirty := p.st.dirty, poison := p.poison }).snpResp m (some p.st) true
    | .snpRecall =>
      if p.st.dirty then
        (lost.send { mkMsg .snpData m.dst m.src m.line m.rqr with data := p.data, dirty := true, poison := p.poison }).snpResp m none true
      else lost.snpResp m none false
    | _ => lost.snpResp m none false

/-- A snoop reaches a private cache: parked during the hold window, and until the access that caused the request has been performed, except SnpCur (R224, R225). HOLD_DEFER counts a parked snoop. -/
def Coh.snoop (c : Coh) (m : Msg) : Coh :=
  let hold := match c.pl m.dst m.line with | some p => p.keeps | none => false
  if hold && parks m.kind then { c.count 0x01C m.dst m.dst (64 * m.line) with parked := c.parked ++ [m] } else c.answer m

/-- A cache answers the snoops it parked for a line, in order, and the homes go on with maintenance that waited (R224, 07 R185). -/
def Coh.unpark (c : Coh) (env : CohEnv) (stop line : Nat) : Coh :=
  let mine := c.parked.filter (fun m => m.dst == stop && m.line == line)
  (mine.foldl Coh.answer { c with parked := c.parked.filter (fun m => !(m.dst == stop && m.line == line)) }).pump env

/-- A hold window ends (R224, R225): not before the access that caused the request has been performed, unless that access is no longer made (`force`). -/
def Coh.endHold (c : Coh) (env : CohEnv) (stop line : Nat) (force : Bool) : Coh :=
  match c.pl stop line with
  | none => c.unpark env stop line
  | some p => if p.fresh.isSome && !force then c else (c.setPl stop line (some { p with hold := false, fresh := none })).unpark env stop line

/-- The access that caused a line's request has been performed: without a hold window, the parked snoops are answered (R225). -/
def Coh.perform (c : Coh) (env : CohEnv) (stop line : Nat) : Coh :=
  match c.pl stop line with
  | some p =>
    if p.fresh.isNone then c
    else
      let c1 := c.setPl stop line (some { p with fresh := none })
      if p.hold then c1 else c1.unpark env stop line
  | none => c

/-- The access of a thread for which a line was requested is performed. -/
def Coh.performBy (c : Coh) (env : CohEnv) (stop line t : Nat) : Coh :=
  if (c.pl stop line).any (fun p => p.fresh.any (fun f => f.1 == t)) then c.perform env stop line else c

/-- The bytes of a stale fill kept for a load (07 R189 step 4). -/
def Coh.givenTo (c : Coh) (stop line t : Nat) (pc : Word) : Option Given := c.given.find? (fun g => g.stop == stop && g.line == line && g.thread == t && g.pc == pc)
/-- A load has taken them. -/
def Coh.dropGiven (c : Coh) (g : Given) : Coh := { c with given := c.given.erase g }

/-- WbPull: the evicting core sends the data from its victim buffer. -/
def Coh.wbPull (c : Coh) (m : Msg) : Coh :=
  match c.pl m.dst m.line with
  | some p => (c.setPl m.dst m.line none).send { mkMsg .wbData m.dst m.src m.line m.rqr with data := p.data, dirty := p.st.dirty, poison := p.poison, sec := p.sec }
  | none => c

/-! ### Requesters -/

/-- A granted line is installed and acknowledged; in native mode its hold window starts (R224), and the access that asked has still to be performed (R225). -/
def Coh.install (c : Coh) (env : CohEnv) (stop : Nat) (x : Miss) (p : PLine) (line home : Nat) : Coh :=
  let old := c.pl stop line
  let p1 := { p with hold := env.native, fresh := if x.pf then none else some (x.thread, x.pc), l1d := old.bind (·.l1d), l1i := old.bind (·.l1i), l2 := old.bind (·.l2) }
  let c1 := (c.setPl stop line (some p1)).setMiss stop line none
  let c2 := if x.pf then c1.fillL2 env stop line x.cls else if x.kind = .rdCode then c1.fillL1i env stop line x.cls else c1.fillL1d env stop line x.cls
  c2.send (mkMsg .compAck stop home line stop)

/-- Line data reach a requester (R222, 07 R189 step 4): installed, or kept until Cmp arrives where ACKS is set; data of a stale fill are installed nowhere: the loads that wait take its bytes, and waiting stores ask again. An I/O agent keeps no copy. -/
def Coh.gotData (c : Coh) (env : CohEnv) (m : Msg) (bytes : Bool := true) : Coh :=
  match c.miss m.dst m.line with
  | none => c
  | some x =>
    let home := (env.home m.line).elim m.src (·.slice)
    if x.stale then
      let c0 := (c.setMiss m.dst m.line none).send (mkMsg .compAck m.dst home m.line m.dst)
      let loads := (if x.kind.own || x.pf then [] else [(x.thread, x.pc)]) ++ x.joined
      let c1 := if bytes then { c0 with given := c0.given.filter (fun g => !loads.any (fun l => l.1 == g.thread)) ++ loads.map (fun l => ⟨m.dst, m.line, l.1, l.2, m.data, m.poison⟩) } else c0
      if x.kind.own then
        (c1.setMiss m.dst m.line (some { x with kind := .rdOwn, stale := false, held := none, needCmp := false, gotCmp := false })).homeArrive env
          ⟨.rdOwn, m.dst, m.line, m.sec, x.cls, 0, 0, ⟨0, 0, 0, 0, 0⟩, x.thread, [], false, x.pc⟩
      else c1
    else
      let p : PLine := ⟨m.grant.getD .s, m.data, m.poison, m.sec, none, none, none, false, none, false, x.cls, none, m.kind == .fwdData⟩
      if m.acks && !x.gotCmp then c.setMiss m.dst m.line (some { x with held := some p, needCmp := true })
      else c.install env m.dst x p m.line home

/-- Cmp reaches a requester: data that waited for it are installed; an Upgrade's copy takes the granted state (R222). A copy lost meanwhile is asked for again. -/
def Coh.gotCmp (c : Coh) (env : CohEnv) (m : Msg) : Coh :=
  match c.miss m.dst m.line with
  | none => c
  | some x =>
    let home := (env.home m.line).elim m.src (·.slice)
    match x.held with
    | some p => if x.stale then c.gotData env { mkMsg .data m.src m.dst m.line m.dst with sec := p.sec, data := p.data, poison := p.poison } else c.install env m.dst x p m.line home
    | none =>
      if m.acks then c.setMiss m.dst m.line (some { x with gotCmp := true })
      else
        match c.pl m.dst m.line with
        | some p => if x.stale || p.victim then (c.setMiss m.dst m.line (some { x with stale := true })).gotData env { mkMsg .data m.src m.dst m.line m.dst with sec := p.sec } false else
            c.install env m.dst x { p with st := m.grant.getD .e, cls := x.cls, fwd := false } m.line home
        | none => (c.setMiss m.dst m.line (some { x with stale := true })).gotData env (mkMsg .data m.src m.dst m.line m.dst) false

/-! ### Homes receive responses -/

/-- A snoop response at the home. An owner that had no copy leaves the home to supply the line itself, even when its entry has been freed meanwhile (07 R178); a mark the home supplies with the data stays in the entry (R219). -/
def Coh.gotSnpResp (c : Coh) (env : CohEnv) (m : Msg) : Coh :=
  match c.txn m.line, env.home m.line with
  | some t, some h =>
    if !t.waitResp.contains m.src then c
    else
      let t1 := { t with waitResp := t.waitResp.erase m.src }
      let recalls := !(t.rq.kind.own || t.rq.kind = .rdShared || t.rq.kind = .rdCode)
      let t2 := if recalls && m.dirty && t.got.isNone then { t1 with waitData := some m.src } else t1
      let c1 := c.setTxn m.line (some t2)
      if t.rq.kind = .rdShared || t.rq.kind = .rdCode then
        match c.de m.line with
        | none => if m.dirty then c1.advance env m.line else (c1.setTxn m.line none).serveOrRetry env h t.rq
        | some e =>
          if m.dirty then
            let e1 := if m.grant = some .o then { e with st := .o } else ({ e with st := .s, owner := none }.addSharer m.src).1
            let (e2, co) := e1.addSharer t.rq.req
            let c2 := c1.setDe m.line (some e2)
            (if co then c2.count 0x027 h.slice t.rq.req (64 * m.line) else c2).advance env m.line
          else ((c1.setDe m.line (e.remove m.src)).setTxn m.line none).serveOrRetry env h t.rq
      else if t.rq.kind.own && t.fwd = some m.src && !m.dirty then
        let c2 := c1.grantOwn env h.slice t.rq t.cmp.isSome
        let p := (c2.homeData env m.line).2.2
        (match c2.de m.line with | some e => c2.setDe m.line (some { e with poison := e.poison || p }) | none => c2).advance env m.line
      else c1.advance env m.line
  | _, _ => c

/-- Data returned on a snoop reach the home. -/
def Coh.gotSnpData (c : Coh) (env : CohEnv) (m : Msg) : Coh :=
  match c.txn m.line with
  | some t => (c.setTxn m.line (some { t with got := some (m.data, m.dirty, m.poison), waitData := none })).advance env m.line
  | none => c

/-- CompAck closes a transaction that granted a copy (R217). -/
def Coh.gotAck (c : Coh) (env : CohEnv) (m : Msg) : Coh :=
  match c.txn m.line with
  | some t => if t.waitAck && t.rq.req = m.src && t.rq.kind != .dirEvict then (c.setTxn m.line (some { t with waitAck := false })).advance env m.line else c
  | none => c

/-- Written-back data reach the home (R222): into the LLC sector, or memory when no way is eligible; clean data only into the LLC. -/
def Coh.gotWbData (c : Coh) (env : CohEnv) (m : Msg) : Coh :=
  match c.txn m.line with
  | some t =>
    if t.waitData != some m.src then c
    else if t.rq.kind = .wbReq then
      ((c.setDe m.line ((c.de m.line).bind (fun e => e.remove m.src))).homePutDirty env m.line m.data (m.poison || (c.de m.line).elim false (·.poison)) m.sec t.rq.cls).closeTxn env m.line
    else
      (match c.llcPut env m.line m.data false (m.poison || c.markOf m.line) m.sec t.rq.cls with
       | some c1 => c1
       | none => c).closeTxn env m.line
  | none => c

/-- Delivery of a message whose receipt concerns the memory system alone; an AtomResp, CmoDone or GatherData is for its thread. -/
def Coh.deliver (c : Coh) (env : CohEnv) (m : Msg) : Coh :=
  let c0 := { c with msgs := c.msgs.erase m }
  match m.kind with
  | .snpShared | .snpOwn | .snpInv | .snpCur | .snpRecall => c0.snoop m
  | .wbPull => c0.wbPull m
  | .snpResp => c0.gotSnpResp env m
  | .cmp => c0.gotCmp env m
  | .compAck => c0.gotAck env m
  | .wbCancel =>
    let c1 := { c0 with gone := c0.gone.erase (privKey m.dst m.line) }
    if (c1.pl m.dst m.line).any (·.victim) then c1.setPl m.dst m.line none else c1
  | .data | .fwdData => c0.gotData env m
  | .snpData => c0.gotSnpData env m
  | .wbData => c0.gotWbData env m
  | .atomResp | .cmoDone | .gatherData => c0

/-- Is the message one that `deliver` handles wholly? -/
def MsgKind.ofCaches : MsgKind → Bool
  | .atomResp => false | .cmoDone => false | .gatherData => false | _ => true

/-- Drive a line's open transaction to its close by delivering its messages, and ending hold windows where snoops are parked: what an access that waits for the close finds (R217, R237). Without `force` a window whose access is still to be performed stays open (R224). -/
def Coh.settleGo (env : CohEnv) (line : Nat) (force : Bool) : Nat → Coh → Coh
  | 0, c => c
  | n + 1, c =>
    let can (m : Msg) : Bool := force || (match c.pl m.dst m.line with | some p => p.fresh.isNone | none => true)
    if (c.txn line).isNone then c
    else
      match c.msgs.find? (fun m => m.line == line && m.kind.ofCaches) with
      | some m => Coh.settleGo env line force n (c.deliver env m)
      | none =>
        match c.parked.find? (fun m => m.line == line && can m) with
        | some m => Coh.settleGo env line force n (c.endHold env m.dst line force)
        | none =>
          match (c.txn line).map (·.rq.kind), c.msgs.find? (fun m => m.kind.ofCaches), c.parked.find? can with
          | some ReqKind.dirEvict, some m, _ => Coh.settleGo env line force n (c.deliver env m)
          | some ReqKind.dirEvict, none, some m => Coh.settleGo env line force n (c.endHold env m.dst m.line force)
          | _, _, _ => c

/-- The memory system once a line's open transaction has closed. -/
def Coh.settle (c : Coh) (env : CohEnv) (line : Nat) (force : Bool := false) : Coh := if (c.txn line).isNone then c else Coh.settleGo env line force 4096 c

/-- The current value of a line, after its open transaction and the older requests of its queue (R216, R237: a RdCur waits for the close). -/
def Coh.currentNow (c : Coh) (env : CohEnv) (line : Nat) : Line × Bool := (c.settle env line).current env line

/-- Has a write of an agent to wait: for an open transaction, an older request, or a cache that parks snoops of its copy (R216, R217, R224)? -/
def Coh.unready (c : Coh) (line : Nat) : Bool := c.queued line || c.blocked line

/-- A write of an agent (R222) with the poison mark of its data (R206): performed once the line's open transaction has closed; while an older request waits or a copy is inside its hold window, it goes to the home as a WrLine or WrPart, which waits there (R216, R224, R237). -/
def Coh.writeNow (c : Coh) (env : CohEnv) (line : Nat) (d : Line) (mask : BitVec 64) (cls : Nat) (poison : Bool := false) : Coh :=
  let c1 := c.settle env line
  if c1.unready line then
    c1.homeArrive env ⟨if mask == fullMask then .wrLine else .wrPart, 224, line, env.secLine line, cls, d, mask, ⟨0, 0, 0, 0, 0⟩, 0, [], poison, 0⟩
  else c1.homeWrite env line d mask cls poison

/-- Lines of a stop's private caches and misses. -/
def Coh.linesUsed (c : Coh) (stop : Nat) : List Nat :=
  c.linesAt stop ++ c.misses.filterMap (fun x => if x.1 / 2 ^ 46 = stop && x.2.isSome then some (x.1 % 2 ^ 46) else none)

/-- Clean and invalidate every private cache of a stop (16 R496, 11 R343, 18 R558), its open transactions settled first. -/
def Coh.emptyStop (c : Coh) (env : CohEnv) (stop : Nat) : Coh :=
  let c1 := (c.linesUsed stop).foldl (fun c l => c.settle env l true) c
  { c1.flushStop env stop with parked := c1.parked.filter (fun m => m.dst != stop), gone := c1.gone.filter (fun k => k / 2 ^ 46 != stop), given := c1.given.filter (fun g => g.stop != stop) }

end Sys2Proof.Machine
end

