-- ==== Sys2Proof/Machine/EvTypes.lean ====
section
/-! DEFINITION. Plain data of the Event Queues, the Logbook and security-violation windows (spec/17_lengthsman_galley.md R536–R541, spec/18_ras.md, spec/15_security.md R480). -/
namespace Sys2Proof.Machine

/-- An event record before a queue gives it a SEQ (17 R537). -/
structure EvRec where
  typ : Nat
  sev : Nat
  source : Nat
  vmid : Nat
  mt : Nat
  w2 : Word
  w3 : Word
  deriving DecidableEq, Repr

/-- One Event Queue's own state beyond its registers (17 R538–R540): next SEQ, whether its interrupt has been raised and no CONS write followed, whether it is dropping records after an overflow, and the records the Lengthsman holds before the Host queue's first enable (20 R598). -/
structure EvqSt where
  seq : Nat
  quiet : Bool
  dropping : Bool
  held : List EvRec
  everEnabled : Bool
  deriving DecidableEq, Repr

/-- A queue at reset. -/
def EvqSt.reset : EvqSt := ⟨0, false, false, [], false⟩

/-- A Logbook journal record (18 R571): the event with the SEQ its queue gave it, KIND (1 event, 2 sparing, 3 WDOG_EXPIRY, 4 fatal reset), DETAIL, and the boot counts at its writing. -/
structure JournalRec where
  ev : EvRec
  seq : Nat
  kind : Nat
  detail : Nat
  cold : Nat
  warm : Nat
  deriving DecidableEq, Repr

/-- The Logbook (18 R570–R573): the journal, oldest record first, COLD_BOOTS, WARM_RESETS, journal records and state-area copies written (for WEAR), and the switch counts last copied (16 R503). -/
structure LogSt where
  journal : List JournalRec
  cold : Nat
  warm : Nat
  writes : Nat
  area : Nat
  wearTold : Bool
  switches : SMap Nat
  deriving DecidableEq, Repr

/-- An internal interrupt raised towards the Interrupt Router and not yet translated (11 R317): source number, event ID, MT of arrival. -/
structure IrqIn where
  src : Nat
  ev : Nat
  mt : Nat
  deriving DecidableEq, Repr

/-- Events and interrupts: the three queues' own state, the Wharf service area (14 R437) by BAR0 offset, the Logbook, security-violation windows by requester as 1 + MT of the recorded violation (15 R480), internal interrupts waiting for the router, MSI-X messages sent to the external host as (function, vector), IO_FAULT and IRT_FAULT windows, and the MT at which a fatal condition's warm chip reset begins (18 R549). -/
structure EvSt where
  q0 : EvqSt
  q1 : EvqSt
  q2 : EvqSt
  svc : List Host.Cell
  log : LogSt
  viol : SMap Nat
  irqs : List IrqIn
  msix : List (Nat × Nat)
  ioWin : SMap Nat
  irtWin : SMap Nat
  fatalAt : Option Nat
  deriving DecidableEq, Repr

/-- Event state at the first DONE: one cold boot recorded. -/
def EvSt.reset : EvSt :=
  { q0 := EvqSt.reset, q1 := EvqSt.reset, q2 := EvqSt.reset, svc := [], log := ⟨[], 1, 0, 0, 0, false, []⟩, viol := [], irqs := [], msix := [],
    ioWin := [], irtWin := [], fatalAt := none }

end Sys2Proof.Machine
end

