-- ==== Sys2Proof/Machine/BootTypes.lean ====
section
/-! DEFINITION. Plain data of reset and boot beyond the registers (spec/20_power_up_boot.md R590–R602; spec/21_package_electrical.md R605–R607, R618). -/
namespace Sys2Proof.Machine

/-- A component of a boot flash slot (20 R592): TYPE, VERSION, ROLLBACK_MIN, the key sets under which both of its signatures verify (1 Wilec's, 2h an owner's whose OWNER_KEYS are h; R593), words 1 and 2 of a boot configuration (R594), and the bytes of a host image. -/
structure FlashComp where
  typ : Nat
  version : Nat
  rbMin : Nat
  keys : List Nat
  word1 : Nat
  word2 : Nat
  body : List Host.Cell
  deriving DecidableEq, Repr

/-- A slot of the boot flash (20 R591, R592): GEN and its components; an erased slot has none. -/
structure FlashSlot where
  gen : Nat
  comps : List FlashComp
  deriving DecidableEq, Repr

/-- Reset and boot: the two slots; the slot of this boot, the slots tried in it, and the slot to try first that a commanded cold reset keeps (R593); the slots that supplied the Tollhouse firmware at the last cold reset and the Lengthsman firmware in force, with their VERSION and ROLLBACK_MIN; words 1 and 2 of the boot configuration in force; MT at which reset was released; whether the boot under way is warm; RESET_N low; RAIL_EN high, enable groups in tolerance, tick of the last enable (21 R606), tick until which RAIL_EN stays low (R607); memory clearing under way (R596); THERMTRIP_N low (21 R618); MT at which a commanded cold reset begins; 1 + the millisecond of the last thermal update (21 R617); the record of a thermal trip that waits for the end of a Lengthsman restart (21 R621). -/
structure BootSt where
  slotA : FlashSlot
  slotB : FlashSlot
  cur : Nat
  tried : List Nat
  first : Option Nat
  tolSlot : Nat
  lenSlot : Nat
  tolVer : Nat
  lenVer : Nat
  tolMin : Nat
  lenMin : Nat
  cfg1 : Nat
  cfg2 : Nat
  startMt : Nat
  warm : Bool
  held : Bool
  railEn : Bool
  railGrp : Nat
  railTick : Nat
  holdUntil : Nat
  clearing : Bool
  therm : Bool
  coldAt : Option Nat
  thermMs : Nat
  tripRec : Option EvRec
  deriving DecidableEq, Repr

/-- The boot that reached the first DONE: slot A of 20 R602's example, slot B erased, version 1 of each firmware. -/
def BootSt.reset : BootSt :=
  { slotA := ⟨1, [⟨1, 1, 0, [1], 0, 0, []⟩, ⟨2, 1, 0, [1], 0, 0, []⟩, ⟨3, 1, 0, [0], 0x0024038400400010, 0, []⟩, ⟨4, 1, 0, [0], 0, 0, []⟩]⟩
    slotB := ⟨0, []⟩
    cur := 0, tried := [0], first := none, tolSlot := 0, lenSlot := 0, tolVer := 1, lenVer := 1, tolMin := 0, lenMin := 0,
    cfg1 := 0x0024038400400010, cfg2 := 0, startMt := 0, warm := false, held := false, railEn := true, railGrp := 5, railTick := 0,
    holdUntil := 0, clearing := false, therm := false, coldAt := none, thermMs := 0, tripRec := none }

end Sys2Proof.Machine
end

