-- ==== Sys2Proof/Machine/BrgTypes.lean ====
section
/-! DEFINITION. Plain data of the Barge engines beyond their registers (spec/13_barge_engines.md). -/
namespace Sys2Proof.Machine

/-- A manifest taken and not yet ended (R394): its ring index, the base and LIMIT of the ring it was taken from (R405), words 0–6, whether it has started, whether every write response has arrived, bytes whose responses arrived, its code so far (R393, R400) with the failing IOVA, whether it has been reported late (R402). -/
structure Man where
  index : Nat
  base : Nat
  limit : Nat
  w : List Word
  started : Bool
  moved : Bool
  bytes : Nat
  code : Nat
  badAt : Nat
  late : Bool
  deriving DecidableEq, Repr

/-- A stop in progress (R407, R408): whether it is an abort, the MT of its start, whether its timeout has been reported. -/
structure BrgStop where
  abort : Bool
  start : Nat
  told : Bool
  deriving DecidableEq, Repr

/-- A channel beyond its registers: manifests in flight, oldest first, a stop in progress, and status writes of manifests with IRQ not yet accepted (R396). -/
structure BrgCh where
  mans : List Man
  stop : Option BrgStop
  acks : Nat
  deriving DecidableEq, Repr

/-- A channel at reset. -/
def BrgCh.reset : BrgCh := ⟨[], none, 0⟩

/-- The engines: channels by number, by engine the MT since which no condition of its DEP vote holds (R410), and the channel of the engine that was served last, plus 1 (R411). -/
structure BrgSt where
  ch : SMap BrgCh
  idle : SMap (Option Nat)
  turn : SMap Nat
  deriving DecidableEq, Repr

/-- Engines at reset. -/
def BrgSt.reset : BrgSt := ⟨[], [], []⟩

end Sys2Proof.Machine
end

