-- ==== Sys2Proof/Machine/CpuTypes.lean ====
section
/-! DEFINITION. Architectural and core state of the hardware threads and cores (spec/02_programmers_model.md R41, R47; spec/04_core_pipeline.md R103–R107, R114; spec/10_translation.md R293) as plain data. -/
namespace Sys2Proof.Machine

/-- What a retired store writes to one line: the line, data with byte enables, its SEC attribute, and whether it is in Normal uncached memory. -/
structure StorePart where
  line : Nat
  data : Line
  mask : BitVec 64
  sec : Bool
  unc : Bool
  deriving DecidableEq, Repr

/-- A retired store waiting in the store buffer (04 R114): the lines it writes, in order, and its QoS class. A split store holds one entry with a part for each half (04 R117); so does a vector store, with a part for each line its enabled elements touch (06 R156). -/
structure StoreEnt where
  parts : List StorePart
  cls : Nat
  deriving DecidableEq, Repr

/-- A trip counter (04 R103): register number, count, and whether the LOOP that waited for the count has still to use it; a counter in the list is valid, the most recently used first. -/
structure TripCtr where
  reg : Nat
  count : Word
  waited : Bool
  deriving DecidableEq, Repr

/-- The loop buffer of a thread (04 R107): address of the first body instruction and of the LOOP, the trip register, whether later iterations replay from it, and the captured encodings by position in the body (none where the spec does not give the contents fetched). -/
structure LoopBuf where
  first : Word
  last : Word
  ec : Nat
  replay : Bool
  body : SMap (Option (BitVec 32))
  deriving DecidableEq, Repr

/-- The staging entry of a thread (04 R106): the number of the 128-byte block in virtual addresses, its first physical line, and its poison mark. -/
structure Staged where
  block : Nat
  line : Nat
  poison : Bool
  deriving DecidableEq, Repr

/-- A TLB entry (10 R293): the virtual page and its size in bits, the tags, the physical and intermediate physical page, the permissions of both stages, the memory type, the NS attribute, and whether writes are already permitted by D. -/
structure TlbEntry where
  vpage : Nat
  szl : Nat
  sec : Bool
  regime : Nat
  vmid : Nat
  asid : Nat
  glob : Bool
  pa : Nat
  ipa : Nat
  rd : Bool
  wr : Bool
  xu : Bool
  xp : Bool
  u : Bool
  rd2 : Bool
  wr2 : Bool
  x2 : Bool
  attr : Nat
  ns : Bool
  dirty : Bool
  deriving DecidableEq, Repr

/-- A far gather of a thread whose responses are awaited (06 R159 steps 5 and 6): its PC, destination and element size as GatherReq names them, responses outstanding, and the elements received by lane, with the poisoned ones. -/
structure GathWait where
  pc : Word
  dst : Nat
  left : Nat
  got : List (Nat × Nat)
  bad : List (Nat × Word)
  deriving DecidableEq, Repr

/-- The state of one hardware thread (02 R41): E1–E31, PC, SV0–SV31, LV0–LV15, M1–M7, the thread-scope system state of R47 (TSTAT, FPCTL, FPFLAGS, VCFG and VPROG named; the rest in `sys` by number), values of sync-required state written and not yet synchronised (R50, oldest first), suspension by WAIT and the pending STEP of that WAIT (03 R87), debug halt state (15 R470), the store buffer (04 R114), trip counters, loop buffer and staging entry (04 R103–R107), the thread's interrupt flags in its core (11 R323, R325), BTBKEY once written, and the number of its last drawing (04 R105); the flags raised by instructions that may still be executing (02 R45); whether a vector memory instruction has stopped part-way at its PC (06 R166); whether the block fetch has used last was staged poisoned, with its number (04 R106); the fetch translations its own TLBIs removed since its last SYNCS (10 R296); LV contents from before a change of VL that is not yet synchronised (06 R144); the instruction decoded at an address and not yet retired, with the word fetched (10 R296); and a far gather whose responses are awaited (06 R159). -/
structure Thread where
  e : SMap Word
  pc : Word
  sv : SMap (BitVec 256)
  lv : SMap (BitVec 2048)
  lvOld : SMap (BitVec 2048)
  lvWin : Bool
  m : SMap (BitVec 256)
  tstat : Word
  fpctl : Word
  fpflags : Word
  vcfg : Word
  vprog : Word
  sys : SMap Word
  pend : SMap (List Word)
  waiting : Bool
  waitStep : Bool
  halted : Bool
  haltReq : Bool
  stepOne : Bool
  stores : List StoreEnt
  lcnt : List TripCtr
  loopBuf : Option LoopBuf
  staged : Option Staged
  pendFlag : Bool
  takeOut : Bool
  vint : Option Nat
  lost : Bool
  btbKey : Option Word
  keyGen : Nat
  fpRecent : Nat
  midVec : Bool
  fqPoison : Option Nat
  oldItlb : List TlbEntry
  held : Option (Word × Option (BitVec 32))
  gath : Option GathWait
  deriving DecidableEq, Repr

/-- Reset value of thread-scope system state kept in `Thread.sys` (02 R47: MCTL.SNX = 1, TIMECTL.MT_USER = 1; VECBASE_M at the boot ROM alias + 0x1000, 20 R598; everything else zero). -/
def sysReset (num : Nat) : Word :=
  if num = 0xC10 then 1#64
  else if num = 0x440 then 1#64
  else if num = 0xC00 then 0x000FFFFFFFF01000#64
  else 0#64

/-- A thread at release (02 R43, R45, R47, R143, R163; 20 R598). `vl` is VCFG at reset: 0x20, or zero on a variant without the long-vector unit (06 R146). -/
def Thread.reset (vl : Word) : Thread :=
  { e := [], pc := 0x000FFFFFFFF00000#64, sv := [], lv := [], lvOld := [], lvWin := false, m := [], tstat := 0x70#64, fpctl := 0, fpflags := 0,
    vcfg := vl, vprog := 0, sys := [], pend := [], waiting := false, waitStep := false, halted := false,
    haltReq := false, stepOne := false, stores := [], lcnt := [], loopBuf := none, staged := none,
    pendFlag := false, takeOut := false, vint := none, lost := false, btbKey := none, keyGen := 0, fpRecent := 0, midVec := false, fqPoison := none, oldItlb := [], held := none, gath := none }

/-- A walk-cache entry (10 R293): stage, level, virtual or intermediate prefix, tags, and the non-leaf entry it holds. -/
structure WalkEntry where
  stage : Nat
  level : Nat
  pfx : Nat
  root : Nat
  sec : Bool
  regime : Nat
  vmid : Nat
  asid : Nat
  ent : Word
  deriving DecidableEq, Repr

/-- A branch-target buffer entry (04 R104): set, way, virtual address bits [56:11], context tag, target block and the key it was scrambled with. -/
structure BtbEntry where
  set : Nat
  way : Nat
  va : Nat
  sec : Bool
  group : Nat
  vmid : Nat
  asid : Nat
  target : Nat
  key : Word
  deriving DecidableEq, Repr

/-- A sample record waiting to be written (19 R587): the counter and thread slot it is for; whether the instruction that caused the wrap has still to retire, how many have retired after it, whether one of those was a long-vector instruction, and the address of the last retired; the physical address of the event. -/
structure SampleWait where
  ctr : Nat
  slot : Nat
  fresh : Bool
  skid : Nat
  lv : Bool
  pc : Word
  addr : Nat
  deriving DecidableEq, Repr

/-- A write to shared core state that only its writer sees before the writer's SYNCS (02 R52): the slot of the writer and the value before it. The writes of a register stand oldest first. -/
structure HidVal where
  slot : Nat
  old : Word
  deriving DecidableEq, Repr

/-- The state of one core, by stop: core-scope system state of 02 R47 (PMU_USER_EN, CLKSEL, PMU_CFG0–7, PMC0–7, and the per-thread PMC_CYC and PMC_RET by thread 0–3), translation caches (10 R293), branch-target buffer (04 R104), contention predictor by index: tag and counter (08 R231), the MT of the last retired long-vector instruction (06 R154), a frozen core with the step of its sparing (18 R558), the sample records waiting to be written (19 R587), and the writes of PMU_USER_EN and PMC0–7 that the other threads do not see yet, by number (02 R52). -/
structure CoreSt where
  pmuUserEn : Word
  clksel : Word
  pmuCfg : SMap Word
  pmc : SMap Word
  pmcCyc : SMap Word
  pmcRet : SMap Word
  itlb : List TlbEntry
  dtlb : List TlbEntry
  l2tlb : List TlbEntry
  walkc : List WalkEntry
  btb : List BtbEntry
  pred : SMap (Option (Nat × Nat))
  lvLast : Option Nat
  sample : List SampleWait
  hid : SMap (List HidVal)
  deriving DecidableEq, Repr

/-- A core at reset: CLKSEL 0x0030_5C00 (16 R510), everything else zero or empty. -/
def CoreSt.reset : CoreSt :=
  { pmuUserEn := 0, clksel := 0x305C00#64, pmuCfg := [], pmc := [], pmcCyc := [], pmcRet := [], itlb := [], dtlb := [],
    l2tlb := [], walkc := [], btb := [], pred := [], lvLast := none, sample := [], hid := [] }

/-- An exception to be taken (02 R53, R58, R59): code, XSYN fields, XADDR, XIPA_H, whether XPC is the next address, and the kind of vector. -/
structure Exc where
  code : Nat
  addrValid : Bool := false
  wnr : Bool := false
  s2 : Bool := false
  split : Bool := false
  size : Nat := 0
  reg : Nat := 0
  vec : Bool := false
  info : Nat := 0
  addr : Word := 0
  ipa : Nat := 0
  xpcNext : Bool := false
  deriving DecidableEq, Repr

end Sys2Proof.Machine
end

