-- ==== Sys2Proof/Machine/GalTypes.lean ====
section
/-! DEFINITION. Plain data of the Galley rings, the management port and the Lengthsman beyond their registers (spec/17_lengthsman_galley.md). -/
namespace Sys2Proof.Machine

/-- Where a command came from when it was not a ring: address, port and number of a datagram's sender (R518). -/
structure NetPeer where
  addr : Nat
  port : Nat
  deriving DecidableEq, Repr

/-- A command taken and not yet proved (R524, R525): ring (0 SECURE, 1 HOST, 2 SERVICE, 3 DIAG), opcode, FLAGS, LEN, TAG, TARGET, words 1–7, the tick and MT of its taking, the sender of a datagram, and whether it has begun (a command that completes later). -/
structure GalCmd where
  ring : Nat
  op : Nat
  flags : Nat
  len : Nat
  tag : Nat
  target : Nat
  w : List Word
  since : Nat
  mt : Nat
  net : Option NetPeer
  begun : Bool
  deriving DecidableEq, Repr

/-- A result: STATUS and words 2 and 3 of the proof (R528, R530). -/
structure GalRes where
  status : Nat
  w2 : Word
  w3 : Word
  deriving DecidableEq, Repr

/-- A proof kept for a repeated datagram (R518): sender, TAG, tick of the datagram, bytes. -/
structure NetProof where
  peer : NetPeer
  tag : Nat
  since : Nat
  bytes : List Byte
  deriving DecidableEq, Repr

/-- What the management port sends: a UDP datagram to an address and port, an ARP reply to an address, a gratuitous ARP, an ICMP echo reply. -/
inductive NetTx where
  | udp (addr port : Nat) (bytes : List Byte)
  | arp (addr : Nat)
  | announce (addr : Nat)
  | echo (addr : Nat) (bytes : List Byte)
  deriving DecidableEq, Repr

/-- Configuration of the management port (R519). -/
structure NetCfg where
  ipv4 : Nat
  pfx : Nat
  gateway : Nat
  galleyEn : Bool
  pushEn : Bool
  collector : Nat
  port : Nat
  deriving DecidableEq, Repr

/-- A firmware staging (R532, R534): the ring that began it, image, LENGTH, bytes by offset, and, once committed, TAG of its commit. -/
structure Staging where
  ring : Nat
  image : Nat
  length : Nat
  bytes : List (Nat × Byte)
  commit : Option Nat
  deriving DecidableEq, Repr

/-- The rings and the Lengthsman: commands taken, oldest first; proofs kept for datagrams; what the port has sent; its configuration; the open staging; images committed and not yet verified, oldest first; a restart in progress as (cause, tick) (R516); Towpath clock sources in service (R18) and breaks as (ring, node) (R521); the ring whose turn it is at the Lengthsman (R524). -/
structure GalSt where
  taken : List GalCmd
  kept : List NetProof
  sent : List NetTx
  net : Option NetCfg
  stage : Option Staging
  verify : List Staging
  restart : Option (Nat × Nat)
  clocks : List Nat
  breaks : List (Nat × Nat)
  turn : Nat
  deriving DecidableEq, Repr

/-- Rings at reset: nothing taken, the port not configured, every clock source and both rings whole. -/
def GalSt.reset : GalSt := ⟨[], [], [], none, none, [], none, [0, 1, 2], [], 0⟩

end Sys2Proof.Machine
end

