-- ==== Sys2Proof/Machine/IotTypes.lean ====
section
/-! DEFINITION. Plain data of the I/O translation unit beyond its registers (spec/10_translation.md R298–R304). -/
namespace Sys2Proof.Machine

/-- A cached stream context (R299, R302): its three words, SEC where honoured, and whether it is resident. -/
structure IotCtx where
  w0 : Word
  w1 : Word
  w2 : Word
  sec : Bool
  pin : Bool
  deriving DecidableEq, Repr

/-- A cached device translation (R299), tagged with its stream as well as with world, VMID (0 for a Secure one, R295) and ASID, with the read and write permission of each stage. -/
structure IoTlb where
  stream : Nat
  vpage : Nat
  szl : Nat
  sec : Bool
  vmid : Nat
  asid : Nat
  glob : Bool
  pa : Nat
  rd : Bool
  wr : Bool
  rd2 : Bool
  wr2 : Bool
  attr : Nat
  dirty : Bool
  deriving DecidableEq, Repr

/-- A device stream that has been given a translation by ATS (R303), with the tags of the translation. -/
structure AtsGiven where
  stream : Nat
  sec : Bool
  vmid : Nat
  asid : Nat
  glob : Bool
  deriving DecidableEq, Repr

/-- An outstanding outbound request, by port, link, tag and MT of issue (14 R430). -/
structure OutId where
  port : Nat
  link : Nat
  tag : Nat
  issued : Nat
  deriving DecidableEq, Repr

/-- A TLBI that waits (R296): its thread and the port requests translated before it whose completions are outstanding. -/
structure TlbiWait where
  thread : Nat
  reqs : List OutId
  deriving DecidableEq, Repr

/-- An ATS Invalidate sent and not completed (R303): stream, MT sent, and the thread whose TLBI waits, or none for IOT_INV. -/
structure AtsInv where
  stream : Nat
  start : Nat
  owner : Option Nat
  deriving DecidableEq, Repr

/-- The IOTU: 512 cached contexts by stream, 8,192 translations, streams given translations, Invalidates outstanding, streams whose translated requests fault until their context is invalidated, the TLBIs that wait, and the requests translated before the IOT_INV in progress that it waits for (R304). -/
structure IotSt where
  ctxs : SMap (Option IotCtx)
  tlb : List IoTlb
  given : List AtsGiven
  inv : List AtsInv
  dead : List Nat
  tlbis : List TlbiWait
  invReqs : List OutId
  deriving DecidableEq, Repr

/-- IOTU at reset. -/
def IotSt.reset : IotSt := ⟨[], [], [], [], [], [], []⟩

end Sys2Proof.Machine
end

