-- ==== Sys2Proof/Machine/RtrTypes.lean ====
section
/-! DEFINITION. Plain data of the Interrupt Router and the tenant resets beyond their registers (spec/11_tenancy.md R317–R341). -/
namespace Sys2Proof.Machine

/-- An input of the router: internal source or stream, its number, event ID (R317). -/
structure IrtSrc where
  internal : Bool
  num : Nat
  ev : Nat
  deriving DecidableEq, Repr

/-- A pinned Express slot (R330): the input it serves, its device table entry and its ITT entry, which names the record. -/
structure Pin where
  src : IrtSrc
  dt : Word × Word
  it : Word × Word
  deriving DecidableEq, Repr

/-- A posting record loaded on a thread, as the router keeps it on chip (R323): address, VMID, PRIO_SUM, pending table and its address. -/
structure LoadedRec where
  addr : Nat
  vmid : Nat
  prio : BitVec 32
  ptable : Nat
  pend : BitVec 1024
  deriving DecidableEq, Repr

/-- A TAKE of a thread (R325): record and VMID it was taken from, and the vINTID returned or NONE. -/
structure TakeSt where
  recAddr : Nat
  vmid : Nat
  reply : Option Nat
  deriving DecidableEq, Repr

/-- An Express interrupt not yet taken (R333): input, arrival MT, whether virtual, its ID, its thread or its record address, tenant. -/
structure Express where
  src : IrtSrc
  mt : Nat
  virt : Bool
  id : Nat
  tgt : Nat
  vmid : Nat
  deriving DecidableEq, Repr

/-- A tenant reset slot beyond QOS_TRST_SLOT_i (R338–R340): class, MT of acceptance, the queue of its result (0 for a command of the SECURE ring, 17 R529), and whether the VMID was reset before and is not released. -/
structure TrstSt where
  cls : Nat
  start : Nat
  queue : Nat
  again : Bool
  deriving DecidableEq, Repr

/-- The router: cached device and internal table entries (key source + 2^20 for an internal source), cached ITT entries (key table key · 2^16 + event), pinned slots, loaded records and outstanding TAKEs by thread, pending physical INTIDs by thread, doorbells in flight, Express interrupts not yet taken, reset slots by number. -/
structure RtrSt where
  dt : SMap (Option (Word × Word))
  itt : SMap (Option (Word × Word))
  pins : List Pin
  recs : SMap (Option LoadedRec)
  takes : SMap (Option TakeSt)
  phys : SMap (BitVec 256)
  bells : List Nat
  express : List Express
  trst : SMap (Option TrstSt)
  deriving DecidableEq, Repr

/-- Router at reset. -/
def RtrSt.reset : RtrSt := ⟨[], [], [], [], [], [], [], [], []⟩

end Sys2Proof.Machine
end

