-- ==== Sys2Proof/Machine/LkpTypes.lean ====
section
/-! DEFINITION. Plain data of the Lock-Keeper beyond its registers (spec/12_lock_keeper.md). -/
namespace Sys2Proof.Machine

/-- A presented passage (R367): berth, or none for SNAPSHOT_NOW; its F, action, target, and, for a RAISE, its entries as resolved at presentation. -/
structure Passage where
  berth : Option Nat
  f : Nat
  action : Nat
  target : Nat
  raise : Option ((Word × Word) × (Word × Word))
  deriving DecidableEq, Repr

/-- The Lock-Keeper beyond its registers: how far MT runs ahead of machine time while slewing (R358); whether MT runs in PTP, whether PTP has set MT, its rate in ppb and accumulator (R359); MT_CODE frames since the last epoch as (reference cycle, value, CRC good) (R355); the immediately preceding epoch when good as (cycle, value), whether any epoch came since the reference was present, the cycle the next one is expected in, consecutive good epochs (R356); tick of entry into the state (R357); presented passages; F of the last SNAPSHOT performed, and of one not completed (R376); pulses as (pin, reference cycle of their end); berths to be disarmed after the passage now due (R369); the Sync port: SYNC_IN and its last sample, the acknowledge on SYNC_OUT, MT of arming, timeout told (R374), whether the gate was disarmed in the current reference cycle, and LKP_SYNC_STAT before an unarmed edge of it (R375); the cycle in which a packet was last taken (R372). -/
structure LkpSt where
  ahead : Nat
  ptpRuns : Bool
  ptpSet : Bool
  ppb : Int
  acc : Int
  frames : List (Nat × Nat × Bool)
  good : Option (Nat × Nat)
  seen : Bool
  expect : Option Nat
  goodRun : Nat
  entered : Nat
  passages : List Passage
  lastSnap : Option Nat
  snapDue : Option Nat
  pulses : List (Nat × Nat)
  disarm : List Nat
  syncPin : Bool
  syncSample : Bool
  syncOut : Bool
  armMt : Nat
  syncTold : Bool
  gateWas : Bool
  rose : Option Word
  takenAt : Option Nat
  deriving DecidableEq, Repr

/-- Lock-Keeper at a cold reset: AWAIT, nothing received. -/
def LkpSt.reset : LkpSt :=
  { ahead := 0, ptpRuns := false, ptpSet := false, ppb := 0, acc := 0, frames := [], good := none, seen := false, expect := none, goodRun := 0,
    entered := 0, passages := [], lastSnap := none, snapDue := none, pulses := [], disarm := [], syncPin := false, syncSample := false,
    syncOut := false, armMt := 0, syncTold := false, gateWas := false, rose := none, takenAt := none }

end Sys2Proof.Machine
end

