-- ==== Sys2Proof/Machine/MemTypes.lean ====
section
/-! DEFINITION. Plain data of the memory controllers beyond their registers (spec/09_memory.md). -/
namespace Sys2Proof.Machine

/-- Where a controller serves an access: unit (0–15 DDR5 channel, 16–19 HBM stack), pseudo-channel (0 on a DDR5 channel), and the local address there. -/
structure MemAt where
  unit : Nat
  pc : Nat
  addr : Nat
  deriving DecidableEq, Repr

/-- Number of a scheduler: each DDR5 controller has one, each HBM pseudo-channel its own (R243, R251). -/
def MemAt.sch (m : MemAt) : Nat := 32 * m.unit + m.pc

/-- A memory request as its home sends it (R253): line, whether a write, whether a write of fewer than 64 bytes, class. -/
structure MemWant where
  line : Nat
  wr : Bool
  part : Bool
  cls : Nat
  deriving DecidableEq, Repr

/-- A request queued in a controller (R242, R251): where it is served, line, whether a write, whether a partial one, class, MT of arrival, the epoch of a mirrored pair it was sent under (R263), and whether maintenance of the line has overtaken the read, so that it fills no LLC sector (07 R189). -/
structure MemReq where
  loc : MemAt
  line : Nat
  wr : Bool
  part : Bool
  cls : Nat
  since : Nat
  epoch : Nat
  stale : Bool := false
  deriving DecidableEq, Repr

/-- An access made in a step that waits for its scheduler (R251, R258): where it is served, line, whether a write, and the MT since which it waits. -/
structure MemLate where
  loc : MemAt
  line : Nat
  wr : Bool
  since : Nat
  deriving DecidableEq, Repr

/-- What a request of an agent would ask of the memory system, noted by a trial of it: a line it reads at the home, or an access to a controller (line, whether a write, whether a partial one, class). -/
inductive MemTry where
  | cxl (line : Nat)
  | tag (port link : Nat)
  | read (line : Nat)
  | access (loc : MemAt) (line : Nat) (wr part : Bool) (cls : Nat)
  deriving DecidableEq, Repr

/-- A corrected error kept for 24 h: DDR5 (R262) by unit, rank, subchannel, device and row; HBM (R267) by unit, pseudo-channel and bank in place of rank and device. -/
structure MemCe where
  unit : Nat
  rank : Nat
  subch : Nat
  dev : Nat
  row : Nat
  mt : Nat
  deriving DecidableEq, Repr

/-- A row or bank of an HBM stack (R267). -/
structure HbmRow where
  stack : Nat
  pc : Nat
  bank : Nat
  row : Nat
  deriving DecidableEq, Repr

/-- An entry of the HBM memory-side cache (R250): the DDR line it holds and its dirty bit. Its data stay with the memory contents and its poison bit with the line's mark. -/
structure HbmEnt where
  line : Nat
  dirty : Bool
  deriving DecidableEq, Repr

/-- A failover in progress (R263): the failed channel, its cause, the MT of detection. -/
structure Failover where
  ch : Nat
  cause : Nat
  start : Nat
  deriving DecidableEq, Repr

/-- State of the memory controllers and links beyond their registers: queued requests, oldest first; requests that their homes hold because a queue is full or an earlier write to the line waits, oldest first (R253, R254); schedulers that drain (R251); the open row of each bank (key 2^20 · scheduler + 2^10 · rank + bank; R251); draws of each scheduler's disturbance generator since its reseeding, and the number of that reseeding (R257); accesses of a step that wait for a scheduler (R251, R258), and, during a trial of an agent's request, what it asks for; lines read for their homes and not yet filled; owed refreshes (key 64 · unit + rank or pseudo-channel; R255); MT of a unit's last request (R258); units whose retraining fell due in self-refresh, and the index of each unit's last periodic retraining (R259); corrected errors; failed devices as (unit, rank, subchannel, device) (R262); ranks being re-encoded; failovers in progress and epochs by pair (R263); rows to be repaired and rows repaired (R267); injected errors as (line, kind) (17 R532); patrol position in lines by unit (R266); HBM cache entries (key stack · 2^30 + entry; R250); lines whose DDR copy is poisoned under a good entry (R261, R266); failed HBM pseudo-channels (32 · stack + pc, R268); bytes of bandwidth windows per unit and direction (19 R588; key 2 · unit + direction + 256 · window, units 0–15 DDR5, 16–19 HBM, 20–57 aqueducts, 58–65 root ports, 66 Wharf) and the window each unit accumulates; bytes per class and scheduler in a window (11 R336; key 1024 · class + scheduler) and the number of that window; the boot ROM SRAM by offset (20 R597; unlisted bytes are zero). -/
structure MemSt where
  reqs : List MemReq
  held : List MemWant
  drain : List Nat
  rows : SMap (Option Nat)
  gens : SMap Nat
  genSeed : Nat
  wants : List MemLate
  trial : Option (List MemTry)
  fetched : List Nat
  debt : SMap Nat
  busy : SMap Nat
  retrainDue : List Nat
  retrained : SMap Nat
  ces : List MemCe
  devs : List (Nat × Nat × Nat × Nat)
  walks : List (Nat × Nat)
  failovers : List Failover
  epoch : SMap Nat
  repairDue : List HbmRow
  repairs : List HbmRow
  inject : List (Nat × Nat)
  patrol : SMap Nat
  hbm : SMap (Option HbmEnt)
  ddrBad : List Nat
  pcFailed : List Nat
  bwAcc : SMap Nat
  bwWin : SMap Nat
  clsWin : SMap Nat
  qosWin : Nat
  rom : List (Nat × Byte)
  deriving DecidableEq, Repr

/-- Memory controllers with nothing failed, queued or counted. -/
def MemSt.reset : MemSt :=
  { reqs := [], held := [], drain := [], rows := [], gens := [], genSeed := 0, wants := [], trial := none, fetched := [], debt := [], busy := [], retrainDue := [], retrained := [], ces := [], devs := [], walks := [], failovers := [], epoch := [],
    repairDue := [], repairs := [], inject := [], patrol := [], hbm := [], ddrBad := [], pcFailed := [], bwAcc := [], bwWin := [], clsWin := [], qosWin := 0, rom := [] }

end Sys2Proof.Machine
end

