-- ==== Sys2Proof/Machine/PortTypes.lean ====
section
/-! DEFINITION. Plain data of the root ports and the Wharf beyond their registers (spec/14_expansion_ports.md). -/
namespace Sys2Proof.Machine

/-- An outstanding outbound non-posted request (R430): port 0–7 or 8 for the Wharf, link, tag, kind (0 core load, 1 configuration write, 2 Barge data read, 3 CXL.mem read of MEMORY_REQUEST, 4 read by a device of another port's slot, 5 CXL.mem read made in a step, 6 Barge manifest read), its owner (logical thread, channel · 65,536 + manifest index, line, or number of the device's read; `noOwner` once nothing waits for it), address, size, MT of issue, the address of a Barge or device read before translation, and, once it has ended, its outcome (0 data, 1 all ones, 2 timed out, 3 poisoned data) with the data. -/
structure OutReq where
  port : Nat
  link : Nat
  tag : Nat
  kind : Nat
  owner : Nat
  addr : Nat
  size : Nat
  issued : Nat
  va : Nat
  res : Option (Nat × Nat)
  deriving DecidableEq, Repr

/-- A TLP the chip has put on a link: port, kind (0 memory write, 1 configuration write, 2 read, 3 completion with data, 4 Unsupported Request, 5 completion with the EP mark, 6 ATS Invalidate, 7 ATS translation completion, 8 Completer Abort, 9 memory write with the EP mark), bus or host address, size in bytes, data. -/
structure TxTlp where
  port : Nat
  kind : Nat
  addr : Nat
  size : Nat
  data : Nat
  deriving DecidableEq, Repr

/-- A function disable in progress (R442): function (0 PF0, 1 PF1, 2 + v VF v), cause, MT of its start, whether its timeout has been reported. -/
structure FnStop where
  fn : Nat
  cause : Nat
  start : Nat
  told : Bool
  deriving DecidableEq, Repr

/-- A root-port function's registers that the spec speaks of (R420, R421, R423, R433), laid out as PCIe 6.0 has them (PRESUMED, notes/assumptions/121.md): the bus-number dword, the memory base and limit dword, the prefetchable base and limit dword with the upper halves of both, AER's uncorrectable and correctable status and its header log, and the ACS control word. DPC's trigger status is RPT_LINK_STAT.DPC. -/
structure RootFn where
  buses : Nat
  mem : Nat
  pref : Nat
  prefHi : Nat
  limitHi : Nat
  uncor : Nat
  cor : Nat
  hdr : Nat
  acs : Nat
  deriving DecidableEq, Repr

/-- A root-port function at reset: no bus below it, its windows closed, nothing logged. -/
def RootFn.reset : RootFn := ⟨0, 0xFFF0, 0x1FFF1, 0, 0, 0, 0, 0, 0⟩

/-- A read that a device makes of another port's slot (R424): its number, the stream and address its completion goes to, and its parts in order, each with its address and, where memory answered it, its data and poison mark. -/
structure PeerRead where
  id : Nat
  stream : Nat
  addr : Nat
  parts : List (Nat × Option (List Byte × Bool))
  deriving DecidableEq, Repr

/-- The loss of a link until it trains again (R434): link (4 · port + link), the tick it was found down in, its cause, requests completed at it. -/
structure LinkLoss where
  link : Nat
  tick : Nat
  cause : Nat
  done : Nat
  deriving DecidableEq, Repr

/-- Ports: outstanding requests, quarantined tags as (4 · port + link, tag, MT at which quarantine ends), links (4 · port + link) below which a device has not declared 10-bit tags (R420), TLPs sent, PF0 enabled by the host and its Bus Master Enable, functions being disabled, MSI-X vectors pending as (function, vector) until bus mastering and the host's masks permit them, the level of the host's PERST# (true: high), the vectors and the functions that the host has masked (R436), the root-port functions by link, requests that wait for a tag as (link, kind, owner) in order (R431), links lost and not trained since, and devices' reads of other ports' slots with the number of the last. -/
structure PortSt where
  out : List OutReq
  quar : List (Nat × Nat × Nat)
  short : List Nat
  tx : List TxTlp
  pf0En : Bool
  pf0Bme : Bool
  stops : List FnStop
  msixPend : List (Nat × Nat)
  perst : Bool
  masked : List (Nat × Nat)
  maskedFn : List Nat
  fns : SMap RootFn
  waits : List (Nat × Nat × Nat)
  loss : List LinkLoss
  peers : List PeerRead
  peerSeq : Nat
  deriving DecidableEq, Repr

/-- Ports at the first DONE: nothing outstanding, PERST# high. -/
def PortSt.reset : PortSt := ⟨[], [], [], [], false, false, [], [], true, [], [], [], [], [], [], 0⟩

end Sys2Proof.Machine
end

