-- ==== Sys2Proof/Machine/PwrTypes.lean ====
section
/-! DEFINITION. Plain data of the power controller beyond its registers (spec/16_power.md). -/
namespace Sys2Proof.Machine

/-- A core PLL on its way from one frequency to another, in 25 MHz units, and the tick at which its first step begins (R507). -/
structure Glide where
  src : Nat
  dst : Nat
  start : Nat
  deriving DecidableEq, Repr

/-- A PLL that has not yet glided, at 1.2 GHz. -/
def Glide.still : Glide := ⟨48, 48, 0⟩

/-- The power controller beyond its registers: wake attempts so far of a domain that is waking (R499), MT of its first attempt, MT of power-good, domains whose PLL is not locked, domains whose PLL failed to lock since they woke (R500), MT at which SYS_REFCLK was lost (R501), the MT of the last CAP_UNMET record (R508), the measured package power in W and 1 + the millisecond of the last run of the cap loop, granted core frequencies in 25 MHz units by stop (R506), the glides of the core PLLs and 1 + the millisecond of the last recomputation (R507), and the state last commanded of a domain in HOST_DIRECT (R505). -/
structure PwrSt where
  attempts : SMap Nat
  firstMt : SMap Nat
  goodMt : SMap Nat
  unlocked : List Nat
  pllFailed : List Nat
  refLost : Option Nat
  capUnmet : Option Nat
  measured : Nat
  capMs : Nat
  granted : SMap Nat
  glide : SMap Glide
  freqMs : Nat
  direct : List (Nat × Bool)
  deriving DecidableEq, Repr

/-- Power controller at the first DONE: the core PLLs have not locked (20 R598). -/
def PwrSt.reset : PwrSt :=
  { attempts := [], firstMt := [], goodMt := [], unlocked := List.range 224, pllFailed := [], refLost := none, capUnmet := none, measured := 0, capMs := 0,
    granted := [], glide := [], freqMs := 0, direct := [] }

end Sys2Proof.Machine
end

