-- ==== Sys2Proof/Machine/RasTypes.lean ====
section
/-! DEFINITION. Plain data of the mesh's link recovery and of fault handling beyond the registers (spec/08_mesh_coherence.md R211–R215, spec/16_power.md R494; spec/07_caches.md R177, R178; spec/18_ras.md R554–R563). -/
namespace Sys2Proof.Machine

/-- A mesh element as MSH_FAULT_n names it (08 R239): KIND and STOP. -/
structure Elem where
  kind : Nat
  stop : Nat
  deriving DecidableEq, Repr

/-- Mesh links: 1 + MT at which a message last crossed each aqueduct (16 R494); consecutive failed replays of one flit and the MT of the first, by link direction (key 8 · stop + 2 · kind + direction; 08 R211); link directions in retraining; elements declared failed and not yet rerouted, with the MT of the first failed replay (R213). -/
structure MshSt where
  aqLast : SMap Nat
  replays : SMap (Nat × Nat)
  retrain : List (Elem × Bool × Nat)
  failing : List (Elem × Nat)
  deriving DecidableEq, Repr

/-- A way on its way to being disabled (07 R178): level (0 L1D, 1 L1I, 2 L2, 3 LLC, 4 directory), stop, way, cause. -/
structure WayDis where
  level : Nat
  stop : Nat
  way : Nat
  cause : Nat
  deriving DecidableEq, Repr

/-- A core being spared (18 R558): its stop and logical core, cause (R574), MT of detection, lost-state masks of its four threads (R561), the spare chosen, and whether the threads have resumed on the spare. -/
structure Sparing where
  old : Nat
  lcore : Nat
  cause : Nat
  since : Nat
  masks : List Nat
  spare : Nat
  moved : Bool
  deriving DecidableEq, Repr

/-- Faults: MT of each way's last two corrected errors (key 2^16 · level + 16 · stop + way; 07 R177), ways being disabled, slices with three or more disabled ways (R180), cores being spared in order. -/
structure RasSt where
  wayCe : SMap (List Nat)
  draining : List WayDis
  exhausted : List Nat
  sparing : List Sparing
  deriving DecidableEq, Repr

/-- A mesh without faults. -/
def MshSt.reset : MshSt := ⟨[], [], [], []⟩
/-- No fault recorded. -/
def RasSt.reset : RasSt := ⟨[], [], [], []⟩

end Sys2Proof.Machine
end

