-- ==== Sys2Proof/Machine/Regs.lean ====
section
/-! DEFINITION. The registers of Chip Control Space as the spec's register tables give them: one descriptor per register (name, rule, offset, replication, fields with access type and reset), the offset of each (a_NAME) and the place of each field (f_NAME_FIELD). Offsets are from 0x000F_FC00_0000_0000 (spec/01_architecture.md R26). -/
namespace Sys2Proof.Machine

/-- The access types of spec/00_scope.md R12. -/
inductive Access where
  | rw | ro | wo | w1c | w1s | rc | rws | wl | w1l
  deriving DecidableEq, Repr

/-- One field of a register: bits [lo+width-1:lo], access type, reset value. -/
structure RegField where
  lo : Nat
  width : Nat
  acc : Access
  reset : Nat
  deriving DecidableEq, Repr

/-- One register of a block: offset of its first instance, replication as (stride, count) pairs, fields. Bits outside every field are RES0. -/
structure RegDesc where
  name : String
  rule : Nat
  base : Nat
  dims : List (Nat × Nat)
  fields : List RegField
  deriving DecidableEq, Repr

/-- The place of a field: lowest bit and width. -/
abbrev FieldAt := Nat × Nat

/-- Does `rem`, the offset from the base, fall on an instance under the replication `dims`? Answers the byte within the 8-byte register. -/
def dimsByte : List (Nat × Nat) → Nat → Option Nat
  | [], rem => if rem < 8 then some rem else none
  | (stride, count) :: r, rem =>
    if rem / stride < count then dimsByte r (rem % stride) else none

/-- The byte within the register that a CCS offset addresses, if the offset lies in an instance of the register. -/
def RegDesc.byteOf (r : RegDesc) (off : Nat) : Option Nat :=
  if off < r.base then none else dimsByte r.dims (off - r.base)

/-- Reset value of a field list (R10). -/
def fieldsReset : List RegField → Nat
  | [] => 0
  | f :: r => (f.reset <<< f.lo) + fieldsReset r


/-- STP_LLC_CTL (R195). -/
def d_STP_LLC_CTL : RegDesc := ⟨"STP_LLC_CTL", 195, 0x10040000, [(0x100000, 224)],
   [⟨0, 1, .rws, 0x1⟩]⟩

/-- Offset of STP_LLC_CTL. -/
abbrev a_STP_LLC_CTL (i0 : Nat) : Nat := 0x10040000 + 0x100000 * i0
abbrev f_STP_LLC_CTL_AUTODIS_EN : FieldAt := (0, 1)

/-- STP_LLC_WAYSTAT (R196). -/
def d_STP_LLC_WAYSTAT : RegDesc := ⟨"STP_LLC_WAYSTAT", 196, 0x10040008, [(0x100000, 224)],
   [⟨0, 16, .ro, 0x0⟩,
    ⟨16, 5, .ro, 0x0⟩,
    ⟨32, 16, .ro, 0x0⟩]⟩

/-- Offset of STP_LLC_WAYSTAT. -/
abbrev a_STP_LLC_WAYSTAT (i0 : Nat) : Nat := 0x10040008 + 0x100000 * i0
abbrev f_STP_LLC_WAYSTAT_DISABLED : FieldAt := (0, 16)
abbrev f_STP_LLC_WAYSTAT_DIS_COUNT : FieldAt := (16, 5)
abbrev f_STP_LLC_WAYSTAT_DRAINING : FieldAt := (32, 16)

/-- STP_LLC_WAYMASK (R197). -/
def d_STP_LLC_WAYMASK : RegDesc := ⟨"STP_LLC_WAYMASK", 197, 0x10041000, [(0x100000, 224), (0x8, 64)],
   [⟨0, 16, .rw, 0xFFFF⟩]⟩

/-- Offset of STP_LLC_WAYMASK. -/
abbrev a_STP_LLC_WAYMASK (i0 : Nat) (i1 : Nat) : Nat := 0x10041000 + 0x100000 * i0 + 0x8 * i1
abbrev f_STP_LLC_WAYMASK_MASK : FieldAt := (0, 16)

/-- STP_LLC_QUOIN (R198). -/
def d_STP_LLC_QUOIN : RegDesc := ⟨"STP_LLC_QUOIN", 198, 0x10041200, [(0x100000, 224), (0x8, 16)],
   [⟨0, 6, .rw, 0x0⟩,
    ⟨8, 1, .rw, 0x0⟩,
    ⟨9, 1, .rw, 0x0⟩,
    ⟨10, 1, .ro, 0x1⟩]⟩

/-- Offset of STP_LLC_QUOIN. -/
abbrev a_STP_LLC_QUOIN (i0 : Nat) (i1 : Nat) : Nat := 0x10041200 + 0x100000 * i0 + 0x8 * i1
abbrev f_STP_LLC_QUOIN_CLASS : FieldAt := (0, 6)
abbrev f_STP_LLC_QUOIN_LOCKED : FieldAt := (8, 1)
abbrev f_STP_LLC_QUOIN_PIN : FieldAt := (9, 1)
abbrev f_STP_LLC_QUOIN_EMPTY : FieldAt := (10, 1)

/-- STP_CORE_CACHESTAT (R199). -/
def d_STP_CORE_CACHESTAT : RegDesc := ⟨"STP_CORE_CACHESTAT", 199, 0x10030000, [(0x100000, 224)],
   [⟨0, 8, .ro, 0x0⟩,
    ⟨8, 4, .ro, 0x0⟩,
    ⟨12, 16, .ro, 0x0⟩,
    ⟨63, 1, .rws, 0x1⟩]⟩

/-- Offset of STP_CORE_CACHESTAT. -/
abbrev a_STP_CORE_CACHESTAT (i0 : Nat) : Nat := 0x10030000 + 0x100000 * i0
abbrev f_STP_CORE_CACHESTAT_L1D_DIS : FieldAt := (0, 8)
abbrev f_STP_CORE_CACHESTAT_L1I_DIS : FieldAt := (8, 4)
abbrev f_STP_CORE_CACHESTAT_L2_DIS : FieldAt := (12, 16)
abbrev f_STP_CORE_CACHESTAT_AUTODIS_EN : FieldAt := (63, 1)

/-- MSH_PROTO_CTL (R238). -/
def d_MSH_PROTO_CTL : RegDesc := ⟨"MSH_PROTO_CTL", 238, 0x6000000, [],
   [⟨0, 1, .wl, 0x0⟩,
    ⟨16, 10, .rw, 0x40⟩,
    ⟨32, 8, .rw, 0x10⟩]⟩

/-- Offset of MSH_PROTO_CTL. -/
abbrev a_MSH_PROTO_CTL : Nat := 0x6000000
abbrev f_MSH_PROTO_CTL_MODE : FieldAt := (0, 1)
abbrev f_MSH_PROTO_CTL_HOLD_WIN : FieldAt := (16, 10)
abbrev f_MSH_PROTO_CTL_AGE_LIMIT : FieldAt := (32, 8)

/-- MSH_FAULT (R239). -/
def d_MSH_FAULT : RegDesc := ⟨"MSH_FAULT", 239, 0x6000100, [(0x8, 8)],
   [⟨0, 1, .ro, 0x0⟩,
    ⟨1, 3, .ro, 0x0⟩,
    ⟨8, 8, .ro, 0x0⟩]⟩

/-- Offset of MSH_FAULT. -/
abbrev a_MSH_FAULT (i0 : Nat) : Nat := 0x6000100 + 0x8 * i0
abbrev f_MSH_FAULT_VALID : FieldAt := (0, 1)
abbrev f_MSH_FAULT_KIND : FieldAt := (1, 3)
abbrev f_MSH_FAULT_STOP : FieldAt := (8, 8)

/-- MSH_AQ_STAT (R240). -/
def d_MSH_AQ_STAT : RegDesc := ⟨"MSH_AQ_STAT", 240, 0x6100000, [(0x10000, 38)],
   [⟨0, 2, .ro, 0x0⟩,
    ⟨2, 2, .ro, 0x0⟩,
    ⟨4, 1, .ro, 0x0⟩,
    ⟨5, 1, .ro, 0x0⟩,
    ⟨6, 1, .ro, 0x0⟩,
    ⟨32, 16, .rc, 0x0⟩]⟩

/-- Offset of MSH_AQ_STAT. -/
abbrev a_MSH_AQ_STAT (i0 : Nat) : Nat := 0x6100000 + 0x10000 * i0
abbrev f_MSH_AQ_STAT_SPARES_AB : FieldAt := (0, 2)
abbrev f_MSH_AQ_STAT_SPARES_BA : FieldAt := (2, 2)
abbrev f_MSH_AQ_STAT_HALF_AB : FieldAt := (4, 1)
abbrev f_MSH_AQ_STAT_HALF_BA : FieldAt := (5, 1)
abbrev f_MSH_AQ_STAT_FAILED : FieldAt := (6, 1)
abbrev f_MSH_AQ_STAT_REPLAYS : FieldAt := (32, 16)

/-- STP_DIR_STAT (R241). -/
def d_STP_DIR_STAT : RegDesc := ⟨"STP_DIR_STAT", 241, 0x10080000, [(0x100000, 224)],
   [⟨0, 16, .ro, 0x0⟩,
    ⟨16, 16, .ro, 0x0⟩,
    ⟨32, 16, .ro, 0x0⟩,
    ⟨48, 8, .ro, 0x0⟩]⟩

/-- Offset of STP_DIR_STAT. -/
abbrev a_STP_DIR_STAT (i0 : Nat) : Nat := 0x10080000 + 0x100000 * i0
abbrev f_STP_DIR_STAT_VALID_ENTRIES : FieldAt := (0, 16)
abbrev f_STP_DIR_STAT_COARSE_ENTRIES : FieldAt := (16, 16)
abbrev f_STP_DIR_STAT_DIS_WAYS : FieldAt := (32, 16)
abbrev f_STP_DIR_STAT_RETRYQ : FieldAt := (48, 8)

/-- MSH_MEM_CFG (R270). -/
def d_MSH_MEM_CFG : RegDesc := ⟨"MSH_MEM_CFG", 270, 0x6000200, [],
   [⟨0, 1, .wl, 0x0⟩,
    ⟨1, 1, .wl, 0x0⟩,
    ⟨2, 1, .wl, 0x0⟩]⟩

/-- Offset of MSH_MEM_CFG. -/
abbrev a_MSH_MEM_CFG : Nat := 0x6000200
abbrev f_MSH_MEM_CFG_CACHED : FieldAt := (0, 1)
abbrev f_MSH_MEM_CFG_WHOLE_CHIP : FieldAt := (1, 1)
abbrev f_MSH_MEM_CFG_MIRROR : FieldAt := (2, 1)

/-- MSH_NODE (R271). -/
def d_MSH_NODE : RegDesc := ⟨"MSH_NODE", 271, 0x6000240, [(0x8, 8)],
   [⟨0, 1, .ro, 0x0⟩,
    ⟨1, 1, .ro, 0x0⟩,
    ⟨8, 16, .ro, 0x0⟩,
    ⟨24, 16, .ro, 0x0⟩,
    ⟨40, 16, .ro, 0x0⟩]⟩

/-- Offset of MSH_NODE. -/
abbrev a_MSH_NODE (i0 : Nat) : Nat := 0x6000240 + 0x8 * i0
abbrev f_MSH_NODE_VALID : FieldAt := (0, 1)
abbrev f_MSH_NODE_KIND : FieldAt := (1, 1)
abbrev f_MSH_NODE_BASE : FieldAt := (8, 16)
abbrev f_MSH_NODE_SIZE : FieldAt := (24, 16)
abbrev f_MSH_NODE_MEMBERS : FieldAt := (40, 16)

/-- DMC_CFG (R272). -/
def d_DMC_CFG : RegDesc := ⟨"DMC_CFG", 272, 0x4000000, [(0x10000, 16)],
   [⟨0, 2, .ro, 0x0⟩,
    ⟨2, 3, .ro, 0x0⟩,
    ⟨16, 16, .ro, 0x0⟩,
    ⟨32, 16, .ro, 0x0⟩,
    ⟨48, 2, .ro, 0x0⟩]⟩

/-- Offset of DMC_CFG. -/
abbrev a_DMC_CFG (i0 : Nat) : Nat := 0x4000000 + 0x10000 * i0
abbrev f_DMC_CFG_DPC : FieldAt := (0, 2)
abbrev f_DMC_CFG_RANKS : FieldAt := (2, 3)
abbrev f_DMC_CFG_CAP : FieldAt := (16, 16)
abbrev f_DMC_CFG_RATE : FieldAt := (32, 16)
abbrev f_DMC_CFG_MIRROR_ROLE : FieldAt := (48, 2)

/-- DMC_SCHED (R273). -/
def d_DMC_SCHED : RegDesc := ⟨"DMC_SCHED", 273, 0x4000008, [(0x10000, 16)],
   [⟨0, 6, .rw, 0x24⟩,
    ⟨8, 6, .rw, 0xC⟩,
    ⟨16, 16, .rw, 0x64⟩]⟩

/-- Offset of DMC_SCHED. -/
abbrev a_DMC_SCHED (i0 : Nat) : Nat := 0x4000008 + 0x10000 * i0
abbrev f_DMC_SCHED_WR_HI : FieldAt := (0, 6)
abbrev f_DMC_SCHED_WR_LO : FieldAt := (8, 6)
abbrev f_DMC_SCHED_AGE_CAP : FieldAt := (16, 16)

/-- DMC_REF_CTL (R274). -/
def d_DMC_REF_CTL : RegDesc := ⟨"DMC_REF_CTL", 274, 0x4000010, [(0x10000, 16)],
   [⟨0, 1, .rw, 0x1⟩,
    ⟨8, 4, .rw, 0x6⟩,
    ⟨16, 4, .ro, 0x0⟩]⟩

/-- Offset of DMC_REF_CTL. -/
abbrev a_DMC_REF_CTL (i0 : Nat) : Nat := 0x4000010 + 0x10000 * i0
abbrev f_DMC_REF_CTL_SAME_BANK : FieldAt := (0, 1)
abbrev f_DMC_REF_CTL_URGENT : FieldAt := (8, 4)
abbrev f_DMC_REF_CTL_DEBT : FieldAt := (16, 4)

/-- DMC_DRFM_CTL (R275). -/
def d_DMC_DRFM_CTL : RegDesc := ⟨"DMC_DRFM_CTL", 275, 0x4000018, [(0x10000, 16)],
   [⟨0, 5, .rw, 0xB⟩]⟩

/-- Offset of DMC_DRFM_CTL. -/
abbrev a_DMC_DRFM_CTL (i0 : Nat) : Nat := 0x4000018 + 0x10000 * i0
abbrev f_DMC_DRFM_CTL_P_LOG2 : FieldAt := (0, 5)

/-- DMC_PWR_CTL (R276). -/
def d_DMC_PWR_CTL : RegDesc := ⟨"DMC_PWR_CTL", 276, 0x4000020, [(0x10000, 16)],
   [⟨0, 1, .rw, 0x1⟩,
    ⟨16, 16, .rw, 0x3E8⟩,
    ⟨32, 1, .ro, 0x0⟩]⟩

/-- Offset of DMC_PWR_CTL. -/
abbrev a_DMC_PWR_CTL (i0 : Nat) : Nat := 0x4000020 + 0x10000 * i0
abbrev f_DMC_PWR_CTL_SR_EN : FieldAt := (0, 1)
abbrev f_DMC_PWR_CTL_SR_IDLE : FieldAt := (16, 16)
abbrev f_DMC_PWR_CTL_IN_SR : FieldAt := (32, 1)

/-- DMC_RAS_CTL (R277). -/
def d_DMC_RAS_CTL : RegDesc := ⟨"DMC_RAS_CTL", 277, 0x4000028, [(0x10000, 16)],
   [⟨0, 1, .rws, 0x1⟩,
    ⟨8, 8, .rws, 0x10⟩,
    ⟨16, 1, .rws, 0x1⟩]⟩

/-- Offset of DMC_RAS_CTL. -/
abbrev a_DMC_RAS_CTL (i0 : Nat) : Nat := 0x4000028 + 0x10000 * i0
abbrev f_DMC_RAS_CTL_SCRUB_EN : FieldAt := (0, 1)
abbrev f_DMC_RAS_CTL_DEV_THRESH : FieldAt := (8, 8)
abbrev f_DMC_RAS_CTL_SUBST_EN : FieldAt := (16, 1)

/-- DMC_RAS_STAT (R278). -/
def d_DMC_RAS_STAT : RegDesc := ⟨"DMC_RAS_STAT", 278, 0x4000030, [(0x10000, 16)],
   [⟨0, 4, .ro, 0x0⟩,
    ⟨4, 4, .ro, 0x0⟩,
    ⟨8, 1, .ro, 0x0⟩,
    ⟨9, 1, .ro, 0x0⟩,
    ⟨10, 1, .ro, 0x0⟩,
    ⟨32, 16, .ro, 0x0⟩]⟩

/-- Offset of DMC_RAS_STAT. -/
abbrev a_DMC_RAS_STAT (i0 : Nat) : Nat := 0x4000030 + 0x10000 * i0
abbrev f_DMC_RAS_STAT_SUBST : FieldAt := (0, 4)
abbrev f_DMC_RAS_STAT_SECOND : FieldAt := (4, 4)
abbrev f_DMC_RAS_STAT_SUBST_BUSY : FieldAt := (8, 1)
abbrev f_DMC_RAS_STAT_FAILED_OVER : FieldAt := (9, 1)
abbrev f_DMC_RAS_STAT_CH_FAILED : FieldAt := (10, 1)
abbrev f_DMC_RAS_STAT_SCRUB_POS : FieldAt := (32, 16)

/-- DMC_ERR_LOG (R279). -/
def d_DMC_ERR_LOG : RegDesc := ⟨"DMC_ERR_LOG", 279, 0x4000040, [(0x10000, 16)],
   [⟨6, 32, .ro, 0x0⟩,
    ⟨38, 2, .ro, 0x0⟩,
    ⟨40, 1, .ro, 0x0⟩,
    ⟨41, 5, .ro, 0x0⟩,
    ⟨46, 3, .ro, 0x0⟩,
    ⟨49, 1, .ro, 0x0⟩,
    ⟨63, 1, .rc, 0x0⟩]⟩

/-- Offset of DMC_ERR_LOG. -/
abbrev a_DMC_ERR_LOG (i0 : Nat) : Nat := 0x4000040 + 0x10000 * i0
abbrev f_DMC_ERR_LOG_LINE : FieldAt := (6, 32)
abbrev f_DMC_ERR_LOG_RANK : FieldAt := (38, 2)
abbrev f_DMC_ERR_LOG_SUBCH : FieldAt := (40, 1)
abbrev f_DMC_ERR_LOG_DEVICE : FieldAt := (41, 5)
abbrev f_DMC_ERR_LOG_KIND : FieldAt := (46, 3)
abbrev f_DMC_ERR_LOG_PATROL : FieldAt := (49, 1)
abbrev f_DMC_ERR_LOG_VALID : FieldAt := (63, 1)

/-- HMC_SCHED (R280). -/
def d_HMC_SCHED : RegDesc := ⟨"HMC_SCHED", 280, 0x5000008, [(0x100000, 4)],
   [⟨0, 6, .rw, 0x12⟩,
    ⟨8, 6, .rw, 0x6⟩,
    ⟨16, 16, .rw, 0x64⟩]⟩

/-- Offset of HMC_SCHED. -/
abbrev a_HMC_SCHED (i0 : Nat) : Nat := 0x5000008 + 0x100000 * i0
abbrev f_HMC_SCHED_WR_HI : FieldAt := (0, 6)
abbrev f_HMC_SCHED_WR_LO : FieldAt := (8, 6)
abbrev f_HMC_SCHED_AGE_CAP : FieldAt := (16, 16)

/-- HMC_REF_CTL (R280). -/
def d_HMC_REF_CTL : RegDesc := ⟨"HMC_REF_CTL", 280, 0x5000010, [(0x100000, 4)],
   [⟨0, 1, .rw, 0x1⟩,
    ⟨8, 4, .rw, 0x6⟩,
    ⟨16, 4, .ro, 0x0⟩]⟩

/-- Offset of HMC_REF_CTL. -/
abbrev a_HMC_REF_CTL (i0 : Nat) : Nat := 0x5000010 + 0x100000 * i0
abbrev f_HMC_REF_CTL_SAME_BANK : FieldAt := (0, 1)
abbrev f_HMC_REF_CTL_URGENT : FieldAt := (8, 4)
abbrev f_HMC_REF_CTL_DEBT : FieldAt := (16, 4)

/-- HMC_RFM_CTL (R280). -/
def d_HMC_RFM_CTL : RegDesc := ⟨"HMC_RFM_CTL", 280, 0x5000018, [(0x100000, 4)],
   [⟨0, 5, .rw, 0xB⟩]⟩

/-- Offset of HMC_RFM_CTL. -/
abbrev a_HMC_RFM_CTL (i0 : Nat) : Nat := 0x5000018 + 0x100000 * i0
abbrev f_HMC_RFM_CTL_P_LOG2 : FieldAt := (0, 5)

/-- HMC_PWR_CTL (R280). -/
def d_HMC_PWR_CTL : RegDesc := ⟨"HMC_PWR_CTL", 280, 0x5000020, [(0x100000, 4)],
   [⟨0, 1, .rw, 0x1⟩,
    ⟨16, 16, .rw, 0x3E8⟩,
    ⟨32, 1, .ro, 0x0⟩]⟩

/-- Offset of HMC_PWR_CTL. -/
abbrev a_HMC_PWR_CTL (i0 : Nat) : Nat := 0x5000020 + 0x100000 * i0
abbrev f_HMC_PWR_CTL_SR_EN : FieldAt := (0, 1)
abbrev f_HMC_PWR_CTL_SR_IDLE : FieldAt := (16, 16)
abbrev f_HMC_PWR_CTL_IN_SR : FieldAt := (32, 1)

/-- HMC_CFG (R281). -/
def d_HMC_CFG : RegDesc := ⟨"HMC_CFG", 281, 0x5000000, [(0x100000, 4)],
   [⟨0, 16, .ro, 0x0⟩,
    ⟨16, 16, .ro, 0x0⟩,
    ⟨32, 1, .ro, 0x0⟩]⟩

/-- Offset of HMC_CFG. -/
abbrev a_HMC_CFG (i0 : Nat) : Nat := 0x5000000 + 0x100000 * i0
abbrev f_HMC_CFG_CAP : FieldAt := (0, 16)
abbrev f_HMC_CFG_RATE : FieldAt := (16, 16)
abbrev f_HMC_CFG_CACHING : FieldAt := (32, 1)

/-- HMC_RAS_CTL (R282). -/
def d_HMC_RAS_CTL : RegDesc := ⟨"HMC_RAS_CTL", 282, 0x5000028, [(0x100000, 4)],
   [⟨0, 1, .rws, 0x1⟩,
    ⟨1, 1, .rws, 0x1⟩]⟩

/-- Offset of HMC_RAS_CTL. -/
abbrev a_HMC_RAS_CTL (i0 : Nat) : Nat := 0x5000028 + 0x100000 * i0
abbrev f_HMC_RAS_CTL_SCRUB_EN : FieldAt := (0, 1)
abbrev f_HMC_RAS_CTL_REPAIR_EN : FieldAt := (1, 1)

/-- HMC_RAS_STAT (R283). -/
def d_HMC_RAS_STAT : RegDesc := ⟨"HMC_RAS_STAT", 283, 0x5000030, [(0x100000, 4)],
   [⟨0, 16, .ro, 0x0⟩,
    ⟨16, 1, .ro, 0x0⟩,
    ⟨32, 16, .ro, 0x0⟩]⟩

/-- Offset of HMC_RAS_STAT. -/
abbrev a_HMC_RAS_STAT (i0 : Nat) : Nat := 0x5000030 + 0x100000 * i0
abbrev f_HMC_RAS_STAT_REPAIRS : FieldAt := (0, 16)
abbrev f_HMC_RAS_STAT_EXHAUSTED : FieldAt := (16, 1)
abbrev f_HMC_RAS_STAT_SCRUB_POS : FieldAt := (32, 16)

/-- HMC_ERR_LOG (R284). -/
def d_HMC_ERR_LOG : RegDesc := ⟨"HMC_ERR_LOG", 284, 0x5000040, [(0x100000, 4)],
   [⟨6, 25, .ro, 0x0⟩,
    ⟨31, 5, .ro, 0x0⟩,
    ⟨36, 3, .ro, 0x0⟩,
    ⟨39, 1, .ro, 0x0⟩,
    ⟨63, 1, .rc, 0x0⟩]⟩

/-- Offset of HMC_ERR_LOG. -/
abbrev a_HMC_ERR_LOG (i0 : Nat) : Nat := 0x5000040 + 0x100000 * i0
abbrev f_HMC_ERR_LOG_LINE : FieldAt := (6, 25)
abbrev f_HMC_ERR_LOG_PC : FieldAt := (31, 5)
abbrev f_HMC_ERR_LOG_KIND : FieldAt := (36, 3)
abbrev f_HMC_ERR_LOG_PATROL : FieldAt := (39, 1)
abbrev f_HMC_ERR_LOG_VALID : FieldAt := (63, 1)

/-- IOT_CTL (R308). -/
def d_IOT_CTL : RegDesc := ⟨"IOT_CTL", 308, 0x3000000, [],
   [⟨0, 1, .rw, 0x0⟩,
    ⟨1, 1, .rw, 0x0⟩]⟩

/-- Offset of IOT_CTL. -/
abbrev a_IOT_CTL : Nat := 0x3000000
abbrev f_IOT_CTL_EN : FieldAt := (0, 1)
abbrev f_IOT_CTL_ATS_EN : FieldAt := (1, 1)

/-- IOT_MSI_BASE (R309). -/
def d_IOT_MSI_BASE : RegDesc := ⟨"IOT_MSI_BASE", 309, 0x3000008, [],
   [⟨16, 36, .rw, 0xFFFF⟩]⟩

/-- Offset of IOT_MSI_BASE. -/
abbrev a_IOT_MSI_BASE : Nat := 0x3000008
abbrev f_IOT_MSI_BASE_BASE : FieldAt := (16, 36)

/-- IOT_SRC (R310). -/
def d_IOT_SRC : RegDesc := ⟨"IOT_SRC", 310, 0x3000100, [(0x8, 10)],
   [⟨0, 1, .rw, 0x0⟩,
    ⟨12, 40, .rw, 0x0⟩,
    ⟨52, 5, .rw, 0x0⟩]⟩

/-- Offset of IOT_SRC. -/
abbrev a_IOT_SRC (i0 : Nat) : Nat := 0x3000100 + 0x8 * i0
abbrev f_IOT_SRC_V : FieldAt := (0, 1)
abbrev f_IOT_SRC_BASE : FieldAt := (12, 40)
abbrev f_IOT_SRC_SIZE_LOG2 : FieldAt := (52, 5)

/-- IOT_INV (R311). -/
def d_IOT_INV : RegDesc := ⟨"IOT_INV", 311, 0x3000200, [],
   [⟨0, 20, .rw, 0x0⟩,
    ⟨20, 1, .rw, 0x0⟩,
    ⟨21, 1, .rw, 0x0⟩,
    ⟨63, 1, .w1s, 0x0⟩]⟩

/-- Offset of IOT_INV. -/
abbrev a_IOT_INV : Nat := 0x3000200
abbrev f_IOT_INV_STREAM : FieldAt := (0, 20)
abbrev f_IOT_INV_ALL : FieldAt := (20, 1)
abbrev f_IOT_INV_PRELOAD : FieldAt := (21, 1)
abbrev f_IOT_INV_BUSY : FieldAt := (63, 1)

/-- IOT_INV_STAT (R312). -/
def d_IOT_INV_STAT : RegDesc := ⟨"IOT_INV_STAT", 312, 0x3000208, [],
   [⟨0, 1, .w1c, 0x0⟩,
    ⟨16, 9, .ro, 0x0⟩]⟩

/-- Offset of IOT_INV_STAT. -/
abbrev a_IOT_INV_STAT : Nat := 0x3000208
abbrev f_IOT_INV_STAT_PIN_FAILED : FieldAt := (0, 1)
abbrev f_IOT_INV_STAT_PINNED : FieldAt := (16, 9)

/-- IOT_ATS_CTL (R313). -/
def d_IOT_ATS_CTL : RegDesc := ⟨"IOT_ATS_CTL", 313, 0x3000210, [],
   [⟨0, 16, .rw, 0x3E8⟩]⟩

/-- Offset of IOT_ATS_CTL. -/
abbrev a_IOT_ATS_CTL : Nat := 0x3000210
abbrev f_IOT_ATS_CTL_TIMEOUT : FieldAt := (0, 16)

/-- IOT_FAULT_STAT (R314). -/
def d_IOT_FAULT_STAT : RegDesc := ⟨"IOT_FAULT_STAT", 314, 0x3000218, [],
   [⟨0, 32, .rc, 0x0⟩]⟩

/-- Offset of IOT_FAULT_STAT. -/
abbrev a_IOT_FAULT_STAT : Nat := 0x3000218
abbrev f_IOT_FAULT_STAT_SUPPRESSED : FieldAt := (0, 32)

/-- IRT_CTL (R344). -/
def d_IRT_CTL : RegDesc := ⟨"IRT_CTL", 344, 0x500000, [],
   [⟨0, 1, .rw, 0x0⟩,
    ⟨16, 9, .ro, 0x0⟩]⟩

/-- Offset of IRT_CTL. -/
abbrev a_IRT_CTL : Nat := 0x500000
abbrev f_IRT_CTL_EN : FieldAt := (0, 1)
abbrev f_IRT_CTL_PINNED : FieldAt := (16, 9)

/-- IRT_DT (R345). -/
def d_IRT_DT : RegDesc := ⟨"IRT_DT", 345, 0x500010, [],
   [⟨0, 1, .rw, 0x0⟩,
    ⟨12, 40, .rw, 0x0⟩,
    ⟨52, 5, .rw, 0x0⟩]⟩

/-- Offset of IRT_DT. -/
abbrev a_IRT_DT : Nat := 0x500010
abbrev f_IRT_DT_V : FieldAt := (0, 1)
abbrev f_IRT_DT_BASE : FieldAt := (12, 40)
abbrev f_IRT_DT_SIZE_LOG2 : FieldAt := (52, 5)

/-- IRT_IT (R345). -/
def d_IRT_IT : RegDesc := ⟨"IRT_IT", 345, 0x500018, [],
   [⟨0, 1, .rw, 0x0⟩,
    ⟨12, 40, .rw, 0x0⟩,
    ⟨52, 5, .rw, 0x0⟩]⟩

/-- Offset of IRT_IT. -/
abbrev a_IRT_IT : Nat := 0x500018
abbrev f_IRT_IT_V : FieldAt := (0, 1)
abbrev f_IRT_IT_BASE : FieldAt := (12, 40)
abbrev f_IRT_IT_SIZE_LOG2 : FieldAt := (52, 5)

/-- IRT_VM (R345). -/
def d_IRT_VM : RegDesc := ⟨"IRT_VM", 345, 0x500020, [],
   [⟨0, 1, .rw, 0x0⟩,
    ⟨12, 40, .rw, 0x0⟩,
    ⟨52, 5, .rw, 0x0⟩]⟩

/-- Offset of IRT_VM. -/
abbrev a_IRT_VM : Nat := 0x500020
abbrev f_IRT_VM_V : FieldAt := (0, 1)
abbrev f_IRT_VM_BASE : FieldAt := (12, 40)
abbrev f_IRT_VM_SIZE_LOG2 : FieldAt := (52, 5)

/-- IRT_TCMD (R346). -/
def d_IRT_TCMD : RegDesc := ⟨"IRT_TCMD", 346, 0x500030, [],
   [⟨0, 4, .rw, 0x0⟩,
    ⟨4, 1, .rw, 0x0⟩,
    ⟨5, 20, .rw, 0x0⟩,
    ⟨25, 16, .rw, 0x0⟩,
    ⟨41, 3, .ro, 0x0⟩,
    ⟨63, 1, .w1s, 0x0⟩]⟩

/-- Offset of IRT_TCMD. -/
abbrev a_IRT_TCMD : Nat := 0x500030
abbrev f_IRT_TCMD_OP : FieldAt := (0, 4)
abbrev f_IRT_TCMD_INTERNAL : FieldAt := (4, 1)
abbrev f_IRT_TCMD_SOURCE : FieldAt := (5, 20)
abbrev f_IRT_TCMD_EVENT : FieldAt := (25, 16)
abbrev f_IRT_TCMD_RESULT : FieldAt := (41, 3)
abbrev f_IRT_TCMD_BUSY : FieldAt := (63, 1)

/-- IRT_CNT_COALESCED (R578). -/
def d_IRT_CNT_COALESCED : RegDesc := ⟨"IRT_CNT_COALESCED", 578, 0x500040, [],
   [⟨0, 48, .rw, 0x0⟩]⟩

/-- Offset of IRT_CNT_COALESCED. -/
abbrev a_IRT_CNT_COALESCED : Nat := 0x500040
abbrev f_IRT_CNT_COALESCED_VALUE : FieldAt := (0, 48)

/-- IRT_SHD_COALESCED (R578). -/
def d_IRT_SHD_COALESCED : RegDesc := ⟨"IRT_SHD_COALESCED", 578, 0x500048, [],
   [⟨0, 48, .ro, 0x0⟩]⟩

/-- Offset of IRT_SHD_COALESCED. -/
abbrev a_IRT_SHD_COALESCED : Nat := 0x500048
abbrev f_IRT_SHD_COALESCED_VALUE : FieldAt := (0, 48)

/-- IRT_THR (R347). -/
def d_IRT_THR : RegDesc := ⟨"IRT_THR", 347, 0x510000, [(0x8, 832)],
   [⟨0, 1, .rw, 0x0⟩,
    ⟨1, 1, .ro, 0x0⟩,
    ⟨2, 2, .ro, 0x0⟩,
    ⟨7, 45, .rw, 0x0⟩]⟩

/-- Offset of IRT_THR. -/
abbrev a_IRT_THR (i0 : Nat) : Nat := 0x510000 + 0x8 * i0
abbrev f_IRT_THR_V : FieldAt := (0, 1)
abbrev f_IRT_THR_BUSY : FieldAt := (1, 1)
abbrev f_IRT_THR_RESULT : FieldAt := (2, 2)
abbrev f_IRT_THR_POSTREC : FieldAt := (7, 45)

/-- IRT_ACK_N (R348). -/
def d_IRT_ACK_N : RegDesc := ⟨"IRT_ACK_N", 348, 0x520000, [(0x8, 832)],
   [⟨0, 8, .rc, 0x0⟩,
    ⟨8, 1, .rc, 0x0⟩]⟩

/-- Offset of IRT_ACK_N. -/
abbrev a_IRT_ACK_N (i0 : Nat) : Nat := 0x520000 + 0x8 * i0
abbrev f_IRT_ACK_N_INTID : FieldAt := (0, 8)
abbrev f_IRT_ACK_N_VALID : FieldAt := (8, 1)

/-- IRT_ACK_S (R348). -/
def d_IRT_ACK_S : RegDesc := ⟨"IRT_ACK_S", 348, 0x530000, [(0x8, 832)],
   [⟨0, 8, .rc, 0x0⟩,
    ⟨8, 1, .rc, 0x0⟩]⟩

/-- Offset of IRT_ACK_S. -/
abbrev a_IRT_ACK_S (i0 : Nat) : Nat := 0x530000 + 0x8 * i0
abbrev f_IRT_ACK_S_INTID : FieldAt := (0, 8)
abbrev f_IRT_ACK_S_VALID : FieldAt := (8, 1)

/-- QOS_CLASS (R349). -/
def d_QOS_CLASS : RegDesc := ⟨"QOS_CLASS", 349, 0x600000, [(0x8, 64)],
   [⟨0, 2, .rw, 0x0⟩]⟩

/-- Offset of QOS_CLASS. -/
abbrev a_QOS_CLASS (i0 : Nat) : Nat := 0x600000 + 0x8 * i0
abbrev f_QOS_CLASS_MESHPRI : FieldAt := (0, 2)

/-- QOS_THR (R350). -/
def d_QOS_THR : RegDesc := ⟨"QOS_THR", 350, 0x610000, [(0x8, 832)],
   [⟨0, 6, .rw, 0x0⟩,
    ⟨8, 6, .rw, 0x0⟩]⟩

/-- Offset of QOS_THR. -/
abbrev a_QOS_THR (i0 : Nat) : Nat := 0x610000 + 0x8 * i0
abbrev f_QOS_THR_HOST_CLASS : FieldAt := (0, 6)
abbrev f_QOS_THR_GUEST_CLASS : FieldAt := (8, 6)

/-- QOS_MEMBW (R351). -/
def d_QOS_MEMBW : RegDesc := ⟨"QOS_MEMBW", 351, 0x620000, [(0x100, 64), (0x8, 20)],
   [⟨0, 8, .rw, 0x0⟩,
    ⟨8, 8, .rw, 0x0⟩]⟩

/-- Offset of QOS_MEMBW. -/
abbrev a_QOS_MEMBW (i0 : Nat) (i1 : Nat) : Nat := 0x620000 + 0x100 * i0 + 0x8 * i1
abbrev f_QOS_MEMBW_MIN : FieldAt := (0, 8)
abbrev f_QOS_MEMBW_MAX : FieldAt := (8, 8)

/-- QOS_USAGE (R352). -/
def d_QOS_USAGE : RegDesc := ⟨"QOS_USAGE", 352, 0x630000, [(0x8, 64)],
   [⟨0, 48, .ro, 0x0⟩]⟩

/-- Offset of QOS_USAGE. -/
abbrev a_QOS_USAGE (i0 : Nat) : Nat := 0x630000 + 0x8 * i0
abbrev f_QOS_USAGE_BYTES : FieldAt := (0, 48)

/-- QOS_TRST (R353). -/
def d_QOS_TRST : RegDesc := ⟨"QOS_TRST", 353, 0x6F0000, [],
   [⟨0, 16, .rw, 0x0⟩,
    ⟨16, 6, .rw, 0x0⟩,
    ⟨24, 2, .rw, 0x0⟩,
    ⟨48, 8, .ro, 0x0⟩,
    ⟨63, 1, .w1s, 0x0⟩]⟩

/-- Offset of QOS_TRST. -/
abbrev a_QOS_TRST : Nat := 0x6F0000
abbrev f_QOS_TRST_VMID : FieldAt := (0, 16)
abbrev f_QOS_TRST_CLASS : FieldAt := (16, 6)
abbrev f_QOS_TRST_OP : FieldAt := (24, 2)
abbrev f_QOS_TRST_RESULT : FieldAt := (48, 8)
abbrev f_QOS_TRST_GO : FieldAt := (63, 1)

/-- QOS_TRST_SLOT (R354). -/
def d_QOS_TRST_SLOT : RegDesc := ⟨"QOS_TRST_SLOT", 354, 0x6F0100, [(0x8, 8)],
   [⟨0, 16, .ro, 0x0⟩,
    ⟨16, 1, .ro, 0x0⟩,
    ⟨17, 1, .ro, 0x0⟩,
    ⟨18, 1, .ro, 0x0⟩,
    ⟨19, 3, .ro, 0x0⟩]⟩

/-- Offset of QOS_TRST_SLOT. -/
abbrev a_QOS_TRST_SLOT (i0 : Nat) : Nat := 0x6F0100 + 0x8 * i0
abbrev f_QOS_TRST_SLOT_VMID : FieldAt := (0, 16)
abbrev f_QOS_TRST_SLOT_VALID : FieldAt := (16, 1)
abbrev f_QOS_TRST_SLOT_DONE : FieldAt := (17, 1)
abbrev f_QOS_TRST_SLOT_TIMEOUT : FieldAt := (18, 1)
abbrev f_QOS_TRST_SLOT_STEP : FieldAt := (19, 3)

/-- LKP_CTL (R378). -/
def d_LKP_CTL : RegDesc := ⟨"LKP_CTL", 378, 0x300000, [],
   [⟨0, 1, .rws, 0x0⟩,
    ⟨8, 16, .rws, 0x3E8⟩]⟩

/-- Offset of LKP_CTL. -/
abbrev a_LKP_CTL : Nat := 0x300000
abbrev f_LKP_CTL_PTP_EN : FieldAt := (0, 1)
abbrev f_LKP_CTL_PTP_WAIT : FieldAt := (8, 16)

/-- LKP_STATUS (R379). -/
def d_LKP_STATUS : RegDesc := ⟨"LKP_STATUS", 379, 0x300008, [],
   [⟨0, 3, .ro, 0x0⟩,
    ⟨3, 1, .ro, 0x0⟩,
    ⟨4, 1, .ro, 0x0⟩,
    ⟨5, 1, .ro, 0x0⟩,
    ⟨8, 8, .ro, 0x0⟩]⟩

/-- Offset of LKP_STATUS. -/
abbrev a_LKP_STATUS : Nat := 0x300008
abbrev f_LKP_STATUS_STATE : FieldAt := (0, 3)
abbrev f_LKP_STATUS_REF_OK : FieldAt := (3, 1)
abbrev f_LKP_STATUS_CODE_OK : FieldAt := (4, 1)
abbrev f_LKP_STATUS_SLEWING : FieldAt := (5, 1)
abbrev f_LKP_STATUS_BAD_EPOCHS : FieldAt := (8, 8)

/-- LKP_EPOCH (R380). -/
def d_LKP_EPOCH : RegDesc := ⟨"LKP_EPOCH", 380, 0x300010, [],
   [⟨0, 64, .ro, 0x0⟩]⟩

/-- Offset of LKP_EPOCH. -/
abbrev a_LKP_EPOCH : Nat := 0x300010
abbrev f_LKP_EPOCH_VALUE : FieldAt := (0, 64)

/-- LKP_OFFSET (R380). -/
def d_LKP_OFFSET : RegDesc := ⟨"LKP_OFFSET", 380, 0x300018, [],
   [⟨0, 64, .ro, 0x0⟩]⟩

/-- Offset of LKP_OFFSET. -/
abbrev a_LKP_OFFSET : Nat := 0x300018
abbrev f_LKP_OFFSET_VALUE : FieldAt := (0, 64)

/-- LKP_SNAP_MT (R380). -/
def d_LKP_SNAP_MT : RegDesc := ⟨"LKP_SNAP_MT", 380, 0x300028, [],
   [⟨0, 64, .ro, 0x0⟩]⟩

/-- Offset of LKP_SNAP_MT. -/
abbrev a_LKP_SNAP_MT : Nat := 0x300028
abbrev f_LKP_SNAP_MT_VALUE : FieldAt := (0, 64)

/-- LKP_SYNC_LAST (R380). -/
def d_LKP_SYNC_LAST : RegDesc := ⟨"LKP_SYNC_LAST", 380, 0x300040, [],
   [⟨0, 64, .ro, 0x0⟩]⟩

/-- Offset of LKP_SYNC_LAST. -/
abbrev a_LKP_SYNC_LAST : Nat := 0x300040
abbrev f_LKP_SYNC_LAST_VALUE : FieldAt := (0, 64)

/-- LKP_SNAP_STAT (R381). -/
def d_LKP_SNAP_STAT : RegDesc := ⟨"LKP_SNAP_STAT", 381, 0x300020, [],
   [⟨0, 32, .ro, 0x0⟩,
    ⟨32, 1, .ro, 0x0⟩]⟩

/-- Offset of LKP_SNAP_STAT. -/
abbrev a_LKP_SNAP_STAT : Nat := 0x300020
abbrev f_LKP_SNAP_STAT_SEQ : FieldAt := (0, 32)
abbrev f_LKP_SNAP_STAT_PENDING : FieldAt := (32, 1)

/-- LKP_SYNC_CTL (R382). -/
def d_LKP_SYNC_CTL : RegDesc := ⟨"LKP_SYNC_CTL", 382, 0x300030, [],
   [⟨0, 1, .rw, 0x0⟩,
    ⟨16, 16, .rw, 0x0⟩]⟩

/-- Offset of LKP_SYNC_CTL. -/
abbrev a_LKP_SYNC_CTL : Nat := 0x300030
abbrev f_LKP_SYNC_CTL_ARMED : FieldAt := (0, 1)
abbrev f_LKP_SYNC_CTL_TIMEOUT : FieldAt := (16, 16)

/-- LKP_SYNC_STAT (R383). -/
def d_LKP_SYNC_STAT : RegDesc := ⟨"LKP_SYNC_STAT", 383, 0x300038, [],
   [⟨0, 32, .ro, 0x0⟩,
    ⟨32, 16, .rc, 0x0⟩,
    ⟨48, 1, .w1c, 0x0⟩]⟩

/-- Offset of LKP_SYNC_STAT. -/
abbrev a_LKP_SYNC_STAT : Nat := 0x300038
abbrev f_LKP_SYNC_STAT_ARRIVALS : FieldAt := (0, 32)
abbrev f_LKP_SYNC_STAT_UNARMED : FieldAt := (32, 16)
abbrev f_LKP_SYNC_STAT_TIMED_OUT : FieldAt := (48, 1)

/-- LKP_QUOTA (R384). -/
def d_LKP_QUOTA : RegDesc := ⟨"LKP_QUOTA", 384, 0x300100, [(0x8, 64)],
   [⟨0, 16, .ro, 0x0⟩,
    ⟨16, 7, .ro, 0x0⟩,
    ⟨23, 7, .ro, 0x0⟩,
    ⟨31, 1, .ro, 0x0⟩]⟩

/-- Offset of LKP_QUOTA. -/
abbrev a_LKP_QUOTA (i0 : Nat) : Nat := 0x300100 + 0x8 * i0
abbrev f_LKP_QUOTA_VMID : FieldAt := (0, 16)
abbrev f_LKP_QUOTA_QUOTA : FieldAt := (16, 7)
abbrev f_LKP_QUOTA_HELD : FieldAt := (23, 7)
abbrev f_LKP_QUOTA_VALID : FieldAt := (31, 1)

/-- LKP_SEC_RES (R385). -/
def d_LKP_SEC_RES : RegDesc := ⟨"LKP_SEC_RES", 385, 0x310000, [],
   [⟨0, 7, .wl, 0x0⟩]⟩

/-- Offset of LKP_SEC_RES. -/
abbrev a_LKP_SEC_RES : Nat := 0x310000
abbrev f_LKP_SEC_RES_COUNT : FieldAt := (0, 7)

/-- LKP_BERTH_FIRE (R386). -/
def d_LKP_BERTH_FIRE : RegDesc := ⟨"LKP_BERTH_FIRE", 386, 0x340000, [(0x1000, 64)],
   [⟨0, 64, .rw, 0x0⟩]⟩

/-- Offset of LKP_BERTH_FIRE. -/
abbrev a_LKP_BERTH_FIRE (i0 : Nat) : Nat := 0x340000 + 0x1000 * i0
abbrev f_LKP_BERTH_FIRE_FIRE : FieldAt := (0, 64)

/-- LKP_BERTH_PERIOD (R386). -/
def d_LKP_BERTH_PERIOD : RegDesc := ⟨"LKP_BERTH_PERIOD", 386, 0x340008, [(0x1000, 64)],
   [⟨0, 48, .rw, 0x0⟩]⟩

/-- Offset of LKP_BERTH_PERIOD. -/
abbrev a_LKP_BERTH_PERIOD (i0 : Nat) : Nat := 0x340008 + 0x1000 * i0
abbrev f_LKP_BERTH_PERIOD_PERIOD : FieldAt := (0, 48)

/-- LKP_BERTH_CFG (R386). -/
def d_LKP_BERTH_CFG : RegDesc := ⟨"LKP_BERTH_CFG", 386, 0x340010, [(0x1000, 64)],
   [⟨0, 1, .rw, 0x0⟩,
    ⟨1, 3, .rw, 0x0⟩,
    ⟨16, 16, .rw, 0x0⟩]⟩

/-- Offset of LKP_BERTH_CFG. -/
abbrev a_LKP_BERTH_CFG (i0 : Nat) : Nat := 0x340010 + 0x1000 * i0
abbrev f_LKP_BERTH_CFG_ARMED : FieldAt := (0, 1)
abbrev f_LKP_BERTH_CFG_ACTION : FieldAt := (1, 3)
abbrev f_LKP_BERTH_CFG_TOL : FieldAt := (16, 16)

/-- LKP_BERTH_TARGET (R386). -/
def d_LKP_BERTH_TARGET : RegDesc := ⟨"LKP_BERTH_TARGET", 386, 0x340018, [(0x1000, 64)],
   [⟨0, 16, .rw, 0x0⟩]⟩

/-- Offset of LKP_BERTH_TARGET. -/
abbrev a_LKP_BERTH_TARGET (i0 : Nat) : Nat := 0x340018 + 0x1000 * i0
abbrev f_LKP_BERTH_TARGET_TARGET : FieldAt := (0, 16)

/-- LKP_BERTH_OWNER (R386). -/
def d_LKP_BERTH_OWNER : RegDesc := ⟨"LKP_BERTH_OWNER", 386, 0x340020, [(0x1000, 64)],
   [⟨0, 16, .ro, 0x0⟩,
    ⟨16, 1, .ro, 0x0⟩,
    ⟨17, 1, .ro, 0x0⟩,
    ⟨18, 5, .ro, 0x0⟩,
    ⟨23, 1, .ro, 0x0⟩]⟩

/-- Offset of LKP_BERTH_OWNER. -/
abbrev a_LKP_BERTH_OWNER (i0 : Nat) : Nat := 0x340020 + 0x1000 * i0
abbrev f_LKP_BERTH_OWNER_VMID : FieldAt := (0, 16)
abbrev f_LKP_BERTH_OWNER_SEC : FieldAt := (16, 1)
abbrev f_LKP_BERTH_OWNER_ALLOC : FieldAt := (17, 1)
abbrev f_LKP_BERTH_OWNER_ACTMASK : FieldAt := (18, 5)
abbrev f_LKP_BERTH_OWNER_FIXED : FieldAt := (23, 1)

/-- LKP_BERTH_STAT (R386). -/
def d_LKP_BERTH_STAT : RegDesc := ⟨"LKP_BERTH_STAT", 386, 0x340028, [(0x1000, 64)],
   [⟨0, 32, .ro, 0x0⟩,
    ⟨32, 16, .ro, 0x0⟩]⟩

/-- Offset of LKP_BERTH_STAT. -/
abbrev a_LKP_BERTH_STAT (i0 : Nat) : Nat := 0x340028 + 0x1000 * i0
abbrev f_LKP_BERTH_STAT_FIRES : FieldAt := (0, 32)
abbrev f_LKP_BERTH_STAT_MISSES : FieldAt := (32, 16)

/-- LKP_BERTH_LAST (R386). -/
def d_LKP_BERTH_LAST : RegDesc := ⟨"LKP_BERTH_LAST", 386, 0x340030, [(0x1000, 64)],
   [⟨0, 64, .ro, 0x0⟩]⟩

/-- Offset of LKP_BERTH_LAST. -/
abbrev a_LKP_BERTH_LAST (i0 : Nat) : Nat := 0x340030 + 0x1000 * i0
abbrev f_LKP_BERTH_LAST_LAST : FieldAt := (0, 64)

/-- BRG_ENG_STAT (R412). -/
def d_BRG_ENG_STAT : RegDesc := ⟨"BRG_ENG_STAT", 412, 0x1000000, [(0x10000, 16)],
   [⟨0, 1, .ro, 0x0⟩,
    ⟨8, 8, .ro, 0x0⟩,
    ⟨16, 10, .ro, 0x0⟩]⟩

/-- Offset of BRG_ENG_STAT. -/
abbrev a_BRG_ENG_STAT (i0 : Nat) : Nat := 0x1000000 + 0x10000 * i0
abbrev f_BRG_ENG_STAT_POWERED : FieldAt := (0, 1)
abbrev f_BRG_ENG_STAT_ACTIVE : FieldAt := (8, 8)
abbrev f_BRG_ENG_STAT_RD_OUT : FieldAt := (16, 10)

/-- BRG_CH_CTL (R413). -/
def d_BRG_CH_CTL : RegDesc := ⟨"BRG_CH_CTL", 413, 0x1001000, [(0x10000, 16), (0x100, 8)],
   [⟨0, 1, .rw, 0x0⟩,
    ⟨1, 1, .rw, 0x0⟩,
    ⟨2, 1, .w1s, 0x0⟩,
    ⟨3, 1, .w1s, 0x0⟩]⟩

/-- Offset of BRG_CH_CTL. -/
abbrev a_BRG_CH_CTL (i0 : Nat) (i1 : Nat) : Nat := 0x1001000 + 0x10000 * i0 + 0x100 * i1
abbrev f_BRG_CH_CTL_ENABLE : FieldAt := (0, 1)
abbrev f_BRG_CH_CTL_HOLD : FieldAt := (1, 1)
abbrev f_BRG_CH_CTL_RESTART : FieldAt := (2, 1)
abbrev f_BRG_CH_CTL_ABORT : FieldAt := (3, 1)

/-- BRG_CH_STAT (R414). -/
def d_BRG_CH_STAT : RegDesc := ⟨"BRG_CH_STAT", 414, 0x1001008, [(0x10000, 16), (0x100, 8)],
   [⟨0, 3, .ro, 0x0⟩,
    ⟨4, 2, .ro, 0x0⟩,
    ⟨8, 4, .ro, 0x0⟩,
    ⟨12, 3, .ro, 0x0⟩,
    ⟨15, 1, .w1c, 0x0⟩,
    ⟨16, 16, .ro, 0x0⟩,
    ⟨32, 16, .ro, 0x0⟩]⟩

/-- Offset of BRG_CH_STAT. -/
abbrev a_BRG_CH_STAT (i0 : Nat) (i1 : Nat) : Nat := 0x1001008 + 0x10000 * i0 + 0x100 * i1
abbrev f_BRG_CH_STAT_STATE : FieldAt := (0, 3)
abbrev f_BRG_CH_STAT_ABORT_RESULT : FieldAt := (4, 2)
abbrev f_BRG_CH_STAT_CREDITS : FieldAt := (8, 4)
abbrev f_BRG_CH_STAT_INFLIGHT : FieldAt := (12, 3)
abbrev f_BRG_CH_STAT_CREDIT_LOST : FieldAt := (15, 1)
abbrev f_BRG_CH_STAT_HEAD : FieldAt := (16, 16)
abbrev f_BRG_CH_STAT_DONE_IDX : FieldAt := (32, 16)

/-- BRG_CH_TAIL (R415). -/
def d_BRG_CH_TAIL : RegDesc := ⟨"BRG_CH_TAIL", 415, 0x1001010, [(0x10000, 16), (0x100, 8)],
   [⟨0, 16, .rw, 0x0⟩]⟩

/-- Offset of BRG_CH_TAIL. -/
abbrev a_BRG_CH_TAIL (i0 : Nat) (i1 : Nat) : Nat := 0x1001010 + 0x10000 * i0 + 0x100 * i1
abbrev f_BRG_CH_TAIL_TAIL : FieldAt := (0, 16)

/-- BRG_CH_BASE (R416). -/
def d_BRG_CH_BASE : RegDesc := ⟨"BRG_CH_BASE", 416, 0x1001020, [(0x10000, 16), (0x100, 8)],
   [⟨12, 45, .ro, 0x0⟩]⟩

/-- Offset of BRG_CH_BASE. -/
abbrev a_BRG_CH_BASE (i0 : Nat) (i1 : Nat) : Nat := 0x1001020 + 0x10000 * i0 + 0x100 * i1
abbrev f_BRG_CH_BASE_BASE : FieldAt := (12, 45)

/-- BRG_CH_SBASE (R416). -/
def d_BRG_CH_SBASE : RegDesc := ⟨"BRG_CH_SBASE", 416, 0x1001040, [(0x10000, 16), (0x100, 8)],
   [⟨12, 45, .rw, 0x0⟩]⟩

/-- Offset of BRG_CH_SBASE. -/
abbrev a_BRG_CH_SBASE (i0 : Nat) (i1 : Nat) : Nat := 0x1001040 + 0x10000 * i0 + 0x100 * i1
abbrev f_BRG_CH_SBASE_BASE : FieldAt := (12, 45)

/-- BRG_CH_LIMIT (R416). -/
def d_BRG_CH_LIMIT : RegDesc := ⟨"BRG_CH_LIMIT", 416, 0x1001028, [(0x10000, 16), (0x100, 8)],
   [⟨0, 16, .ro, 0x0⟩]⟩

/-- Offset of BRG_CH_LIMIT. -/
abbrev a_BRG_CH_LIMIT (i0 : Nat) (i1 : Nat) : Nat := 0x1001028 + 0x10000 * i0 + 0x100 * i1
abbrev f_BRG_CH_LIMIT_LIMIT : FieldAt := (0, 16)

/-- BRG_CH_SLIMIT (R416). -/
def d_BRG_CH_SLIMIT : RegDesc := ⟨"BRG_CH_SLIMIT", 416, 0x1001048, [(0x10000, 16), (0x100, 8)],
   [⟨0, 16, .rw, 0x0⟩]⟩

/-- Offset of BRG_CH_SLIMIT. -/
abbrev a_BRG_CH_SLIMIT (i0 : Nat) (i1 : Nat) : Nat := 0x1001048 + 0x10000 * i0 + 0x100 * i1
abbrev f_BRG_CH_SLIMIT_LIMIT : FieldAt := (0, 16)

/-- BRG_CH_QOS (R416). -/
def d_BRG_CH_QOS : RegDesc := ⟨"BRG_CH_QOS", 416, 0x1001030, [(0x10000, 16), (0x100, 8)],
   [⟨0, 6, .ro, 0x0⟩,
    ⟨8, 2, .ro, 0x0⟩]⟩

/-- Offset of BRG_CH_QOS. -/
abbrev a_BRG_CH_QOS (i0 : Nat) (i1 : Nat) : Nat := 0x1001030 + 0x10000 * i0 + 0x100 * i1
abbrev f_BRG_CH_QOS_CLASS : FieldAt := (0, 6)
abbrev f_BRG_CH_QOS_PRIO : FieldAt := (8, 2)

/-- BRG_CH_SQOS (R416). -/
def d_BRG_CH_SQOS : RegDesc := ⟨"BRG_CH_SQOS", 416, 0x1001050, [(0x10000, 16), (0x100, 8)],
   [⟨0, 6, .rw, 0x0⟩,
    ⟨8, 2, .rw, 0x0⟩]⟩

/-- Offset of BRG_CH_SQOS. -/
abbrev a_BRG_CH_SQOS (i0 : Nat) (i1 : Nat) : Nat := 0x1001050 + 0x10000 * i0 + 0x100 * i1
abbrev f_BRG_CH_SQOS_CLASS : FieldAt := (0, 6)
abbrev f_BRG_CH_SQOS_PRIO : FieldAt := (8, 2)

/-- BRG_CH_SHADOW (R417). -/
def d_BRG_CH_SHADOW : RegDesc := ⟨"BRG_CH_SHADOW", 417, 0x1001058, [(0x10000, 16), (0x100, 8)],
   [⟨0, 1, .w1s, 0x0⟩,
    ⟨1, 1, .ro, 0x0⟩]⟩

/-- Offset of BRG_CH_SHADOW. -/
abbrev a_BRG_CH_SHADOW (i0 : Nat) (i1 : Nat) : Nat := 0x1001058 + 0x10000 * i0 + 0x100 * i1
abbrev f_BRG_CH_SHADOW_ARM : FieldAt := (0, 1)
abbrev f_BRG_CH_SHADOW_PENDING : FieldAt := (1, 1)

/-- BRG_CH_HANDOVER (R418). -/
def d_BRG_CH_HANDOVER : RegDesc := ⟨"BRG_CH_HANDOVER", 418, 0x1001060, [(0x10000, 16), (0x100, 8)],
   [⟨0, 16, .ro, 0x0⟩,
    ⟨16, 16, .ro, 0x0⟩,
    ⟨32, 32, .ro, 0x0⟩]⟩

/-- Offset of BRG_CH_HANDOVER. -/
abbrev a_BRG_CH_HANDOVER (i0 : Nat) (i1 : Nat) : Nat := 0x1001060 + 0x10000 * i0 + 0x100 * i1
abbrev f_BRG_CH_HANDOVER_PREV_HEAD : FieldAt := (0, 16)
abbrev f_BRG_CH_HANDOVER_PREV_TAIL : FieldAt := (16, 16)
abbrev f_BRG_CH_HANDOVER_COUNT : FieldAt := (32, 32)

/-- BRG_CH_ERR (R419). -/
def d_BRG_CH_ERR : RegDesc := ⟨"BRG_CH_ERR", 419, 0x1001068, [(0x10000, 16), (0x100, 8)],
   [⟨0, 8, .ro, 0x0⟩,
    ⟨16, 16, .ro, 0x0⟩,
    ⟨63, 1, .rc, 0x0⟩]⟩

/-- Offset of BRG_CH_ERR. -/
abbrev a_BRG_CH_ERR (i0 : Nat) (i1 : Nat) : Nat := 0x1001068 + 0x10000 * i0 + 0x100 * i1
abbrev f_BRG_CH_ERR_CODE : FieldAt := (0, 8)
abbrev f_BRG_CH_ERR_INDEX : FieldAt := (16, 16)
abbrev f_BRG_CH_ERR_VALID : FieldAt := (63, 1)

/-- RPT_LINK_CFG (R445). -/
def d_RPT_LINK_CFG : RegDesc := ⟨"RPT_LINK_CFG", 445, 0x2000000, [(0x100000, 8)],
   [⟨0, 3, .wl, 0x0⟩,
    ⟨4, 3, .rw, 0x6⟩]⟩

/-- Offset of RPT_LINK_CFG. -/
abbrev a_RPT_LINK_CFG (i0 : Nat) : Nat := 0x2000000 + 0x100000 * i0
abbrev f_RPT_LINK_CFG_BIFUR : FieldAt := (0, 3)
abbrev f_RPT_LINK_CFG_MAXRATE : FieldAt := (4, 3)

/-- RPT_LINK_STAT (R446). -/
def d_RPT_LINK_STAT : RegDesc := ⟨"RPT_LINK_STAT", 446, 0x2000100, [(0x100000, 8), (0x8, 4)],
   [⟨0, 1, .ro, 0x0⟩,
    ⟨1, 1, .ro, 0x0⟩,
    ⟨2, 1, .ro, 0x0⟩,
    ⟨4, 3, .ro, 0x0⟩,
    ⟨8, 5, .ro, 0x0⟩]⟩

/-- Offset of RPT_LINK_STAT. -/
abbrev a_RPT_LINK_STAT (i0 : Nat) (i1 : Nat) : Nat := 0x2000100 + 0x100000 * i0 + 0x8 * i1
abbrev f_RPT_LINK_STAT_UP : FieldAt := (0, 1)
abbrev f_RPT_LINK_STAT_CXL : FieldAt := (1, 1)
abbrev f_RPT_LINK_STAT_DPC : FieldAt := (2, 1)
abbrev f_RPT_LINK_STAT_RATE : FieldAt := (4, 3)
abbrev f_RPT_LINK_STAT_WIDTH : FieldAt := (8, 5)

/-- RPT_CPL_CTL (R447). -/
def d_RPT_CPL_CTL : RegDesc := ⟨"RPT_CPL_CTL", 447, 0x2000010, [(0x100000, 8)],
   [⟨0, 16, .rw, 0x2710⟩,
    ⟨16, 1, .rw, 0x0⟩]⟩

/-- Offset of RPT_CPL_CTL. -/
abbrev a_RPT_CPL_CTL (i0 : Nat) : Nat := 0x2000010 + 0x100000 * i0
abbrev f_RPT_CPL_CTL_TIMEOUT : FieldAt := (0, 16)
abbrev f_RPT_CPL_CTL_TIMEOUT_FAULT : FieldAt := (16, 1)

/-- RPT_CPL_STAT (R448). -/
def d_RPT_CPL_STAT : RegDesc := ⟨"RPT_CPL_STAT", 448, 0x2000018, [(0x100000, 8)],
   [⟨0, 16, .rc, 0x0⟩,
    ⟨16, 16, .rc, 0x0⟩,
    ⟨32, 10, .ro, 0x0⟩]⟩

/-- Offset of RPT_CPL_STAT. -/
abbrev a_RPT_CPL_STAT (i0 : Nat) : Nat := 0x2000018 + 0x100000 * i0
abbrev f_RPT_CPL_STAT_TIMEOUTS : FieldAt := (0, 16)
abbrev f_RPT_CPL_STAT_LATE : FieldAt := (16, 16)
abbrev f_RPT_CPL_STAT_QUARANTINED : FieldAt := (32, 10)

/-- WHF_LINK_CFG (R445). -/
def d_WHF_LINK_CFG : RegDesc := ⟨"WHF_LINK_CFG", 445, 0x2900000, [],
   [⟨0, 3, .wl, 0x0⟩,
    ⟨4, 3, .rw, 0x6⟩]⟩

/-- Offset of WHF_LINK_CFG. -/
abbrev a_WHF_LINK_CFG : Nat := 0x2900000
abbrev f_WHF_LINK_CFG_BIFUR : FieldAt := (0, 3)
abbrev f_WHF_LINK_CFG_MAXRATE : FieldAt := (4, 3)

/-- WHF_LINK_STAT (R446). -/
def d_WHF_LINK_STAT : RegDesc := ⟨"WHF_LINK_STAT", 446, 0x2900100, [(0x8, 4)],
   [⟨0, 1, .ro, 0x0⟩,
    ⟨1, 1, .ro, 0x0⟩,
    ⟨2, 1, .ro, 0x0⟩,
    ⟨4, 3, .ro, 0x0⟩,
    ⟨8, 5, .ro, 0x0⟩]⟩

/-- Offset of WHF_LINK_STAT. -/
abbrev a_WHF_LINK_STAT (i0 : Nat) : Nat := 0x2900100 + 0x8 * i0
abbrev f_WHF_LINK_STAT_UP : FieldAt := (0, 1)
abbrev f_WHF_LINK_STAT_CXL : FieldAt := (1, 1)
abbrev f_WHF_LINK_STAT_DPC : FieldAt := (2, 1)
abbrev f_WHF_LINK_STAT_RATE : FieldAt := (4, 3)
abbrev f_WHF_LINK_STAT_WIDTH : FieldAt := (8, 5)

/-- WHF_CPL_CTL (R447). -/
def d_WHF_CPL_CTL : RegDesc := ⟨"WHF_CPL_CTL", 447, 0x2900010, [],
   [⟨0, 16, .rw, 0x2710⟩,
    ⟨16, 1, .rw, 0x0⟩]⟩

/-- Offset of WHF_CPL_CTL. -/
abbrev a_WHF_CPL_CTL : Nat := 0x2900010
abbrev f_WHF_CPL_CTL_TIMEOUT : FieldAt := (0, 16)
abbrev f_WHF_CPL_CTL_TIMEOUT_FAULT : FieldAt := (16, 1)

/-- WHF_CPL_STAT (R448). -/
def d_WHF_CPL_STAT : RegDesc := ⟨"WHF_CPL_STAT", 448, 0x2900018, [],
   [⟨0, 16, .rc, 0x0⟩,
    ⟨16, 16, .rc, 0x0⟩,
    ⟨32, 10, .ro, 0x0⟩]⟩

/-- Offset of WHF_CPL_STAT. -/
abbrev a_WHF_CPL_STAT : Nat := 0x2900018
abbrev f_WHF_CPL_STAT_TIMEOUTS : FieldAt := (0, 16)
abbrev f_WHF_CPL_STAT_LATE : FieldAt := (16, 16)
abbrev f_WHF_CPL_STAT_QUARANTINED : FieldAt := (32, 10)

/-- RPT_HDM (R449). -/
def d_RPT_HDM : RegDesc := ⟨"RPT_HDM", 449, 0x2080000, [(0x100000, 8), (0x8, 8)],
   [⟨0, 1, .rw, 0x0⟩,
    ⟨1, 1, .ro, 0x0⟩,
    ⟨8, 24, .rw, 0x0⟩,
    ⟨32, 24, .rw, 0x0⟩]⟩

/-- Offset of RPT_HDM. -/
abbrev a_RPT_HDM (i0 : Nat) (i1 : Nat) : Nat := 0x2080000 + 0x100000 * i0 + 0x8 * i1
abbrev f_RPT_HDM_EN : FieldAt := (0, 1)
abbrev f_RPT_HDM_ERR : FieldAt := (1, 1)
abbrev f_RPT_HDM_BASE : FieldAt := (8, 24)
abbrev f_RPT_HDM_SIZE : FieldAt := (32, 24)

/-- WHF_ROLE (R450). -/
def d_WHF_ROLE : RegDesc := ⟨"WHF_ROLE", 450, 0x2980000, [],
   [⟨0, 1, .ro, 0x0⟩,
    ⟨8, 5, .ro, 0x0⟩,
    ⟨16, 1, .ro, 0x0⟩]⟩

/-- Offset of WHF_ROLE. -/
abbrev a_WHF_ROLE : Nat := 0x2980000
abbrev f_WHF_ROLE_ROLE : FieldAt := (0, 1)
abbrev f_WHF_ROLE_NUMVFS : FieldAt := (8, 5)
abbrev f_WHF_ROLE_PF1_BME : FieldAt := (16, 1)

/-- WHF_PW_CFG (R451). -/
def d_WHF_PW_CFG : RegDesc := ⟨"WHF_PW_CFG", 451, 0x2981000, [(0x20, 8)],
   [⟨0, 1, .rw, 0x0⟩,
    ⟨1, 1, .rw, 0x0⟩,
    ⟨20, 20, .rw, 0x0⟩,
    ⟨40, 21, .rw, 0x0⟩]⟩

/-- Offset of WHF_PW_CFG. -/
abbrev a_WHF_PW_CFG (i0 : Nat) : Nat := 0x2981000 + 0x20 * i0
abbrev f_WHF_PW_CFG_EN : FieldAt := (0, 1)
abbrev f_WHF_PW_CFG_DB : FieldAt := (1, 1)
abbrev f_WHF_PW_CFG_OFFSET : FieldAt := (20, 20)
abbrev f_WHF_PW_CFG_SIZE : FieldAt := (40, 21)

/-- WHF_PW_SCFG (R451). -/
def d_WHF_PW_SCFG : RegDesc := ⟨"WHF_PW_SCFG", 451, 0x2981010, [(0x20, 8)],
   [⟨0, 1, .rw, 0x0⟩,
    ⟨1, 1, .rw, 0x0⟩,
    ⟨20, 20, .rw, 0x0⟩,
    ⟨40, 21, .rw, 0x0⟩]⟩

/-- Offset of WHF_PW_SCFG. -/
abbrev a_WHF_PW_SCFG (i0 : Nat) : Nat := 0x2981010 + 0x20 * i0
abbrev f_WHF_PW_SCFG_EN : FieldAt := (0, 1)
abbrev f_WHF_PW_SCFG_DB : FieldAt := (1, 1)
abbrev f_WHF_PW_SCFG_OFFSET : FieldAt := (20, 20)
abbrev f_WHF_PW_SCFG_SIZE : FieldAt := (40, 21)

/-- WHF_PW_TGT (R451). -/
def d_WHF_PW_TGT : RegDesc := ⟨"WHF_PW_TGT", 451, 0x2981008, [(0x20, 8)],
   [⟨20, 37, .rw, 0x0⟩]⟩

/-- Offset of WHF_PW_TGT. -/
abbrev a_WHF_PW_TGT (i0 : Nat) : Nat := 0x2981008 + 0x20 * i0
abbrev f_WHF_PW_TGT_TARGET : FieldAt := (20, 37)

/-- WHF_PW_STGT (R451). -/
def d_WHF_PW_STGT : RegDesc := ⟨"WHF_PW_STGT", 451, 0x2981018, [(0x20, 8)],
   [⟨20, 37, .rw, 0x0⟩]⟩

/-- Offset of WHF_PW_STGT. -/
abbrev a_WHF_PW_STGT (i0 : Nat) : Nat := 0x2981018 + 0x20 * i0
abbrev f_WHF_PW_STGT_TARGET : FieldAt := (20, 37)

/-- WHF_PW_COMMIT (R452). -/
def d_WHF_PW_COMMIT : RegDesc := ⟨"WHF_PW_COMMIT", 452, 0x2981100, [],
   [⟨0, 8, .w1s, 0x0⟩,
    ⟨32, 16, .rc, 0x0⟩]⟩

/-- Offset of WHF_PW_COMMIT. -/
abbrev a_WHF_PW_COMMIT : Nat := 0x2981100
abbrev f_WHF_PW_COMMIT_COMMIT : FieldAt := (0, 8)
abbrev f_WHF_PW_COMMIT_MISSES : FieldAt := (32, 16)

/-- WHF_OUT (R453). -/
def d_WHF_OUT : RegDesc := ⟨"WHF_OUT", 453, 0x2982000, [(0x8, 17)],
   [⟨12, 52, .rw, 0x0⟩]⟩

/-- Offset of WHF_OUT. -/
abbrev a_WHF_OUT (i0 : Nat) : Nat := 0x2982000 + 0x8 * i0
abbrev f_WHF_OUT_HOST_BASE : FieldAt := (12, 52)

/-- WHF_VF_CTL (R454). -/
def d_WHF_VF_CTL : RegDesc := ⟨"WHF_VF_CTL", 454, 0x2983000, [(0x8, 16)],
   [⟨0, 1, .ro, 0x0⟩,
    ⟨1, 1, .ro, 0x0⟩,
    ⟨2, 1, .w1s, 0x0⟩,
    ⟨3, 1, .ro, 0x0⟩]⟩

/-- Offset of WHF_VF_CTL. -/
abbrev a_WHF_VF_CTL (i0 : Nat) : Nat := 0x2983000 + 0x8 * i0
abbrev f_WHF_VF_CTL_ENABLED : FieldAt := (0, 1)
abbrev f_WHF_VF_CTL_BME : FieldAt := (1, 1)
abbrev f_WHF_VF_CTL_RESET : FieldAt := (2, 1)
abbrev f_WHF_VF_CTL_BUSY : FieldAt := (3, 1)

/-- WHF_IRQ (R455). -/
def d_WHF_IRQ : RegDesc := ⟨"WHF_IRQ", 455, 0x2984000, [],
   [⟨0, 5, .rw, 0x0⟩,
    ⟨8, 8, .rw, 0x0⟩,
    ⟨63, 1, .w1s, 0x0⟩]⟩

/-- Offset of WHF_IRQ. -/
abbrev a_WHF_IRQ : Nat := 0x2984000
abbrev f_WHF_IRQ_FN : FieldAt := (0, 5)
abbrev f_WHF_IRQ_VECTOR : FieldAt := (8, 8)
abbrev f_WHF_IRQ_GO : FieldAt := (63, 1)

/-- STP_DBG_CMP (R476). -/
def d_STP_DBG_CMP : RegDesc := ⟨"STP_DBG_CMP", 476, 0x10020000, [(0x100000, 224), (0x100, 4), (0x8, 8)],
   [⟨0, 1, .rw, 0x0⟩,
    ⟨1, 1, .rw, 0x0⟩,
    ⟨2, 1, .rw, 0x0⟩,
    ⟨3, 54, .rw, 0x0⟩]⟩

/-- Offset of STP_DBG_CMP. -/
abbrev a_STP_DBG_CMP (i0 : Nat) (i1 : Nat) (i2 : Nat) : Nat := 0x10020000 + 0x100000 * i0 + 0x100 * i1 + 0x8 * i2
abbrev f_STP_DBG_CMP_EN : FieldAt := (0, 1)
abbrev f_STP_DBG_CMP_RD : FieldAt := (1, 1)
abbrev f_STP_DBG_CMP_WR : FieldAt := (2, 1)
abbrev f_STP_DBG_CMP_ADDR : FieldAt := (3, 54)

/-- TOL_CTL (R481). -/
def d_TOL_CTL : RegDesc := ⟨"TOL_CTL", 481, 0x100000000, [],
   [⟨0, 1, .w1l, 0x0⟩,
    ⟨8, 8, .ro, 0x0⟩,
    ⟨32, 32, .rc, 0x0⟩]⟩

/-- Offset of TOL_CTL. -/
abbrev a_TOL_CTL : Nat := 0x100000000
abbrev f_TOL_CTL_MAP_LOCK : FieldAt := (0, 1)
abbrev f_TOL_CTL_LIFECYCLE : FieldAt := (8, 8)
abbrev f_TOL_CTL_SUPPRESSED : FieldAt := (32, 32)

/-- TOL_CCS_MAP (R482). -/
def d_TOL_CCS_MAP : RegDesc := ⟨"TOL_CCS_MAP", 482, 0x100010000, [(0x8, 1024)],
   [⟨0, 64, .rw, 0xFFFFFFFFFFFFFFFF⟩]⟩

/-- Offset of TOL_CCS_MAP. -/
abbrev a_TOL_CCS_MAP (i0 : Nat) : Nat := 0x100010000 + 0x8 * i0
abbrev f_TOL_CCS_MAP_SECURE : FieldAt := (0, 64)

/-- TOL_SMR (R483). -/
def d_TOL_SMR : RegDesc := ⟨"TOL_SMR", 483, 0x100020000, [(0x8, 64)],
   [⟨0, 1, .rw, 0x0⟩,
    ⟨1, 1, .ro, 0x0⟩,
    ⟨2, 19, .rw, 0x0⟩,
    ⟨21, 31, .rw, 0x0⟩,
    ⟨52, 1, .w1l, 0x0⟩]⟩

/-- Offset of TOL_SMR. -/
abbrev a_TOL_SMR (i0 : Nat) : Nat := 0x100020000 + 0x8 * i0
abbrev f_TOL_SMR_EN : FieldAt := (0, 1)
abbrev f_TOL_SMR_ERR : FieldAt := (1, 1)
abbrev f_TOL_SMR_SIZE : FieldAt := (2, 19)
abbrev f_TOL_SMR_BASE : FieldAt := (21, 31)
abbrev f_TOL_SMR_LOCK : FieldAt := (52, 1)

/-- TOL_WDOG_CTL (R484). -/
def d_TOL_WDOG_CTL : RegDesc := ⟨"TOL_WDOG_CTL", 484, 0x100030000, [],
   [⟨0, 1, .w1l, 0x0⟩,
    ⟨16, 16, .rw, 0x0⟩,
    ⟨32, 8, .rw, 0x0⟩,
    ⟨42, 10, .rw, 0x0⟩]⟩

/-- Offset of TOL_WDOG_CTL. -/
abbrev a_TOL_WDOG_CTL : Nat := 0x100030000
abbrev f_TOL_WDOG_CTL_EN : FieldAt := (0, 1)
abbrev f_TOL_WDOG_CTL_TIMEOUT : FieldAt := (16, 16)
abbrev f_TOL_WDOG_CTL_WARN_INTID : FieldAt := (32, 8)
abbrev f_TOL_WDOG_CTL_WARN_THREAD : FieldAt := (42, 10)

/-- TOL_WDOG_STAT (R485). -/
def d_TOL_WDOG_STAT : RegDesc := ⟨"TOL_WDOG_STAT", 485, 0x100030008, [],
   [⟨0, 16, .ro, 0x0⟩,
    ⟨16, 16, .ro, 0x0⟩,
    ⟨32, 1, .w1c, 0x0⟩,
    ⟨40, 8, .ro, 0x0⟩,
    ⟨56, 8, .ro, 0x0⟩]⟩

/-- Offset of TOL_WDOG_STAT. -/
abbrev a_TOL_WDOG_STAT : Nat := 0x100030008
abbrev f_TOL_WDOG_STAT_TOKEN : FieldAt := (0, 16)
abbrev f_TOL_WDOG_STAT_REMAIN : FieldAt := (16, 16)
abbrev f_TOL_WDOG_STAT_WARNED : FieldAt := (32, 1)
abbrev f_TOL_WDOG_STAT_BAD_KICKS : FieldAt := (40, 8)
abbrev f_TOL_WDOG_STAT_EXPIRIES : FieldAt := (56, 8)

/-- TOL_WDOG_KICK (R486). -/
def d_TOL_WDOG_KICK : RegDesc := ⟨"TOL_WDOG_KICK", 486, 0x100030010, [],
   [⟨0, 16, .wo, 0x0⟩]⟩

/-- Offset of TOL_WDOG_KICK. -/
abbrev a_TOL_WDOG_KICK : Nat := 0x100030010
abbrev f_TOL_WDOG_KICK_VALUE : FieldAt := (0, 16)

/-- TOL_DBG_STAT (R487). -/
def d_TOL_DBG_STAT : RegDesc := ⟨"TOL_DBG_STAT", 487, 0x100040000, [],
   [⟨0, 4, .ro, 0x0⟩]⟩

/-- Offset of TOL_DBG_STAT. -/
abbrev a_TOL_DBG_STAT : Nat := 0x100040000
abbrev f_TOL_DBG_STAT_ENABLED : FieldAt := (0, 4)

/-- TOL_MBX_CMD (R488). -/
def d_TOL_MBX_CMD : RegDesc := ⟨"TOL_MBX_CMD", 488, 0x100050000, [],
   [⟨0, 4, .rw, 0x0⟩,
    ⟨63, 1, .w1s, 0x0⟩]⟩

/-- Offset of TOL_MBX_CMD. -/
abbrev a_TOL_MBX_CMD : Nat := 0x100050000
abbrev f_TOL_MBX_CMD_OP : FieldAt := (0, 4)
abbrev f_TOL_MBX_CMD_GO : FieldAt := (63, 1)

/-- TOL_MBX_ARG (R488). -/
def d_TOL_MBX_ARG : RegDesc := ⟨"TOL_MBX_ARG", 488, 0x100050008, [(0x8, 4)],
   [⟨0, 64, .rw, 0x0⟩]⟩

/-- Offset of TOL_MBX_ARG. -/
abbrev a_TOL_MBX_ARG (i0 : Nat) : Nat := 0x100050008 + 0x8 * i0
abbrev f_TOL_MBX_ARG_ARG : FieldAt := (0, 64)

/-- TOL_MBX_STAT (R488). -/
def d_TOL_MBX_STAT : RegDesc := ⟨"TOL_MBX_STAT", 488, 0x100050028, [],
   [⟨0, 4, .ro, 0x0⟩]⟩

/-- Offset of TOL_MBX_STAT. -/
abbrev a_TOL_MBX_STAT : Nat := 0x100050028
abbrev f_TOL_MBX_STAT_RESULT : FieldAt := (0, 4)

/-- PVC_STAT (R511). -/
def d_PVC_STAT : RegDesc := ⟨"PVC_STAT", 511, 0x400000, [],
   [⟨0, 1, .ro, 0x0⟩,
    ⟨1, 2, .ro, 0x0⟩,
    ⟨3, 1, .ro, 0x0⟩,
    ⟨8, 8, .ro, 0x84⟩,
    ⟨16, 11, .ro, 0x384⟩]⟩

/-- Offset of PVC_STAT. -/
abbrev a_PVC_STAT : Nat := 0x400000
abbrev f_PVC_STAT_HOST_DIRECT : FieldAt := (0, 1)
abbrev f_PVC_STAT_RING : FieldAt := (1, 2)
abbrev f_PVC_STAT_SYSREF_OK : FieldAt := (3, 1)
abbrev f_PVC_STAT_CAP : FieldAt := (8, 8)
abbrev f_PVC_STAT_LIMIT : FieldAt := (16, 11)

/-- PVC_CNT_DEFERRED (R578). -/
def d_PVC_CNT_DEFERRED : RegDesc := ⟨"PVC_CNT_DEFERRED", 578, 0x400040, [],
   [⟨0, 48, .rw, 0x0⟩]⟩

/-- Offset of PVC_CNT_DEFERRED. -/
abbrev a_PVC_CNT_DEFERRED : Nat := 0x400040
abbrev f_PVC_CNT_DEFERRED_VALUE : FieldAt := (0, 48)

/-- PVC_SHD_DEFERRED (R578). -/
def d_PVC_SHD_DEFERRED : RegDesc := ⟨"PVC_SHD_DEFERRED", 578, 0x400048, [],
   [⟨0, 48, .ro, 0x0⟩]⟩

/-- Offset of PVC_SHD_DEFERRED. -/
abbrev a_PVC_SHD_DEFERRED : Nat := 0x400048
abbrev f_PVC_SHD_DEFERRED_VALUE : FieldAt := (0, 48)

/-- PVC_DOM (R512). -/
def d_PVC_DOM : RegDesc := ⟨"PVC_DOM", 512, 0x410000, [(0x8, 788)],
   [⟨0, 8, .ro, 0x0⟩,
    ⟨8, 3, .ro, 0x0⟩,
    ⟨11, 2, .ro, 0x0⟩,
    ⟨13, 1, .ro, 0x0⟩,
    ⟨16, 14, .ro, 0x2710⟩]⟩

/-- Offset of PVC_DOM. -/
abbrev a_PVC_DOM (i0 : Nat) : Nat := 0x410000 + 0x8 * i0
abbrev f_PVC_DOM_VOTES : FieldAt := (0, 8)
abbrev f_PVC_DOM_STATE : FieldAt := (8, 3)
abbrev f_PVC_DOM_CLK : FieldAt := (11, 2)
abbrev f_PVC_DOM_DEFERRED : FieldAt := (13, 1)
abbrev f_PVC_DOM_TOKENS : FieldAt := (16, 14)

/-- PVC_WEAR (R513). -/
def d_PVC_WEAR : RegDesc := ⟨"PVC_WEAR", 513, 0x420000, [(0x8, 788)],
   [⟨0, 40, .ro, 0x0⟩,
    ⟨40, 1, .ro, 0x0⟩]⟩

/-- Offset of PVC_WEAR. -/
abbrev a_PVC_WEAR (i0 : Nat) : Nat := 0x420000 + 0x8 * i0
abbrev f_PVC_WEAR_SWITCHES : FieldAt := (0, 40)
abbrev f_PVC_WEAR_OVER : FieldAt := (40, 1)

/-- PVC_HYP_VOTE (R514). -/
def d_PVC_HYP_VOTE : RegDesc := ⟨"PVC_HYP_VOTE", 514, 0x430000, [(0x8, 788)],
   [⟨0, 1, .rw, 0x0⟩]⟩

/-- Offset of PVC_HYP_VOTE. -/
abbrev a_PVC_HYP_VOTE (i0 : Nat) : Nat := 0x430000 + 0x8 * i0
abbrev f_PVC_HYP_VOTE_VOTE : FieldAt := (0, 1)

/-- PVC_CLK (R514). -/
def d_PVC_CLK : RegDesc := ⟨"PVC_CLK", 514, 0x440000, [(0x8, 788)],
   [⟨0, 1, .rw, 0x0⟩]⟩

/-- Offset of PVC_CLK. -/
abbrev a_PVC_CLK (i0 : Nat) : Nat := 0x440000 + 0x8 * i0
abbrev f_PVC_CLK_CLKSTOP : FieldAt := (0, 1)

/-- PVC_SEC_VOTE (R514). -/
def d_PVC_SEC_VOTE : RegDesc := ⟨"PVC_SEC_VOTE", 514, 0x450000, [(0x8, 788)],
   [⟨0, 1, .rw, 0x0⟩]⟩

/-- Offset of PVC_SEC_VOTE. -/
abbrev a_PVC_SEC_VOTE (i0 : Nat) : Nat := 0x450000 + 0x8 * i0
abbrev f_PVC_SEC_VOTE_VOTE : FieldAt := (0, 1)

/-- GAL_TAIL (R544). -/
def d_GAL_TAIL : RegDesc := ⟨"GAL_TAIL", 544, 0x100000, [(0x10000, 4)],
   [⟨0, 16, .rw, 0x0⟩]⟩

/-- Offset of GAL_TAIL. -/
abbrev a_GAL_TAIL (i0 : Nat) : Nat := 0x100000 + 0x10000 * i0
abbrev f_GAL_TAIL_TAIL : FieldAt := (0, 16)

/-- GAL_PCONS (R544). -/
def d_GAL_PCONS : RegDesc := ⟨"GAL_PCONS", 544, 0x100008, [(0x10000, 4)],
   [⟨0, 16, .rw, 0x0⟩]⟩

/-- Offset of GAL_PCONS. -/
abbrev a_GAL_PCONS (i0 : Nat) : Nat := 0x100008 + 0x10000 * i0
abbrev f_GAL_PCONS_PCONS : FieldAt := (0, 16)

/-- GAL_CTL (R544). -/
def d_GAL_CTL : RegDesc := ⟨"GAL_CTL", 544, 0x101000, [(0x10000, 4)],
   [⟨0, 1, .rw, 0x0⟩,
    ⟨1, 4, .rw, 0x0⟩]⟩

/-- Offset of GAL_CTL. -/
abbrev a_GAL_CTL (i0 : Nat) : Nat := 0x101000 + 0x10000 * i0
abbrev f_GAL_CTL_EN : FieldAt := (0, 1)
abbrev f_GAL_CTL_SIZE_LOG2 : FieldAt := (1, 4)

/-- GAL_CBASE (R544). -/
def d_GAL_CBASE : RegDesc := ⟨"GAL_CBASE", 544, 0x101008, [(0x10000, 4)],
   [⟨12, 40, .rw, 0x0⟩]⟩

/-- Offset of GAL_CBASE. -/
abbrev a_GAL_CBASE (i0 : Nat) : Nat := 0x101008 + 0x10000 * i0
abbrev f_GAL_CBASE_BASE : FieldAt := (12, 40)

/-- GAL_PBASE (R544). -/
def d_GAL_PBASE : RegDesc := ⟨"GAL_PBASE", 544, 0x101010, [(0x10000, 4)],
   [⟨12, 40, .rw, 0x0⟩]⟩

/-- Offset of GAL_PBASE. -/
abbrev a_GAL_PBASE (i0 : Nat) : Nat := 0x101010 + 0x10000 * i0
abbrev f_GAL_PBASE_BASE : FieldAt := (12, 40)

/-- GAL_STAT (R544). -/
def d_GAL_STAT : RegDesc := ⟨"GAL_STAT", 544, 0x101018, [(0x10000, 4)],
   [⟨0, 16, .ro, 0x0⟩,
    ⟨16, 16, .ro, 0x0⟩,
    ⟨32, 13, .ro, 0x0⟩,
    ⟨48, 1, .w1c, 0x0⟩]⟩

/-- Offset of GAL_STAT. -/
abbrev a_GAL_STAT (i0 : Nat) : Nat := 0x101018 + 0x10000 * i0
abbrev f_GAL_STAT_HEAD : FieldAt := (0, 16)
abbrev f_GAL_STAT_PPROD : FieldAt := (16, 16)
abbrev f_GAL_STAT_INFLIGHT : FieldAt := (32, 13)
abbrev f_GAL_STAT_ERR : FieldAt := (48, 1)

/-- GAL_HEALTH (R545). -/
def d_GAL_HEALTH : RegDesc := ⟨"GAL_HEALTH", 545, 0x180000, [],
   [⟨0, 1, .ro, 0x0⟩,
    ⟨1, 3, .ro, 0x0⟩,
    ⟨8, 8, .ro, 0x0⟩,
    ⟨32, 32, .ro, 0x0⟩]⟩

/-- Offset of GAL_HEALTH. -/
abbrev a_GAL_HEALTH : Nat := 0x180000
abbrev f_GAL_HEALTH_REPLACE : FieldAt := (0, 1)
abbrev f_GAL_HEALTH_STATE : FieldAt := (1, 3)
abbrev f_GAL_HEALTH_RESTARTS : FieldAt := (8, 8)
abbrev f_GAL_HEALTH_FW_VERSION : FieldAt := (32, 32)

/-- GAL_RAS_CTL (R575). -/
def d_GAL_RAS_CTL : RegDesc := ⟨"GAL_RAS_CTL", 575, 0x190000, [],
   [⟨0, 1, .rws, 0x1⟩]⟩

/-- Offset of GAL_RAS_CTL. -/
abbrev a_GAL_RAS_CTL : Nat := 0x190000
abbrev f_GAL_RAS_CTL_SPARE_EN : FieldAt := (0, 1)

/-- GAL_REPLACE (R576). -/
def d_GAL_REPLACE : RegDesc := ⟨"GAL_REPLACE", 576, 0x190008, [],
   [⟨0, 8, .ro, 0x0⟩,
    ⟨32, 32, .ro, 0x0⟩]⟩

/-- Offset of GAL_REPLACE. -/
abbrev a_GAL_REPLACE : Nat := 0x190008
abbrev f_GAL_REPLACE_CAUSES : FieldAt := (0, 8)
abbrev f_GAL_REPLACE_FIRST_MT_LO : FieldAt := (32, 32)

/-- GAL_BOOT_STAT (R602). -/
def d_GAL_BOOT_STAT : RegDesc := ⟨"GAL_BOOT_STAT", 602, 0x190010, [],
   [⟨0, 4, .ro, 0x0⟩,
    ⟨8, 4, .ro, 0x0⟩,
    ⟨12, 1, .ro, 0x0⟩,
    ⟨13, 1, .ro, 0x0⟩,
    ⟨14, 1, .ro, 0x0⟩,
    ⟨16, 4, .ro, 0x0⟩,
    ⟨32, 32, .ro, 0x0⟩]⟩

/-- Offset of GAL_BOOT_STAT. -/
abbrev a_GAL_BOOT_STAT : Nat := 0x190010
abbrev f_GAL_BOOT_STAT_STAGE : FieldAt := (0, 4)
abbrev f_GAL_BOOT_STAT_HALT : FieldAt := (8, 4)
abbrev f_GAL_BOOT_STAT_SLOT : FieldAt := (12, 1)
abbrev f_GAL_BOOT_STAT_COLD : FieldAt := (13, 1)
abbrev f_GAL_BOOT_STAT_CFG_DEFAULTED : FieldAt := (14, 1)
abbrev f_GAL_BOOT_STAT_STRAPS : FieldAt := (16, 4)
abbrev f_GAL_BOOT_STAT_DURATION_US : FieldAt := (32, 32)

/-- GAL_THERM (R620). -/
def d_GAL_THERM : RegDesc := ⟨"GAL_THERM", 620, 0x190018, [],
   [⟨0, 8, .ro, 0x84⟩,
    ⟨8, 8, .ro, 0x84⟩,
    ⟨16, 8, .ro, 0x84⟩,
    ⟨24, 8, .ro, 0x84⟩,
    ⟨32, 4, .ro, 0x0⟩,
    ⟨36, 1, .ro, 0x0⟩,
    ⟨37, 1, .ro, 0x0⟩,
    ⟨40, 4, .ro, 0x0⟩]⟩

/-- Offset of GAL_THERM. -/
abbrev a_GAL_THERM : Nat := 0x190018
abbrev f_GAL_THERM_CEIL0 : FieldAt := (0, 8)
abbrev f_GAL_THERM_CEIL1 : FieldAt := (8, 8)
abbrev f_GAL_THERM_CEIL2 : FieldAt := (16, 8)
abbrev f_GAL_THERM_CEIL3 : FieldAt := (24, 8)
abbrev f_GAL_THERM_THROTTLE : FieldAt := (32, 4)
abbrev f_GAL_THERM_CRIT : FieldAt := (36, 1)
abbrev f_GAL_THERM_TRIP : FieldAt := (37, 1)
abbrev f_GAL_THERM_HBM_HOT : FieldAt := (40, 4)

/-- EVQ_PROD (R546). -/
def d_EVQ_PROD : RegDesc := ⟨"EVQ_PROD", 546, 0x200000, [(0x10000, 3)],
   [⟨0, 16, .ro, 0x0⟩]⟩

/-- Offset of EVQ_PROD. -/
abbrev a_EVQ_PROD (i0 : Nat) : Nat := 0x200000 + 0x10000 * i0
abbrev f_EVQ_PROD_PROD : FieldAt := (0, 16)

/-- EVQ_CONS (R546). -/
def d_EVQ_CONS : RegDesc := ⟨"EVQ_CONS", 546, 0x200008, [(0x10000, 3)],
   [⟨0, 16, .rw, 0x0⟩]⟩

/-- Offset of EVQ_CONS. -/
abbrev a_EVQ_CONS (i0 : Nat) : Nat := 0x200008 + 0x10000 * i0
abbrev f_EVQ_CONS_CONS : FieldAt := (0, 16)

/-- EVQ_CTL (R546). -/
def d_EVQ_CTL : RegDesc := ⟨"EVQ_CTL", 546, 0x200010, [(0x10000, 3)],
   [⟨0, 1, .rw, 0x0⟩,
    ⟨1, 1, .rw, 0x0⟩,
    ⟨2, 5, .rw, 0x0⟩,
    ⟨16, 16, .rw, 0x0⟩]⟩

/-- Offset of EVQ_CTL. -/
abbrev a_EVQ_CTL (i0 : Nat) : Nat := 0x200010 + 0x10000 * i0
abbrev f_EVQ_CTL_EN : FieldAt := (0, 1)
abbrev f_EVQ_CTL_NE_IRQ : FieldAt := (1, 1)
abbrev f_EVQ_CTL_SIZE_LOG2 : FieldAt := (2, 5)
abbrev f_EVQ_CTL_THRESH : FieldAt := (16, 16)

/-- EVQ_BASE (R546). -/
def d_EVQ_BASE : RegDesc := ⟨"EVQ_BASE", 546, 0x200018, [(0x10000, 3)],
   [⟨12, 40, .rw, 0x0⟩]⟩

/-- Offset of EVQ_BASE. -/
abbrev a_EVQ_BASE (i0 : Nat) : Nat := 0x200018 + 0x10000 * i0
abbrev f_EVQ_BASE_BASE : FieldAt := (12, 40)

/-- EVQ_STAT (R546). -/
def d_EVQ_STAT : RegDesc := ⟨"EVQ_STAT", 546, 0x200020, [(0x10000, 3)],
   [⟨0, 1, .w1c, 0x0⟩,
    ⟨1, 1, .w1c, 0x0⟩,
    ⟨16, 32, .rc, 0x0⟩]⟩

/-- Offset of EVQ_STAT. -/
abbrev a_EVQ_STAT (i0 : Nat) : Nat := 0x200020 + 0x10000 * i0
abbrev f_EVQ_STAT_OVF : FieldAt := (0, 1)
abbrev f_EVQ_STAT_FAULT : FieldAt := (1, 1)
abbrev f_EVQ_STAT_DROPPED : FieldAt := (16, 32)

/-- EVQ_SVC_FILTER (R546). -/
def d_EVQ_SVC_FILTER : RegDesc := ⟨"EVQ_SVC_FILTER", 546, 0x220028, [],
   [⟨0, 7, .rw, 0x70⟩]⟩

/-- Offset of EVQ_SVC_FILTER. -/
abbrev a_EVQ_SVC_FILTER : Nat := 0x220028
abbrev f_EVQ_SVC_FILTER_SEV_MASK : FieldAt := (0, 7)

/-- STP_RAS_STAT (R577). -/
def d_STP_RAS_STAT : RegDesc := ⟨"STP_RAS_STAT", 577, 0x100C0000, [(0x100000, 224)],
   [⟨0, 2, .ro, 0x0⟩,
    ⟨2, 1, .ro, 0x0⟩,
    ⟨16, 16, .rc, 0x0⟩,
    ⟨32, 8, .ro, 0x0⟩,
    ⟨63, 1, .rc, 0x0⟩]⟩

/-- Offset of STP_RAS_STAT. -/
abbrev a_STP_RAS_STAT (i0 : Nat) : Nat := 0x100C0000 + 0x100000 * i0
abbrev f_STP_RAS_STAT_CORE_STATE : FieldAt := (0, 2)
abbrev f_STP_RAS_STAT_FROZEN : FieldAt := (2, 1)
abbrev f_STP_RAS_STAT_CE_COUNT : FieldAt := (16, 16)
abbrev f_STP_RAS_STAT_UE_ARRAY : FieldAt := (32, 8)
abbrev f_STP_RAS_STAT_VALID : FieldAt := (63, 1)

/-- STP_PMU_SHD (R581). -/
def d_STP_PMU_SHD : RegDesc := ⟨"STP_PMU_SHD", 581, 0x10000000, [(0x100000, 224), (0x8, 8)],
   [⟨0, 64, .ro, 0x0⟩]⟩

/-- Offset of STP_PMU_SHD. -/
abbrev a_STP_PMU_SHD (i0 : Nat) (i1 : Nat) : Nat := 0x10000000 + 0x100000 * i0 + 0x8 * i1
abbrev f_STP_PMU_SHD_VALUE : FieldAt := (0, 64)

/-- STP_PMU_SHD_CYC (R581). -/
def d_STP_PMU_SHD_CYC : RegDesc := ⟨"STP_PMU_SHD_CYC", 581, 0x10000040, [(0x100000, 224), (0x8, 4)],
   [⟨0, 64, .ro, 0x0⟩]⟩

/-- Offset of STP_PMU_SHD_CYC. -/
abbrev a_STP_PMU_SHD_CYC (i0 : Nat) (i1 : Nat) : Nat := 0x10000040 + 0x100000 * i0 + 0x8 * i1
abbrev f_STP_PMU_SHD_CYC_VALUE : FieldAt := (0, 64)

/-- STP_PMU_SHD_RET (R581). -/
def d_STP_PMU_SHD_RET : RegDesc := ⟨"STP_PMU_SHD_RET", 581, 0x10000060, [(0x100000, 224), (0x8, 4)],
   [⟨0, 64, .ro, 0x0⟩]⟩

/-- Offset of STP_PMU_SHD_RET. -/
abbrev a_STP_PMU_SHD_RET (i0 : Nat) (i1 : Nat) : Nat := 0x10000060 + 0x100000 * i0 + 0x8 * i1
abbrev f_STP_PMU_SHD_RET_VALUE : FieldAt := (0, 64)

/-- STP_PMU_OVF (R581). -/
def d_STP_PMU_OVF : RegDesc := ⟨"STP_PMU_OVF", 581, 0x10000080, [(0x100000, 224)],
   [⟨0, 8, .w1c, 0x0⟩,
    ⟨8, 4, .w1c, 0x0⟩,
    ⟨12, 4, .w1c, 0x0⟩]⟩

/-- Offset of STP_PMU_OVF. -/
abbrev a_STP_PMU_OVF (i0 : Nat) : Nat := 0x10000080 + 0x100000 * i0
abbrev f_STP_PMU_OVF_PMC : FieldAt := (0, 8)
abbrev f_STP_PMU_OVF_CYC : FieldAt := (8, 4)
abbrev f_STP_PMU_OVF_RET : FieldAt := (12, 4)

/-- STP_PMU_SNAP_TAG (R581). -/
def d_STP_PMU_SNAP_TAG : RegDesc := ⟨"STP_PMU_SNAP_TAG", 581, 0x10000088, [(0x100000, 224)],
   [⟨0, 32, .ro, 0x0⟩]⟩

/-- Offset of STP_PMU_SNAP_TAG. -/
abbrev a_STP_PMU_SNAP_TAG (i0 : Nat) : Nat := 0x10000088 + 0x100000 * i0
abbrev f_STP_PMU_SNAP_TAG_TAG : FieldAt := (0, 32)

/-- STP_PMU_FIXCTL (R581). -/
def d_STP_PMU_FIXCTL : RegDesc := ⟨"STP_PMU_FIXCTL", 581, 0x10000090, [(0x100000, 224), (0x8, 4)],
   [⟨0, 1, .rw, 0x1⟩,
    ⟨1, 1, .rw, 0x1⟩,
    ⟨2, 4, .rw, 0xF⟩,
    ⟨6, 1, .rw, 0x1⟩,
    ⟨7, 1, .rw, 0x0⟩,
    ⟨8, 1, .rw, 0x0⟩,
    ⟨9, 1, .rw, 0x0⟩]⟩

/-- Offset of STP_PMU_FIXCTL. -/
abbrev a_STP_PMU_FIXCTL (i0 : Nat) (i1 : Nat) : Nat := 0x10000090 + 0x100000 * i0 + 0x8 * i1
abbrev f_STP_PMU_FIXCTL_EN_CYC : FieldAt := (0, 1)
abbrev f_STP_PMU_FIXCTL_EN_RET : FieldAt := (1, 1)
abbrev f_STP_PMU_FIXCTL_PL : FieldAt := (2, 4)
abbrev f_STP_PMU_FIXCTL_NS : FieldAt := (6, 1)
abbrev f_STP_PMU_FIXCTL_S : FieldAt := (7, 1)
abbrev f_STP_PMU_FIXCTL_IRQ_CYC : FieldAt := (8, 1)
abbrev f_STP_PMU_FIXCTL_IRQ_RET : FieldAt := (9, 1)

/-- STP_PMU_RANGE (R581). -/
def d_STP_PMU_RANGE : RegDesc := ⟨"STP_PMU_RANGE", 581, 0x10000100, [(0x100000, 224), (0x20, 8), (0x10, 2), (0x8, 2)],
   [⟨0, 52, .rw, 0x0⟩]⟩

/-- Offset of STP_PMU_RANGE. -/
abbrev a_STP_PMU_RANGE (i0 : Nat) (i1 : Nat) (i2 : Nat) (i3 : Nat) : Nat := 0x10000100 + 0x100000 * i0 + 0x20 * i1 + 0x10 * i2 + 0x8 * i3
abbrev f_STP_PMU_RANGE_ADDR : FieldAt := (0, 52)

/-- STP_PMU_SAMPLE_PC (R587). -/
def d_STP_PMU_SAMPLE_PC : RegDesc := ⟨"STP_PMU_SAMPLE_PC", 587, 0x10000200, [(0x100000, 224), (0x20, 4)],
   [⟨0, 64, .ro, 0x0⟩]⟩

/-- Offset of STP_PMU_SAMPLE_PC. -/
abbrev a_STP_PMU_SAMPLE_PC (i0 : Nat) (i1 : Nat) : Nat := 0x10000200 + 0x100000 * i0 + 0x20 * i1
abbrev f_STP_PMU_SAMPLE_PC_PC : FieldAt := (0, 64)

/-- STP_PMU_SAMPLE_MT (R587). -/
def d_STP_PMU_SAMPLE_MT : RegDesc := ⟨"STP_PMU_SAMPLE_MT", 587, 0x10000208, [(0x100000, 224), (0x20, 4)],
   [⟨0, 64, .ro, 0x0⟩]⟩

/-- Offset of STP_PMU_SAMPLE_MT. -/
abbrev a_STP_PMU_SAMPLE_MT (i0 : Nat) (i1 : Nat) : Nat := 0x10000208 + 0x100000 * i0 + 0x20 * i1
abbrev f_STP_PMU_SAMPLE_MT_MT : FieldAt := (0, 64)

/-- STP_PMU_SAMPLE_INFO (R587). -/
def d_STP_PMU_SAMPLE_INFO : RegDesc := ⟨"STP_PMU_SAMPLE_INFO", 587, 0x10000210, [(0x100000, 224), (0x20, 4)],
   [⟨0, 4, .ro, 0x0⟩,
    ⟨4, 2, .ro, 0x0⟩,
    ⟨6, 1, .ro, 0x0⟩,
    ⟨7, 1, .rc, 0x0⟩,
    ⟨8, 4, .ro, 0x0⟩,
    ⟨12, 1, .ro, 0x0⟩,
    ⟨16, 16, .ro, 0x0⟩]⟩

/-- Offset of STP_PMU_SAMPLE_INFO. -/
abbrev a_STP_PMU_SAMPLE_INFO (i0 : Nat) (i1 : Nat) : Nat := 0x10000210 + 0x100000 * i0 + 0x20 * i1
abbrev f_STP_PMU_SAMPLE_INFO_COUNTER : FieldAt := (0, 4)
abbrev f_STP_PMU_SAMPLE_INFO_LEVEL : FieldAt := (4, 2)
abbrev f_STP_PMU_SAMPLE_INFO_SEC : FieldAt := (6, 1)
abbrev f_STP_PMU_SAMPLE_INFO_VALID : FieldAt := (7, 1)
abbrev f_STP_PMU_SAMPLE_INFO_SKID : FieldAt := (8, 4)
abbrev f_STP_PMU_SAMPLE_INFO_LOST : FieldAt := (12, 1)
abbrev f_STP_PMU_SAMPLE_INFO_VMID : FieldAt := (16, 16)

/-- STP_PMU_SAMPLE_ADDR (R587). -/
def d_STP_PMU_SAMPLE_ADDR : RegDesc := ⟨"STP_PMU_SAMPLE_ADDR", 587, 0x10000218, [(0x100000, 224), (0x20, 4)],
   [⟨0, 64, .ro, 0x0⟩]⟩

/-- Offset of STP_PMU_SAMPLE_ADDR. -/
abbrev a_STP_PMU_SAMPLE_ADDR (i0 : Nat) (i1 : Nat) : Nat := 0x10000218 + 0x100000 * i0 + 0x20 * i1
abbrev f_STP_PMU_SAMPLE_ADDR_ADDR : FieldAt := (0, 64)

/-- STP_PMU_CNT (R581). -/
def d_STP_PMU_CNT : RegDesc := ⟨"STP_PMU_CNT", 581, 0x10000300, [(0x100000, 224), (0x8, 8)],
   [⟨0, 64, .ro, 0x0⟩]⟩

/-- Offset of STP_PMU_CNT. -/
abbrev a_STP_PMU_CNT (i0 : Nat) (i1 : Nat) : Nat := 0x10000300 + 0x100000 * i0 + 0x8 * i1
abbrev f_STP_PMU_CNT_VALUE : FieldAt := (0, 64)

/-- STP_PMU_CNT_CYC (R581). -/
def d_STP_PMU_CNT_CYC : RegDesc := ⟨"STP_PMU_CNT_CYC", 581, 0x10000340, [(0x100000, 224), (0x8, 4)],
   [⟨0, 64, .ro, 0x0⟩]⟩

/-- Offset of STP_PMU_CNT_CYC. -/
abbrev a_STP_PMU_CNT_CYC (i0 : Nat) (i1 : Nat) : Nat := 0x10000340 + 0x100000 * i0 + 0x8 * i1
abbrev f_STP_PMU_CNT_CYC_VALUE : FieldAt := (0, 64)

/-- STP_PMU_CNT_RET (R581). -/
def d_STP_PMU_CNT_RET : RegDesc := ⟨"STP_PMU_CNT_RET", 581, 0x10000360, [(0x100000, 224), (0x8, 4)],
   [⟨0, 64, .ro, 0x0⟩]⟩

/-- Offset of STP_PMU_CNT_RET. -/
abbrev a_STP_PMU_CNT_RET (i0 : Nat) (i1 : Nat) : Nat := 0x10000360 + 0x100000 * i0 + 0x8 * i1
abbrev f_STP_PMU_CNT_RET_VALUE : FieldAt := (0, 64)

/-- UNC_CFG_SL (R582). -/
def d_UNC_CFG_SL : RegDesc := ⟨"UNC_CFG_SL", 582, 0x10042000, [(0x100000, 224), (0x40, 4)],
   [⟨0, 10, .rw, 0x0⟩,
    ⟨10, 1, .rw, 0x0⟩,
    ⟨11, 1, .rw, 0x0⟩,
    ⟨12, 1, .rw, 0x0⟩,
    ⟨13, 1, .rw, 0x0⟩,
    ⟨14, 5, .rw, 0x0⟩,
    ⟨19, 1, .rw, 0x0⟩,
    ⟨20, 2, .rw, 0x0⟩]⟩

/-- Offset of UNC_CFG_SL. -/
abbrev a_UNC_CFG_SL (i0 : Nat) (i1 : Nat) : Nat := 0x10042000 + 0x100000 * i0 + 0x40 * i1
abbrev f_UNC_CFG_SL_EVENT : FieldAt := (0, 10)
abbrev f_UNC_CFG_SL_EN : FieldAt := (10, 1)
abbrev f_UNC_CFG_SL_OVF_IRQ : FieldAt := (11, 1)
abbrev f_UNC_CFG_SL_NS : FieldAt := (12, 1)
abbrev f_UNC_CFG_SL_S : FieldAt := (13, 1)
abbrev f_UNC_CFG_SL_CLASS : FieldAt := (14, 5)
abbrev f_UNC_CFG_SL_RANGE_EN : FieldAt := (19, 1)
abbrev f_UNC_CFG_SL_MASTER_KIND : FieldAt := (20, 2)

/-- UNC_CNT_SL (R582). -/
def d_UNC_CNT_SL : RegDesc := ⟨"UNC_CNT_SL", 582, 0x10042008, [(0x100000, 224), (0x40, 4)],
   [⟨0, 48, .rw, 0x0⟩]⟩

/-- Offset of UNC_CNT_SL. -/
abbrev a_UNC_CNT_SL (i0 : Nat) (i1 : Nat) : Nat := 0x10042008 + 0x100000 * i0 + 0x40 * i1
abbrev f_UNC_CNT_SL_VALUE : FieldAt := (0, 48)

/-- UNC_SHD_SL (R582). -/
def d_UNC_SHD_SL : RegDesc := ⟨"UNC_SHD_SL", 582, 0x10042010, [(0x100000, 224), (0x40, 4)],
   [⟨0, 48, .ro, 0x0⟩]⟩

/-- Offset of UNC_SHD_SL. -/
abbrev a_UNC_SHD_SL (i0 : Nat) (i1 : Nat) : Nat := 0x10042010 + 0x100000 * i0 + 0x40 * i1
abbrev f_UNC_SHD_SL_VALUE : FieldAt := (0, 48)

/-- UNC_MASTER_SL (R582). -/
def d_UNC_MASTER_SL : RegDesc := ⟨"UNC_MASTER_SL", 582, 0x10042018, [(0x100000, 224), (0x40, 4)],
   [⟨0, 20, .rw, 0x0⟩]⟩

/-- Offset of UNC_MASTER_SL. -/
abbrev a_UNC_MASTER_SL (i0 : Nat) (i1 : Nat) : Nat := 0x10042018 + 0x100000 * i0 + 0x40 * i1
abbrev f_UNC_MASTER_SL_MASTER : FieldAt := (0, 20)

/-- UNC_RANGE_SL (R582). -/
def d_UNC_RANGE_SL : RegDesc := ⟨"UNC_RANGE_SL", 582, 0x10042020, [(0x100000, 224), (0x40, 4), (0x10, 2), (0x8, 2)],
   [⟨0, 52, .rw, 0x0⟩]⟩

/-- Offset of UNC_RANGE_SL. -/
abbrev a_UNC_RANGE_SL (i0 : Nat) (i1 : Nat) (i2 : Nat) (i3 : Nat) : Nat := 0x10042020 + 0x100000 * i0 + 0x40 * i1 + 0x10 * i2 + 0x8 * i3
abbrev f_UNC_RANGE_SL_ADDR : FieldAt := (0, 52)

/-- UNC_OVF_SL (R582). -/
def d_UNC_OVF_SL : RegDesc := ⟨"UNC_OVF_SL", 582, 0x10042100, [(0x100000, 224)],
   [⟨0, 8, .w1c, 0x0⟩]⟩

/-- Offset of UNC_OVF_SL. -/
abbrev a_UNC_OVF_SL (i0 : Nat) : Nat := 0x10042100 + 0x100000 * i0
abbrev f_UNC_OVF_SL_OVF : FieldAt := (0, 8)

/-- UNC_SNAP_TAG_SL (R582). -/
def d_UNC_SNAP_TAG_SL : RegDesc := ⟨"UNC_SNAP_TAG_SL", 582, 0x10042108, [(0x100000, 224)],
   [⟨0, 32, .ro, 0x0⟩]⟩

/-- Offset of UNC_SNAP_TAG_SL. -/
abbrev a_UNC_SNAP_TAG_SL (i0 : Nat) : Nat := 0x10042108 + 0x100000 * i0
abbrev f_UNC_SNAP_TAG_SL_TAG : FieldAt := (0, 32)

/-- UNC_CFG_DMC (R582). -/
def d_UNC_CFG_DMC : RegDesc := ⟨"UNC_CFG_DMC", 582, 0x4000100, [(0x10000, 16), (0x40, 8)],
   [⟨0, 10, .rw, 0x0⟩,
    ⟨10, 1, .rw, 0x0⟩,
    ⟨12, 1, .rw, 0x0⟩,
    ⟨13, 1, .rw, 0x0⟩,
    ⟨14, 5, .rw, 0x0⟩,
    ⟨19, 1, .rw, 0x0⟩,
    ⟨20, 2, .rw, 0x0⟩]⟩

/-- Offset of UNC_CFG_DMC. -/
abbrev a_UNC_CFG_DMC (i0 : Nat) (i1 : Nat) : Nat := 0x4000100 + 0x10000 * i0 + 0x40 * i1
abbrev f_UNC_CFG_DMC_EVENT : FieldAt := (0, 10)
abbrev f_UNC_CFG_DMC_EN : FieldAt := (10, 1)
abbrev f_UNC_CFG_DMC_NS : FieldAt := (12, 1)
abbrev f_UNC_CFG_DMC_S : FieldAt := (13, 1)
abbrev f_UNC_CFG_DMC_CLASS : FieldAt := (14, 5)
abbrev f_UNC_CFG_DMC_RANGE_EN : FieldAt := (19, 1)
abbrev f_UNC_CFG_DMC_MASTER_KIND : FieldAt := (20, 2)

/-- UNC_CNT_DMC (R582). -/
def d_UNC_CNT_DMC : RegDesc := ⟨"UNC_CNT_DMC", 582, 0x4000108, [(0x10000, 16), (0x40, 8)],
   [⟨0, 48, .rw, 0x0⟩]⟩

/-- Offset of UNC_CNT_DMC. -/
abbrev a_UNC_CNT_DMC (i0 : Nat) (i1 : Nat) : Nat := 0x4000108 + 0x10000 * i0 + 0x40 * i1
abbrev f_UNC_CNT_DMC_VALUE : FieldAt := (0, 48)

/-- UNC_SHD_DMC (R582). -/
def d_UNC_SHD_DMC : RegDesc := ⟨"UNC_SHD_DMC", 582, 0x4000110, [(0x10000, 16), (0x40, 8)],
   [⟨0, 48, .ro, 0x0⟩]⟩

/-- Offset of UNC_SHD_DMC. -/
abbrev a_UNC_SHD_DMC (i0 : Nat) (i1 : Nat) : Nat := 0x4000110 + 0x10000 * i0 + 0x40 * i1
abbrev f_UNC_SHD_DMC_VALUE : FieldAt := (0, 48)

/-- UNC_MASTER_DMC (R582). -/
def d_UNC_MASTER_DMC : RegDesc := ⟨"UNC_MASTER_DMC", 582, 0x4000118, [(0x10000, 16), (0x40, 8)],
   [⟨0, 20, .rw, 0x0⟩]⟩

/-- Offset of UNC_MASTER_DMC. -/
abbrev a_UNC_MASTER_DMC (i0 : Nat) (i1 : Nat) : Nat := 0x4000118 + 0x10000 * i0 + 0x40 * i1
abbrev f_UNC_MASTER_DMC_MASTER : FieldAt := (0, 20)

/-- UNC_RANGE_DMC (R582). -/
def d_UNC_RANGE_DMC : RegDesc := ⟨"UNC_RANGE_DMC", 582, 0x4000120, [(0x10000, 16), (0x40, 8), (0x10, 2), (0x8, 2)],
   [⟨0, 52, .rw, 0x0⟩]⟩

/-- Offset of UNC_RANGE_DMC. -/
abbrev a_UNC_RANGE_DMC (i0 : Nat) (i1 : Nat) (i2 : Nat) (i3 : Nat) : Nat := 0x4000120 + 0x10000 * i0 + 0x40 * i1 + 0x10 * i2 + 0x8 * i3
abbrev f_UNC_RANGE_DMC_ADDR : FieldAt := (0, 52)

/-- UNC_OVF_DMC (R582). -/
def d_UNC_OVF_DMC : RegDesc := ⟨"UNC_OVF_DMC", 582, 0x4000300, [(0x10000, 16)],
   [⟨0, 8, .w1c, 0x0⟩]⟩

/-- Offset of UNC_OVF_DMC. -/
abbrev a_UNC_OVF_DMC (i0 : Nat) : Nat := 0x4000300 + 0x10000 * i0
abbrev f_UNC_OVF_DMC_OVF : FieldAt := (0, 8)

/-- UNC_SNAP_TAG_DMC (R582). -/
def d_UNC_SNAP_TAG_DMC : RegDesc := ⟨"UNC_SNAP_TAG_DMC", 582, 0x4000308, [(0x10000, 16)],
   [⟨0, 32, .ro, 0x0⟩]⟩

/-- Offset of UNC_SNAP_TAG_DMC. -/
abbrev a_UNC_SNAP_TAG_DMC (i0 : Nat) : Nat := 0x4000308 + 0x10000 * i0
abbrev f_UNC_SNAP_TAG_DMC_TAG : FieldAt := (0, 32)

/-- UNC_BW_CTL_DMC (R588). -/
def d_UNC_BW_CTL_DMC : RegDesc := ⟨"UNC_BW_CTL_DMC", 588, 0x4000500, [(0x10000, 16)],
   [⟨0, 1, .rw, 0x0⟩,
    ⟨8, 32, .rw, 0x3E8⟩,
    ⟨40, 4, .ro, 0x0⟩]⟩

/-- Offset of UNC_BW_CTL_DMC. -/
abbrev a_UNC_BW_CTL_DMC (i0 : Nat) : Nat := 0x4000500 + 0x10000 * i0
abbrev f_UNC_BW_CTL_DMC_EN : FieldAt := (0, 1)
abbrev f_UNC_BW_CTL_DMC_L : FieldAt := (8, 32)
abbrev f_UNC_BW_CTL_DMC_LAST : FieldAt := (40, 4)

/-- UNC_BW_A_DMC (R588). -/
def d_UNC_BW_A_DMC : RegDesc := ⟨"UNC_BW_A_DMC", 588, 0x4000600, [(0x10000, 16), (0x8, 16)],
   [⟨0, 48, .ro, 0x0⟩,
    ⟨48, 16, .ro, 0x0⟩]⟩

/-- Offset of UNC_BW_A_DMC. -/
abbrev a_UNC_BW_A_DMC (i0 : Nat) (i1 : Nat) : Nat := 0x4000600 + 0x10000 * i0 + 0x8 * i1
abbrev f_UNC_BW_A_DMC_BYTES : FieldAt := (0, 48)
abbrev f_UNC_BW_A_DMC_WIN : FieldAt := (48, 16)

/-- UNC_BW_B_DMC (R588). -/
def d_UNC_BW_B_DMC : RegDesc := ⟨"UNC_BW_B_DMC", 588, 0x4000680, [(0x10000, 16), (0x8, 16)],
   [⟨0, 48, .ro, 0x0⟩,
    ⟨48, 16, .ro, 0x0⟩]⟩

/-- Offset of UNC_BW_B_DMC. -/
abbrev a_UNC_BW_B_DMC (i0 : Nat) (i1 : Nat) : Nat := 0x4000680 + 0x10000 * i0 + 0x8 * i1
abbrev f_UNC_BW_B_DMC_BYTES : FieldAt := (0, 48)
abbrev f_UNC_BW_B_DMC_WIN : FieldAt := (48, 16)

/-- UNC_CFG_HMC (R582). -/
def d_UNC_CFG_HMC : RegDesc := ⟨"UNC_CFG_HMC", 582, 0x5000100, [(0x100000, 4), (0x40, 8)],
   [⟨0, 10, .rw, 0x0⟩,
    ⟨10, 1, .rw, 0x0⟩,
    ⟨12, 1, .rw, 0x0⟩,
    ⟨13, 1, .rw, 0x0⟩,
    ⟨14, 5, .rw, 0x0⟩,
    ⟨19, 1, .rw, 0x0⟩,
    ⟨20, 2, .rw, 0x0⟩]⟩

/-- Offset of UNC_CFG_HMC. -/
abbrev a_UNC_CFG_HMC (i0 : Nat) (i1 : Nat) : Nat := 0x5000100 + 0x100000 * i0 + 0x40 * i1
abbrev f_UNC_CFG_HMC_EVENT : FieldAt := (0, 10)
abbrev f_UNC_CFG_HMC_EN : FieldAt := (10, 1)
abbrev f_UNC_CFG_HMC_NS : FieldAt := (12, 1)
abbrev f_UNC_CFG_HMC_S : FieldAt := (13, 1)
abbrev f_UNC_CFG_HMC_CLASS : FieldAt := (14, 5)
abbrev f_UNC_CFG_HMC_RANGE_EN : FieldAt := (19, 1)
abbrev f_UNC_CFG_HMC_MASTER_KIND : FieldAt := (20, 2)

/-- UNC_CNT_HMC (R582). -/
def d_UNC_CNT_HMC : RegDesc := ⟨"UNC_CNT_HMC", 582, 0x5000108, [(0x100000, 4), (0x40, 8)],
   [⟨0, 48, .rw, 0x0⟩]⟩

/-- Offset of UNC_CNT_HMC. -/
abbrev a_UNC_CNT_HMC (i0 : Nat) (i1 : Nat) : Nat := 0x5000108 + 0x100000 * i0 + 0x40 * i1
abbrev f_UNC_CNT_HMC_VALUE : FieldAt := (0, 48)

/-- UNC_SHD_HMC (R582). -/
def d_UNC_SHD_HMC : RegDesc := ⟨"UNC_SHD_HMC", 582, 0x5000110, [(0x100000, 4), (0x40, 8)],
   [⟨0, 48, .ro, 0x0⟩]⟩

/-- Offset of UNC_SHD_HMC. -/
abbrev a_UNC_SHD_HMC (i0 : Nat) (i1 : Nat) : Nat := 0x5000110 + 0x100000 * i0 + 0x40 * i1
abbrev f_UNC_SHD_HMC_VALUE : FieldAt := (0, 48)

/-- UNC_MASTER_HMC (R582). -/
def d_UNC_MASTER_HMC : RegDesc := ⟨"UNC_MASTER_HMC", 582, 0x5000118, [(0x100000, 4), (0x40, 8)],
   [⟨0, 20, .rw, 0x0⟩]⟩

/-- Offset of UNC_MASTER_HMC. -/
abbrev a_UNC_MASTER_HMC (i0 : Nat) (i1 : Nat) : Nat := 0x5000118 + 0x100000 * i0 + 0x40 * i1
abbrev f_UNC_MASTER_HMC_MASTER : FieldAt := (0, 20)

/-- UNC_RANGE_HMC (R582). -/
def d_UNC_RANGE_HMC : RegDesc := ⟨"UNC_RANGE_HMC", 582, 0x5000120, [(0x100000, 4), (0x40, 8), (0x10, 2), (0x8, 2)],
   [⟨0, 52, .rw, 0x0⟩]⟩

/-- Offset of UNC_RANGE_HMC. -/
abbrev a_UNC_RANGE_HMC (i0 : Nat) (i1 : Nat) (i2 : Nat) (i3 : Nat) : Nat := 0x5000120 + 0x100000 * i0 + 0x40 * i1 + 0x10 * i2 + 0x8 * i3
abbrev f_UNC_RANGE_HMC_ADDR : FieldAt := (0, 52)

/-- UNC_OVF_HMC (R582). -/
def d_UNC_OVF_HMC : RegDesc := ⟨"UNC_OVF_HMC", 582, 0x5000300, [(0x100000, 4)],
   [⟨0, 8, .w1c, 0x0⟩]⟩

/-- Offset of UNC_OVF_HMC. -/
abbrev a_UNC_OVF_HMC (i0 : Nat) : Nat := 0x5000300 + 0x100000 * i0
abbrev f_UNC_OVF_HMC_OVF : FieldAt := (0, 8)

/-- UNC_SNAP_TAG_HMC (R582). -/
def d_UNC_SNAP_TAG_HMC : RegDesc := ⟨"UNC_SNAP_TAG_HMC", 582, 0x5000308, [(0x100000, 4)],
   [⟨0, 32, .ro, 0x0⟩]⟩

/-- Offset of UNC_SNAP_TAG_HMC. -/
abbrev a_UNC_SNAP_TAG_HMC (i0 : Nat) : Nat := 0x5000308 + 0x100000 * i0
abbrev f_UNC_SNAP_TAG_HMC_TAG : FieldAt := (0, 32)

/-- UNC_BW_CTL_HMC (R588). -/
def d_UNC_BW_CTL_HMC : RegDesc := ⟨"UNC_BW_CTL_HMC", 588, 0x5000500, [(0x100000, 4)],
   [⟨0, 1, .rw, 0x0⟩,
    ⟨8, 32, .rw, 0x3E8⟩,
    ⟨40, 4, .ro, 0x0⟩]⟩

/-- Offset of UNC_BW_CTL_HMC. -/
abbrev a_UNC_BW_CTL_HMC (i0 : Nat) : Nat := 0x5000500 + 0x100000 * i0
abbrev f_UNC_BW_CTL_HMC_EN : FieldAt := (0, 1)
abbrev f_UNC_BW_CTL_HMC_L : FieldAt := (8, 32)
abbrev f_UNC_BW_CTL_HMC_LAST : FieldAt := (40, 4)

/-- UNC_BW_A_HMC (R588). -/
def d_UNC_BW_A_HMC : RegDesc := ⟨"UNC_BW_A_HMC", 588, 0x5000600, [(0x100000, 4), (0x8, 16)],
   [⟨0, 48, .ro, 0x0⟩,
    ⟨48, 16, .ro, 0x0⟩]⟩

/-- Offset of UNC_BW_A_HMC. -/
abbrev a_UNC_BW_A_HMC (i0 : Nat) (i1 : Nat) : Nat := 0x5000600 + 0x100000 * i0 + 0x8 * i1
abbrev f_UNC_BW_A_HMC_BYTES : FieldAt := (0, 48)
abbrev f_UNC_BW_A_HMC_WIN : FieldAt := (48, 16)

/-- UNC_BW_B_HMC (R588). -/
def d_UNC_BW_B_HMC : RegDesc := ⟨"UNC_BW_B_HMC", 588, 0x5000680, [(0x100000, 4), (0x8, 16)],
   [⟨0, 48, .ro, 0x0⟩,
    ⟨48, 16, .ro, 0x0⟩]⟩

/-- Offset of UNC_BW_B_HMC. -/
abbrev a_UNC_BW_B_HMC (i0 : Nat) (i1 : Nat) : Nat := 0x5000680 + 0x100000 * i0 + 0x8 * i1
abbrev f_UNC_BW_B_HMC_BYTES : FieldAt := (0, 48)
abbrev f_UNC_BW_B_HMC_WIN : FieldAt := (48, 16)

/-- UNC_CFG_AQ (R582). -/
def d_UNC_CFG_AQ : RegDesc := ⟨"UNC_CFG_AQ", 582, 0x6100100, [(0x10000, 38), (0x40, 4)],
   [⟨0, 10, .rw, 0x0⟩,
    ⟨10, 1, .rw, 0x0⟩,
    ⟨12, 1, .rw, 0x0⟩,
    ⟨13, 1, .rw, 0x0⟩,
    ⟨14, 5, .rw, 0x0⟩,
    ⟨19, 1, .rw, 0x0⟩,
    ⟨20, 2, .rw, 0x0⟩]⟩

/-- Offset of UNC_CFG_AQ. -/
abbrev a_UNC_CFG_AQ (i0 : Nat) (i1 : Nat) : Nat := 0x6100100 + 0x10000 * i0 + 0x40 * i1
abbrev f_UNC_CFG_AQ_EVENT : FieldAt := (0, 10)
abbrev f_UNC_CFG_AQ_EN : FieldAt := (10, 1)
abbrev f_UNC_CFG_AQ_NS : FieldAt := (12, 1)
abbrev f_UNC_CFG_AQ_S : FieldAt := (13, 1)
abbrev f_UNC_CFG_AQ_CLASS : FieldAt := (14, 5)
abbrev f_UNC_CFG_AQ_RANGE_EN : FieldAt := (19, 1)
abbrev f_UNC_CFG_AQ_MASTER_KIND : FieldAt := (20, 2)

/-- UNC_CNT_AQ (R582). -/
def d_UNC_CNT_AQ : RegDesc := ⟨"UNC_CNT_AQ", 582, 0x6100108, [(0x10000, 38), (0x40, 4)],
   [⟨0, 48, .rw, 0x0⟩]⟩

/-- Offset of UNC_CNT_AQ. -/
abbrev a_UNC_CNT_AQ (i0 : Nat) (i1 : Nat) : Nat := 0x6100108 + 0x10000 * i0 + 0x40 * i1
abbrev f_UNC_CNT_AQ_VALUE : FieldAt := (0, 48)

/-- UNC_SHD_AQ (R582). -/
def d_UNC_SHD_AQ : RegDesc := ⟨"UNC_SHD_AQ", 582, 0x6100110, [(0x10000, 38), (0x40, 4)],
   [⟨0, 48, .ro, 0x0⟩]⟩

/-- Offset of UNC_SHD_AQ. -/
abbrev a_UNC_SHD_AQ (i0 : Nat) (i1 : Nat) : Nat := 0x6100110 + 0x10000 * i0 + 0x40 * i1
abbrev f_UNC_SHD_AQ_VALUE : FieldAt := (0, 48)

/-- UNC_MASTER_AQ (R582). -/
def d_UNC_MASTER_AQ : RegDesc := ⟨"UNC_MASTER_AQ", 582, 0x6100118, [(0x10000, 38), (0x40, 4)],
   [⟨0, 20, .rw, 0x0⟩]⟩

/-- Offset of UNC_MASTER_AQ. -/
abbrev a_UNC_MASTER_AQ (i0 : Nat) (i1 : Nat) : Nat := 0x6100118 + 0x10000 * i0 + 0x40 * i1
abbrev f_UNC_MASTER_AQ_MASTER : FieldAt := (0, 20)

/-- UNC_RANGE_AQ (R582). -/
def d_UNC_RANGE_AQ : RegDesc := ⟨"UNC_RANGE_AQ", 582, 0x6100120, [(0x10000, 38), (0x40, 4), (0x10, 2), (0x8, 2)],
   [⟨0, 52, .rw, 0x0⟩]⟩

/-- Offset of UNC_RANGE_AQ. -/
abbrev a_UNC_RANGE_AQ (i0 : Nat) (i1 : Nat) (i2 : Nat) (i3 : Nat) : Nat := 0x6100120 + 0x10000 * i0 + 0x40 * i1 + 0x10 * i2 + 0x8 * i3
abbrev f_UNC_RANGE_AQ_ADDR : FieldAt := (0, 52)

/-- UNC_OVF_AQ (R582). -/
def d_UNC_OVF_AQ : RegDesc := ⟨"UNC_OVF_AQ", 582, 0x6100200, [(0x10000, 38)],
   [⟨0, 8, .w1c, 0x0⟩]⟩

/-- Offset of UNC_OVF_AQ. -/
abbrev a_UNC_OVF_AQ (i0 : Nat) : Nat := 0x6100200 + 0x10000 * i0
abbrev f_UNC_OVF_AQ_OVF : FieldAt := (0, 8)

/-- UNC_SNAP_TAG_AQ (R582). -/
def d_UNC_SNAP_TAG_AQ : RegDesc := ⟨"UNC_SNAP_TAG_AQ", 582, 0x6100208, [(0x10000, 38)],
   [⟨0, 32, .ro, 0x0⟩]⟩

/-- Offset of UNC_SNAP_TAG_AQ. -/
abbrev a_UNC_SNAP_TAG_AQ (i0 : Nat) : Nat := 0x6100208 + 0x10000 * i0
abbrev f_UNC_SNAP_TAG_AQ_TAG : FieldAt := (0, 32)

/-- UNC_BW_CTL_AQ (R588). -/
def d_UNC_BW_CTL_AQ : RegDesc := ⟨"UNC_BW_CTL_AQ", 588, 0x6100500, [(0x10000, 38)],
   [⟨0, 1, .rw, 0x0⟩,
    ⟨8, 32, .rw, 0x3E8⟩,
    ⟨40, 4, .ro, 0x0⟩]⟩

/-- Offset of UNC_BW_CTL_AQ. -/
abbrev a_UNC_BW_CTL_AQ (i0 : Nat) : Nat := 0x6100500 + 0x10000 * i0
abbrev f_UNC_BW_CTL_AQ_EN : FieldAt := (0, 1)
abbrev f_UNC_BW_CTL_AQ_L : FieldAt := (8, 32)
abbrev f_UNC_BW_CTL_AQ_LAST : FieldAt := (40, 4)

/-- UNC_BW_A_AQ (R588). -/
def d_UNC_BW_A_AQ : RegDesc := ⟨"UNC_BW_A_AQ", 588, 0x6100600, [(0x10000, 38), (0x8, 16)],
   [⟨0, 48, .ro, 0x0⟩,
    ⟨48, 16, .ro, 0x0⟩]⟩

/-- Offset of UNC_BW_A_AQ. -/
abbrev a_UNC_BW_A_AQ (i0 : Nat) (i1 : Nat) : Nat := 0x6100600 + 0x10000 * i0 + 0x8 * i1
abbrev f_UNC_BW_A_AQ_BYTES : FieldAt := (0, 48)
abbrev f_UNC_BW_A_AQ_WIN : FieldAt := (48, 16)

/-- UNC_BW_B_AQ (R588). -/
def d_UNC_BW_B_AQ : RegDesc := ⟨"UNC_BW_B_AQ", 588, 0x6100680, [(0x10000, 38), (0x8, 16)],
   [⟨0, 48, .ro, 0x0⟩,
    ⟨48, 16, .ro, 0x0⟩]⟩

/-- Offset of UNC_BW_B_AQ. -/
abbrev a_UNC_BW_B_AQ (i0 : Nat) (i1 : Nat) : Nat := 0x6100680 + 0x10000 * i0 + 0x8 * i1
abbrev f_UNC_BW_B_AQ_BYTES : FieldAt := (0, 48)
abbrev f_UNC_BW_B_AQ_WIN : FieldAt := (48, 16)

/-- UNC_CFG_RPT (R582). -/
def d_UNC_CFG_RPT : RegDesc := ⟨"UNC_CFG_RPT", 582, 0x2000200, [(0x100000, 8), (0x40, 8)],
   [⟨0, 10, .rw, 0x0⟩,
    ⟨10, 1, .rw, 0x0⟩,
    ⟨12, 1, .rw, 0x0⟩,
    ⟨13, 1, .rw, 0x0⟩,
    ⟨14, 5, .rw, 0x0⟩,
    ⟨19, 1, .rw, 0x0⟩,
    ⟨20, 2, .rw, 0x0⟩]⟩

/-- Offset of UNC_CFG_RPT. -/
abbrev a_UNC_CFG_RPT (i0 : Nat) (i1 : Nat) : Nat := 0x2000200 + 0x100000 * i0 + 0x40 * i1
abbrev f_UNC_CFG_RPT_EVENT : FieldAt := (0, 10)
abbrev f_UNC_CFG_RPT_EN : FieldAt := (10, 1)
abbrev f_UNC_CFG_RPT_NS : FieldAt := (12, 1)
abbrev f_UNC_CFG_RPT_S : FieldAt := (13, 1)
abbrev f_UNC_CFG_RPT_CLASS : FieldAt := (14, 5)
abbrev f_UNC_CFG_RPT_RANGE_EN : FieldAt := (19, 1)
abbrev f_UNC_CFG_RPT_MASTER_KIND : FieldAt := (20, 2)

/-- UNC_CNT_RPT (R582). -/
def d_UNC_CNT_RPT : RegDesc := ⟨"UNC_CNT_RPT", 582, 0x2000208, [(0x100000, 8), (0x40, 8)],
   [⟨0, 48, .rw, 0x0⟩]⟩

/-- Offset of UNC_CNT_RPT. -/
abbrev a_UNC_CNT_RPT (i0 : Nat) (i1 : Nat) : Nat := 0x2000208 + 0x100000 * i0 + 0x40 * i1
abbrev f_UNC_CNT_RPT_VALUE : FieldAt := (0, 48)

/-- UNC_SHD_RPT (R582). -/
def d_UNC_SHD_RPT : RegDesc := ⟨"UNC_SHD_RPT", 582, 0x2000210, [(0x100000, 8), (0x40, 8)],
   [⟨0, 48, .ro, 0x0⟩]⟩

/-- Offset of UNC_SHD_RPT. -/
abbrev a_UNC_SHD_RPT (i0 : Nat) (i1 : Nat) : Nat := 0x2000210 + 0x100000 * i0 + 0x40 * i1
abbrev f_UNC_SHD_RPT_VALUE : FieldAt := (0, 48)

/-- UNC_MASTER_RPT (R582). -/
def d_UNC_MASTER_RPT : RegDesc := ⟨"UNC_MASTER_RPT", 582, 0x2000218, [(0x100000, 8), (0x40, 8)],
   [⟨0, 20, .rw, 0x0⟩]⟩

/-- Offset of UNC_MASTER_RPT. -/
abbrev a_UNC_MASTER_RPT (i0 : Nat) (i1 : Nat) : Nat := 0x2000218 + 0x100000 * i0 + 0x40 * i1
abbrev f_UNC_MASTER_RPT_MASTER : FieldAt := (0, 20)

/-- UNC_RANGE_RPT (R582). -/
def d_UNC_RANGE_RPT : RegDesc := ⟨"UNC_RANGE_RPT", 582, 0x2000220, [(0x100000, 8), (0x40, 8), (0x10, 2), (0x8, 2)],
   [⟨0, 52, .rw, 0x0⟩]⟩

/-- Offset of UNC_RANGE_RPT. -/
abbrev a_UNC_RANGE_RPT (i0 : Nat) (i1 : Nat) (i2 : Nat) (i3 : Nat) : Nat := 0x2000220 + 0x100000 * i0 + 0x40 * i1 + 0x10 * i2 + 0x8 * i3
abbrev f_UNC_RANGE_RPT_ADDR : FieldAt := (0, 52)

/-- UNC_OVF_RPT (R582). -/
def d_UNC_OVF_RPT : RegDesc := ⟨"UNC_OVF_RPT", 582, 0x2000400, [(0x100000, 8)],
   [⟨0, 8, .w1c, 0x0⟩]⟩

/-- Offset of UNC_OVF_RPT. -/
abbrev a_UNC_OVF_RPT (i0 : Nat) : Nat := 0x2000400 + 0x100000 * i0
abbrev f_UNC_OVF_RPT_OVF : FieldAt := (0, 8)

/-- UNC_SNAP_TAG_RPT (R582). -/
def d_UNC_SNAP_TAG_RPT : RegDesc := ⟨"UNC_SNAP_TAG_RPT", 582, 0x2000408, [(0x100000, 8)],
   [⟨0, 32, .ro, 0x0⟩]⟩

/-- Offset of UNC_SNAP_TAG_RPT. -/
abbrev a_UNC_SNAP_TAG_RPT (i0 : Nat) : Nat := 0x2000408 + 0x100000 * i0
abbrev f_UNC_SNAP_TAG_RPT_TAG : FieldAt := (0, 32)

/-- UNC_BW_CTL_RPT (R588). -/
def d_UNC_BW_CTL_RPT : RegDesc := ⟨"UNC_BW_CTL_RPT", 588, 0x2000600, [(0x100000, 8)],
   [⟨0, 1, .rw, 0x0⟩,
    ⟨8, 32, .rw, 0x3E8⟩,
    ⟨40, 4, .ro, 0x0⟩]⟩

/-- Offset of UNC_BW_CTL_RPT. -/
abbrev a_UNC_BW_CTL_RPT (i0 : Nat) : Nat := 0x2000600 + 0x100000 * i0
abbrev f_UNC_BW_CTL_RPT_EN : FieldAt := (0, 1)
abbrev f_UNC_BW_CTL_RPT_L : FieldAt := (8, 32)
abbrev f_UNC_BW_CTL_RPT_LAST : FieldAt := (40, 4)

/-- UNC_BW_A_RPT (R588). -/
def d_UNC_BW_A_RPT : RegDesc := ⟨"UNC_BW_A_RPT", 588, 0x2000700, [(0x100000, 8), (0x8, 16)],
   [⟨0, 48, .ro, 0x0⟩,
    ⟨48, 16, .ro, 0x0⟩]⟩

/-- Offset of UNC_BW_A_RPT. -/
abbrev a_UNC_BW_A_RPT (i0 : Nat) (i1 : Nat) : Nat := 0x2000700 + 0x100000 * i0 + 0x8 * i1
abbrev f_UNC_BW_A_RPT_BYTES : FieldAt := (0, 48)
abbrev f_UNC_BW_A_RPT_WIN : FieldAt := (48, 16)

/-- UNC_BW_B_RPT (R588). -/
def d_UNC_BW_B_RPT : RegDesc := ⟨"UNC_BW_B_RPT", 588, 0x2000780, [(0x100000, 8), (0x8, 16)],
   [⟨0, 48, .ro, 0x0⟩,
    ⟨48, 16, .ro, 0x0⟩]⟩

/-- Offset of UNC_BW_B_RPT. -/
abbrev a_UNC_BW_B_RPT (i0 : Nat) (i1 : Nat) : Nat := 0x2000780 + 0x100000 * i0 + 0x8 * i1
abbrev f_UNC_BW_B_RPT_BYTES : FieldAt := (0, 48)
abbrev f_UNC_BW_B_RPT_WIN : FieldAt := (48, 16)

/-- UNC_CFG_WHF (R582). -/
def d_UNC_CFG_WHF : RegDesc := ⟨"UNC_CFG_WHF", 582, 0x2900200, [(0x40, 8)],
   [⟨0, 10, .rw, 0x0⟩,
    ⟨10, 1, .rw, 0x0⟩,
    ⟨12, 1, .rw, 0x0⟩,
    ⟨13, 1, .rw, 0x0⟩,
    ⟨14, 5, .rw, 0x0⟩,
    ⟨19, 1, .rw, 0x0⟩,
    ⟨20, 2, .rw, 0x0⟩]⟩

/-- Offset of UNC_CFG_WHF. -/
abbrev a_UNC_CFG_WHF (i0 : Nat) : Nat := 0x2900200 + 0x40 * i0
abbrev f_UNC_CFG_WHF_EVENT : FieldAt := (0, 10)
abbrev f_UNC_CFG_WHF_EN : FieldAt := (10, 1)
abbrev f_UNC_CFG_WHF_NS : FieldAt := (12, 1)
abbrev f_UNC_CFG_WHF_S : FieldAt := (13, 1)
abbrev f_UNC_CFG_WHF_CLASS : FieldAt := (14, 5)
abbrev f_UNC_CFG_WHF_RANGE_EN : FieldAt := (19, 1)
abbrev f_UNC_CFG_WHF_MASTER_KIND : FieldAt := (20, 2)

/-- UNC_CNT_WHF (R582). -/
def d_UNC_CNT_WHF : RegDesc := ⟨"UNC_CNT_WHF", 582, 0x2900208, [(0x40, 8)],
   [⟨0, 48, .rw, 0x0⟩]⟩

/-- Offset of UNC_CNT_WHF. -/
abbrev a_UNC_CNT_WHF (i0 : Nat) : Nat := 0x2900208 + 0x40 * i0
abbrev f_UNC_CNT_WHF_VALUE : FieldAt := (0, 48)

/-- UNC_SHD_WHF (R582). -/
def d_UNC_SHD_WHF : RegDesc := ⟨"UNC_SHD_WHF", 582, 0x2900210, [(0x40, 8)],
   [⟨0, 48, .ro, 0x0⟩]⟩

/-- Offset of UNC_SHD_WHF. -/
abbrev a_UNC_SHD_WHF (i0 : Nat) : Nat := 0x2900210 + 0x40 * i0
abbrev f_UNC_SHD_WHF_VALUE : FieldAt := (0, 48)

/-- UNC_MASTER_WHF (R582). -/
def d_UNC_MASTER_WHF : RegDesc := ⟨"UNC_MASTER_WHF", 582, 0x2900218, [(0x40, 8)],
   [⟨0, 20, .rw, 0x0⟩]⟩

/-- Offset of UNC_MASTER_WHF. -/
abbrev a_UNC_MASTER_WHF (i0 : Nat) : Nat := 0x2900218 + 0x40 * i0
abbrev f_UNC_MASTER_WHF_MASTER : FieldAt := (0, 20)

/-- UNC_RANGE_WHF (R582). -/
def d_UNC_RANGE_WHF : RegDesc := ⟨"UNC_RANGE_WHF", 582, 0x2900220, [(0x40, 8), (0x10, 2), (0x8, 2)],
   [⟨0, 52, .rw, 0x0⟩]⟩

/-- Offset of UNC_RANGE_WHF. -/
abbrev a_UNC_RANGE_WHF (i0 : Nat) (i1 : Nat) (i2 : Nat) : Nat := 0x2900220 + 0x40 * i0 + 0x10 * i1 + 0x8 * i2
abbrev f_UNC_RANGE_WHF_ADDR : FieldAt := (0, 52)

/-- UNC_OVF_WHF (R582). -/
def d_UNC_OVF_WHF : RegDesc := ⟨"UNC_OVF_WHF", 582, 0x2900400, [],
   [⟨0, 8, .w1c, 0x0⟩]⟩

/-- Offset of UNC_OVF_WHF. -/
abbrev a_UNC_OVF_WHF : Nat := 0x2900400
abbrev f_UNC_OVF_WHF_OVF : FieldAt := (0, 8)

/-- UNC_SNAP_TAG_WHF (R582). -/
def d_UNC_SNAP_TAG_WHF : RegDesc := ⟨"UNC_SNAP_TAG_WHF", 582, 0x2900408, [],
   [⟨0, 32, .ro, 0x0⟩]⟩

/-- Offset of UNC_SNAP_TAG_WHF. -/
abbrev a_UNC_SNAP_TAG_WHF : Nat := 0x2900408
abbrev f_UNC_SNAP_TAG_WHF_TAG : FieldAt := (0, 32)

/-- UNC_BW_CTL_WHF (R588). -/
def d_UNC_BW_CTL_WHF : RegDesc := ⟨"UNC_BW_CTL_WHF", 588, 0x2900600, [],
   [⟨0, 1, .rw, 0x0⟩,
    ⟨8, 32, .rw, 0x3E8⟩,
    ⟨40, 4, .ro, 0x0⟩]⟩

/-- Offset of UNC_BW_CTL_WHF. -/
abbrev a_UNC_BW_CTL_WHF : Nat := 0x2900600
abbrev f_UNC_BW_CTL_WHF_EN : FieldAt := (0, 1)
abbrev f_UNC_BW_CTL_WHF_L : FieldAt := (8, 32)
abbrev f_UNC_BW_CTL_WHF_LAST : FieldAt := (40, 4)

/-- UNC_BW_A_WHF (R588). -/
def d_UNC_BW_A_WHF : RegDesc := ⟨"UNC_BW_A_WHF", 588, 0x2900700, [(0x8, 16)],
   [⟨0, 48, .ro, 0x0⟩,
    ⟨48, 16, .ro, 0x0⟩]⟩

/-- Offset of UNC_BW_A_WHF. -/
abbrev a_UNC_BW_A_WHF (i0 : Nat) : Nat := 0x2900700 + 0x8 * i0
abbrev f_UNC_BW_A_WHF_BYTES : FieldAt := (0, 48)
abbrev f_UNC_BW_A_WHF_WIN : FieldAt := (48, 16)

/-- UNC_BW_B_WHF (R588). -/
def d_UNC_BW_B_WHF : RegDesc := ⟨"UNC_BW_B_WHF", 588, 0x2900780, [(0x8, 16)],
   [⟨0, 48, .ro, 0x0⟩,
    ⟨48, 16, .ro, 0x0⟩]⟩

/-- Offset of UNC_BW_B_WHF. -/
abbrev a_UNC_BW_B_WHF (i0 : Nat) : Nat := 0x2900780 + 0x8 * i0
abbrev f_UNC_BW_B_WHF_BYTES : FieldAt := (0, 48)
abbrev f_UNC_BW_B_WHF_WIN : FieldAt := (48, 16)

/-- UNC_CFG_BRG (R582). -/
def d_UNC_CFG_BRG : RegDesc := ⟨"UNC_CFG_BRG", 582, 0x1000100, [(0x10000, 16), (0x40, 4)],
   [⟨0, 10, .rw, 0x0⟩,
    ⟨10, 1, .rw, 0x0⟩,
    ⟨12, 1, .rw, 0x0⟩,
    ⟨13, 1, .rw, 0x0⟩,
    ⟨14, 5, .rw, 0x0⟩,
    ⟨19, 1, .rw, 0x0⟩,
    ⟨20, 2, .rw, 0x0⟩]⟩

/-- Offset of UNC_CFG_BRG. -/
abbrev a_UNC_CFG_BRG (i0 : Nat) (i1 : Nat) : Nat := 0x1000100 + 0x10000 * i0 + 0x40 * i1
abbrev f_UNC_CFG_BRG_EVENT : FieldAt := (0, 10)
abbrev f_UNC_CFG_BRG_EN : FieldAt := (10, 1)
abbrev f_UNC_CFG_BRG_NS : FieldAt := (12, 1)
abbrev f_UNC_CFG_BRG_S : FieldAt := (13, 1)
abbrev f_UNC_CFG_BRG_CLASS : FieldAt := (14, 5)
abbrev f_UNC_CFG_BRG_RANGE_EN : FieldAt := (19, 1)
abbrev f_UNC_CFG_BRG_MASTER_KIND : FieldAt := (20, 2)

/-- UNC_CNT_BRG (R582). -/
def d_UNC_CNT_BRG : RegDesc := ⟨"UNC_CNT_BRG", 582, 0x1000108, [(0x10000, 16), (0x40, 4)],
   [⟨0, 48, .rw, 0x0⟩]⟩

/-- Offset of UNC_CNT_BRG. -/
abbrev a_UNC_CNT_BRG (i0 : Nat) (i1 : Nat) : Nat := 0x1000108 + 0x10000 * i0 + 0x40 * i1
abbrev f_UNC_CNT_BRG_VALUE : FieldAt := (0, 48)

/-- UNC_SHD_BRG (R582). -/
def d_UNC_SHD_BRG : RegDesc := ⟨"UNC_SHD_BRG", 582, 0x1000110, [(0x10000, 16), (0x40, 4)],
   [⟨0, 48, .ro, 0x0⟩]⟩

/-- Offset of UNC_SHD_BRG. -/
abbrev a_UNC_SHD_BRG (i0 : Nat) (i1 : Nat) : Nat := 0x1000110 + 0x10000 * i0 + 0x40 * i1
abbrev f_UNC_SHD_BRG_VALUE : FieldAt := (0, 48)

/-- UNC_MASTER_BRG (R582). -/
def d_UNC_MASTER_BRG : RegDesc := ⟨"UNC_MASTER_BRG", 582, 0x1000118, [(0x10000, 16), (0x40, 4)],
   [⟨0, 20, .rw, 0x0⟩]⟩

/-- Offset of UNC_MASTER_BRG. -/
abbrev a_UNC_MASTER_BRG (i0 : Nat) (i1 : Nat) : Nat := 0x1000118 + 0x10000 * i0 + 0x40 * i1
abbrev f_UNC_MASTER_BRG_MASTER : FieldAt := (0, 20)

/-- UNC_RANGE_BRG (R582). -/
def d_UNC_RANGE_BRG : RegDesc := ⟨"UNC_RANGE_BRG", 582, 0x1000120, [(0x10000, 16), (0x40, 4), (0x10, 2), (0x8, 2)],
   [⟨0, 52, .rw, 0x0⟩]⟩

/-- Offset of UNC_RANGE_BRG. -/
abbrev a_UNC_RANGE_BRG (i0 : Nat) (i1 : Nat) (i2 : Nat) (i3 : Nat) : Nat := 0x1000120 + 0x10000 * i0 + 0x40 * i1 + 0x10 * i2 + 0x8 * i3
abbrev f_UNC_RANGE_BRG_ADDR : FieldAt := (0, 52)

/-- UNC_OVF_BRG (R582). -/
def d_UNC_OVF_BRG : RegDesc := ⟨"UNC_OVF_BRG", 582, 0x1000200, [(0x10000, 16)],
   [⟨0, 8, .w1c, 0x0⟩]⟩

/-- Offset of UNC_OVF_BRG. -/
abbrev a_UNC_OVF_BRG (i0 : Nat) : Nat := 0x1000200 + 0x10000 * i0
abbrev f_UNC_OVF_BRG_OVF : FieldAt := (0, 8)

/-- UNC_SNAP_TAG_BRG (R582). -/
def d_UNC_SNAP_TAG_BRG : RegDesc := ⟨"UNC_SNAP_TAG_BRG", 582, 0x1000208, [(0x10000, 16)],
   [⟨0, 32, .ro, 0x0⟩]⟩

/-- Offset of UNC_SNAP_TAG_BRG. -/
abbrev a_UNC_SNAP_TAG_BRG (i0 : Nat) : Nat := 0x1000208 + 0x10000 * i0
abbrev f_UNC_SNAP_TAG_BRG_TAG : FieldAt := (0, 32)

/-- Registers of the Galley block. -/
def regsGalley : List RegDesc := [d_GAL_TAIL, d_GAL_PCONS, d_GAL_CTL, d_GAL_CBASE, d_GAL_PBASE, d_GAL_STAT, d_GAL_HEALTH, d_GAL_RAS_CTL, d_GAL_REPLACE, d_GAL_BOOT_STAT, d_GAL_THERM]

/-- Registers of the Event Queue block. -/
def regsEventQueues : List RegDesc := [d_EVQ_PROD, d_EVQ_CONS, d_EVQ_CTL, d_EVQ_BASE, d_EVQ_STAT, d_EVQ_SVC_FILTER]

/-- Registers of the Lock-Keeper block. -/
def regsLockKeeper : List RegDesc := [d_LKP_CTL, d_LKP_STATUS, d_LKP_EPOCH, d_LKP_OFFSET, d_LKP_SNAP_MT, d_LKP_SYNC_LAST, d_LKP_SNAP_STAT, d_LKP_SYNC_CTL, d_LKP_SYNC_STAT, d_LKP_QUOTA, d_LKP_SEC_RES, d_LKP_BERTH_FIRE, d_LKP_BERTH_PERIOD, d_LKP_BERTH_CFG, d_LKP_BERTH_TARGET, d_LKP_BERTH_OWNER, d_LKP_BERTH_STAT, d_LKP_BERTH_LAST]

/-- Registers of the power voting controller block. -/
def regsPvc : List RegDesc := [d_PVC_STAT, d_PVC_CNT_DEFERRED, d_PVC_SHD_DEFERRED, d_PVC_DOM, d_PVC_WEAR, d_PVC_HYP_VOTE, d_PVC_CLK, d_PVC_SEC_VOTE]

/-- Registers of the Interrupt Router block. -/
def regsRouter : List RegDesc := [d_IRT_CTL, d_IRT_DT, d_IRT_IT, d_IRT_VM, d_IRT_TCMD, d_IRT_CNT_COALESCED, d_IRT_SHD_COALESCED, d_IRT_THR, d_IRT_ACK_N, d_IRT_ACK_S]

/-- Registers of the QoS controller block. -/
def regsQos : List RegDesc := [d_QOS_CLASS, d_QOS_THR, d_QOS_MEMBW, d_QOS_USAGE, d_QOS_TRST, d_QOS_TRST_SLOT]

/-- Registers of the Barge engine block. -/
def regsBarge : List RegDesc := [d_BRG_ENG_STAT, d_BRG_CH_CTL, d_BRG_CH_STAT, d_BRG_CH_TAIL, d_BRG_CH_BASE, d_BRG_CH_SBASE, d_BRG_CH_LIMIT, d_BRG_CH_SLIMIT, d_BRG_CH_QOS, d_BRG_CH_SQOS, d_BRG_CH_SHADOW, d_BRG_CH_HANDOVER, d_BRG_CH_ERR, d_UNC_CFG_BRG, d_UNC_CNT_BRG, d_UNC_SHD_BRG, d_UNC_MASTER_BRG, d_UNC_RANGE_BRG, d_UNC_OVF_BRG, d_UNC_SNAP_TAG_BRG]

/-- Registers of the root port block. -/
def regsRootPorts : List RegDesc := [d_RPT_LINK_CFG, d_RPT_LINK_STAT, d_RPT_CPL_CTL, d_RPT_CPL_STAT, d_RPT_HDM, d_UNC_CFG_RPT, d_UNC_CNT_RPT, d_UNC_SHD_RPT, d_UNC_MASTER_RPT, d_UNC_RANGE_RPT, d_UNC_OVF_RPT, d_UNC_SNAP_TAG_RPT, d_UNC_BW_CTL_RPT, d_UNC_BW_A_RPT, d_UNC_BW_B_RPT]

/-- Registers of the Wharf block. -/
def regsWharf : List RegDesc := [d_WHF_LINK_CFG, d_WHF_LINK_STAT, d_WHF_CPL_CTL, d_WHF_CPL_STAT, d_WHF_ROLE, d_WHF_PW_CFG, d_WHF_PW_SCFG, d_WHF_PW_TGT, d_WHF_PW_STGT, d_WHF_PW_COMMIT, d_WHF_OUT, d_WHF_VF_CTL, d_WHF_IRQ, d_UNC_CFG_WHF, d_UNC_CNT_WHF, d_UNC_SHD_WHF, d_UNC_MASTER_WHF, d_UNC_RANGE_WHF, d_UNC_OVF_WHF, d_UNC_SNAP_TAG_WHF, d_UNC_BW_CTL_WHF, d_UNC_BW_A_WHF, d_UNC_BW_B_WHF]

/-- Registers of the IOTU block. -/
def regsIotu : List RegDesc := [d_IOT_CTL, d_IOT_MSI_BASE, d_IOT_SRC, d_IOT_INV, d_IOT_INV_STAT, d_IOT_ATS_CTL, d_IOT_FAULT_STAT]

/-- Registers of the DDR5 controller block. -/
def regsDdr : List RegDesc := [d_DMC_CFG, d_DMC_SCHED, d_DMC_REF_CTL, d_DMC_DRFM_CTL, d_DMC_PWR_CTL, d_DMC_RAS_CTL, d_DMC_RAS_STAT, d_DMC_ERR_LOG, d_UNC_CFG_DMC, d_UNC_CNT_DMC, d_UNC_SHD_DMC, d_UNC_MASTER_DMC, d_UNC_RANGE_DMC, d_UNC_OVF_DMC, d_UNC_SNAP_TAG_DMC, d_UNC_BW_CTL_DMC, d_UNC_BW_A_DMC, d_UNC_BW_B_DMC]

/-- Registers of the HBM controller block. -/
def regsHbm : List RegDesc := [d_HMC_SCHED, d_HMC_REF_CTL, d_HMC_RFM_CTL, d_HMC_PWR_CTL, d_HMC_CFG, d_HMC_RAS_CTL, d_HMC_RAS_STAT, d_HMC_ERR_LOG, d_UNC_CFG_HMC, d_UNC_CNT_HMC, d_UNC_SHD_HMC, d_UNC_MASTER_HMC, d_UNC_RANGE_HMC, d_UNC_OVF_HMC, d_UNC_SNAP_TAG_HMC, d_UNC_BW_CTL_HMC, d_UNC_BW_A_HMC, d_UNC_BW_B_HMC]

/-- Registers of the mesh control and aqueduct block. -/
def regsMesh : List RegDesc := [d_MSH_PROTO_CTL, d_MSH_FAULT, d_MSH_AQ_STAT, d_MSH_MEM_CFG, d_MSH_NODE, d_UNC_CFG_AQ, d_UNC_CNT_AQ, d_UNC_SHD_AQ, d_UNC_MASTER_AQ, d_UNC_RANGE_AQ, d_UNC_OVF_AQ, d_UNC_SNAP_TAG_AQ, d_UNC_BW_CTL_AQ, d_UNC_BW_A_AQ, d_UNC_BW_B_AQ]

/-- Registers of the stop page block. -/
def regsStops : List RegDesc := [d_STP_LLC_CTL, d_STP_LLC_WAYSTAT, d_STP_LLC_WAYMASK, d_STP_LLC_QUOIN, d_STP_CORE_CACHESTAT, d_STP_DIR_STAT, d_STP_DBG_CMP, d_STP_RAS_STAT, d_STP_PMU_SHD, d_STP_PMU_SHD_CYC, d_STP_PMU_SHD_RET, d_STP_PMU_OVF, d_STP_PMU_SNAP_TAG, d_STP_PMU_FIXCTL, d_STP_PMU_RANGE, d_STP_PMU_SAMPLE_PC, d_STP_PMU_SAMPLE_MT, d_STP_PMU_SAMPLE_INFO, d_STP_PMU_SAMPLE_ADDR, d_STP_PMU_CNT, d_STP_PMU_CNT_CYC, d_STP_PMU_CNT_RET, d_UNC_CFG_SL, d_UNC_CNT_SL, d_UNC_SHD_SL, d_UNC_MASTER_SL, d_UNC_RANGE_SL, d_UNC_OVF_SL, d_UNC_SNAP_TAG_SL]

/-- Registers of the Tollhouse block. -/
def regsTollhouse : List RegDesc := [d_TOL_CTL, d_TOL_CCS_MAP, d_TOL_SMR, d_TOL_WDOG_CTL, d_TOL_WDOG_STAT, d_TOL_WDOG_KICK, d_TOL_DBG_STAT, d_TOL_MBX_CMD, d_TOL_MBX_ARG, d_TOL_MBX_STAT]

/-- The registers of the block whose range holds a CCS offset (01 R26). -/
def blockRegs (off : Nat) : List RegDesc :=
  if off < 0x200000 then regsGalley else
  if off < 0x300000 then regsEventQueues else
  if off < 0x400000 then regsLockKeeper else
  if off < 0x500000 then regsPvc else
  if off < 0x600000 then regsRouter else
  if off < 0x700000 then regsQos else
  if off < 0x2000000 then regsBarge else
  if off < 0x2900000 then regsRootPorts else
  if off < 0x3000000 then regsWharf else
  if off < 0x4000000 then regsIotu else
  if off < 0x5000000 then regsDdr else
  if off < 0x6000000 then regsHbm else
  if off < 0x10000000 then regsMesh else
  if off < 0x100000000 then regsStops else
  regsTollhouse


/-- First register of a list that holds a CCS offset, with the byte within it. -/
def findRegIn : List RegDesc → Nat → Option (RegDesc × Nat)
  | [], _ => none
  | r :: rs, off =>
    match r.byteOf off with
    | some b => some (r, b)
    | none => findRegIn rs off

/-- The register at a CCS offset, with the byte within it. -/
def findReg (off : Nat) : Option (RegDesc × Nat) := findRegIn (blockRegs off) off

end Sys2Proof.Machine
end

