-- ==== Sys2Proof/Machine/TolTypes.lean ====
section
/-! DEFINITION. Plain data of the Tollhouse and the debug port beyond their registers (spec/15_security.md R465–R478). -/
namespace Sys2Proof.Machine

/-- A mailbox operation under way (R468): OP and its arguments. -/
structure Mbx where
  op : Nat
  args : List Nat
  deriving DecidableEq, Repr

/-- The Tollhouse: whether OWNER_KEYS is written, and the two SHA-384 hashes it holds (R465), ROLLBACK, the mailbox operation under way, nonces by ring, generation of the last nonce, token buffers by ring · 2^16 + offset, EXPIRY of each debug enable (SI, SN, NI, NN), tick at which the watchdog's count began, logical thread and MT of the last correct kick, number of the last token drawn, whether the warning of this count was given; counter controls whose S bit a Normal write set (CCS offset, or 2^40 + 8 · stop + n for PMU_CFGn; 19 R583). -/
structure TolSt where
  ownerKeys : Bool
  ownerHash : BitVec 768
  rollback : Nat
  mbx : Option Mbx
  nonce : SMap (Option (BitVec 128))
  nonceGen : Nat
  tokens : List (Nat × Byte)
  expiry : SMap Nat
  wdogFrom : Nat
  kicker : Option Nat
  kickMt : Nat
  tokenGen : Nat
  warned : Bool
  normS : List Nat
  deriving DecidableEq, Repr

/-- Tollhouse at the first DONE: owner keys written (20 R602's example), their hashes as notes/assumptions/125.md names them. -/
def TolSt.reset : TolSt :=
  { ownerKeys := true, ownerHash := 0, rollback := 0, mbx := none, nonce := [], nonceGen := 0, tokens := [], expiry := [], wdogFrom := 0, kicker := none,
    kickMt := 0, tokenGen := 0, warned := false, normS := [] }

/-- The debug port (R470, R471): JTAG instruction in force (the opcodes of R471), what the last scan of the instruction register captured, boundary-scan register, whether it drives the lands, the selected data register, DEBUG_ADDR, DATA and ACK of the last operation. -/
structure JtagSt where
  ir : Nat
  irCapture : BitVec 8
  bscan : List Bool
  driving : Bool
  dr : BitVec 64
  addr : BitVec 64
  data : BitVec 64
  ack : Nat
  deriving DecidableEq, Repr

/-- Debug port after Test-Logic-Reset: IDCODE selected. -/
def JtagSt.reset : JtagSt := ⟨0x02, 0x01, [], false, 0, 0, 0, 0⟩

/-- Signal lands of the boundary-scan register by group of R604, in table order: DDR5; PERST_N of the nine ports; Time and Sync, and Clock, reset, status, each without an HCSL pair; Management without the JTAG pins (R471). -/
def bscanGroups : List Nat := [2432, 36, 8, 8, 31]
/-- Place of a cell (0 capture, 1 output, 2 output enable) of the land at a position of a group (R471). -/
def bscanCell (group pin cell : Nat) : Nat := 3 * ((bscanGroups.take group).sum + pin) + cell
/-- The level that boundary scan drives on a land, if it drives it. -/
def JtagSt.drives (j : JtagSt) (group pin : Nat) : Option Bool :=
  if j.driving && j.bscan.getD (bscanCell group pin 2) false then some (j.bscan.getD (bscanCell group pin 1) false) else none

end Sys2Proof.Machine
end

