-- ==== Sys2Proof/Machine/State.lean ====
section
/-! DEFINITION. The state of the GZ9 as plain data: everything the spec gives the machine, the queue of waiting commands, and State.reset. -/
namespace Sys2Proof.Machine
open Sys2Proof.Config

/-- Reasons a step can stop with a fault: none. The spec gives every command of the table an effect, an exception entry or an event as its outcome. -/
inductive Fault where
  deriving DecidableEq, Repr

/-- Reasons a step is refused. -/
inductive Refusal where
  /-- Raised by exec's arm of a command that has no meaning yet, by its mnemonic; safe (the model says nothing of it). -/
  | notModelled (mnemonic : String)
  deriving DecidableEq, Repr

/-- STATE of a core-map entry (01 Core map). -/
inductive CoreState where
  | active | spare | failed | fusedOff
  deriving DecidableEq, Repr

/-- One core-map entry: physical core (stop) and state. -/
structure CoreMapEnt where
  phys : Nat
  st : CoreState
  deriving DecidableEq, Repr

/-- Time (12 R355–R360): MT in ns, the count of MT_REFCLK cycles, of ns of the internal oscillator, ns since the last 10 ns edge, MT at that edge, and the seed of the deviations of the stops' copies (notes/assumptions/1.md, 94.md). -/
structure TimeSt where
  mt : Nat
  refCycles : Nat
  ticks : Nat
  sub : Nat
  edge : Nat
  skew : Nat
  deriving DecidableEq, Repr

/-- The state of the machine. -/
structure State where
  pending : List Instr
  freeCtr : Nat
  variant : Variant
  ccs : SMap Word
  locks : SMap Word
  seenPages : List Nat
  threads : SMap Thread
  cores : SMap CoreSt
  coreMap : List CoreMapEnt
  sparingGen : Nat
  activeCores : Nat
  coh : Coh
  time : TimeSt
  ev : EvSt
  memx : MemSt
  smrKey : SMap Nat
  keyGen : Nat
  pwr : PwrSt
  port : PortSt
  rtr : RtrSt
  iot : IotSt
  brgs : BrgSt
  lkp : LkpSt
  gal : GalSt
  tol : TolSt
  jtag : JtagSt
  msh : MshSt
  ras : RasSt
  boot : BootSt
  deriving DecidableEq, Repr

/-- Is a stop a spare in the reset core map (18 R563's example)? The last four stops of each tile. -/
def resetSpare (stop : Nat) : Bool := decide (52 ≤ stop % 56)

/-- VCFG at reset: 0x20, or zero where the long-vector unit is absent (06 R143, R146). -/
def vcfgReset (v : Variant) : Word := if hasLv v then 0x20#64 else 0#64

/-- Is stop p's core active at reset: the first active cores of its tile (18 R563's example places the spares last; fused-off cores of the other variants lie below them)? -/
def resetActive (v : Variant) (stop : Nat) : Bool := decide (stop % 56 < activePerTile v)

/-- The core map at the first cold boot (00 R1, R2; 01 R36): active cores, spares and fused-off cores, each in ascending physical order. -/
def resetCoreMap (v : Variant) : List CoreMapEnt :=
  ((List.range 224).filter (resetActive v)).map (fun p => ⟨p, .active⟩) ++
  ((List.range 224).filter resetSpare).map (fun p => ⟨p, .spare⟩) ++
  ((List.range 224).filter (fun p => !resetActive v p && !resetSpare p)).map (fun p => ⟨p, .fusedOff⟩)

/-- DDR5 channel c present (00 R1). -/
def ddrPresent (v : Variant) (c : Nat) : Bool := decide (c < ddrChannels v)

/-- Is the unit of power domain d absent on the variant (01 R33, 16 R489)? -/
def domAbsent (v : Variant) (d : Nat) : Bool :=
  if d < 224 then !(resetActive v d || resetSpare d)
  else if d < 448 then !hasLv v || !(resetActive v (d - 224) || resetSpare (d - 224))
  else if d < 710 then false
  else if d < 726 then !ddrPresent v (d - 710)
  else if d < 742 then !ddrPresent v (d - 726)
  else if d < 750 then !hasHbm v
  else if d < 758 then decide (rootPorts v ≤ d - 750)
  else if d < 766 then decide (rootPorts v ≤ d - 758)
  else false

/-- Is domain d's unit a held spare at reset? -/
def domSpare (d : Nat) : Bool := (decide (d < 224) && resetSpare d) || (decide (224 ≤ d) && decide (d < 448) && resetSpare (d - 224))

/-- HYP vote of a domain at reset (16 R514): its unit is in service and is no long-vector unit. -/
def hypReset (v : Variant) (d : Nat) : Bool := !domAbsent v d && !domSpare d && !(decide (224 ≤ d) && decide (d < 448))

/-- DEP vote at reset (16 R494): running cores, slices, memory controllers out of self-refresh, PHYs of running controllers, and I/O fabric segments with units on. -/
def depReset (v : Variant) (d : Nat) : Bool :=
  hypReset v d && (decide (d < 224) || (decide (448 ≤ d) && decide (d < 672)) || (decide (710 ≤ d) && decide (d < 750)) ||
    (decide (758 ≤ d) && decide (d < 766)) || d == 767 || (decide (784 ≤ d) && decide (d < 788)))

/-- PVC_DOM at reset (16 R512): votes, STATE (0 OFF, 2 ON, 5 ABSENT), a full token bucket. CLK is computed when the register is read. -/
def pvcDomReset (v : Variant) (d : Nat) : Nat :=
  let st := if domAbsent v d then 5 else if hypReset v d then 2 else 0
  (hypReset v d).toNat * 2 + (depReset v d).toNat * 16 + st * 2 ^ 8 + 10000 * 2 ^ 16

/-- MSH_NODE at reset (09 R246, R271), flat quadrant mode with one 64 GiB DIMM per channel: HBM nodes 0–3 and DDR nodes 4–7. -/
def mshNodeReset (v : Variant) (n : Nat) : Nat :=
  if n < 4 then (if hasHbm v then 1 + n * 2 ^ 8 + 48 * 2 ^ 24 + 2 ^ n * 2 ^ 40 else 0)
  else
    let chs := (List.range 4).filter (fun k => ddrPresent v (n - 4 + 4 * k))
    3 + (n - 3) * 16 * 2 ^ 8 + 64 * chs.length * 2 ^ 24 + (chs.map (fun k => 2 ^ (n - 4 + 4 * k))).sum * 2 ^ 40

/-- Registers of a block spaced `stride` from `base`: the index of the one at `off`. -/
def idxAt (off base stride count : Nat) : Option Nat :=
  if base ≤ off && (off - base) % stride == 0 && decide ((off - base) / stride < count) then some ((off - base) / stride) else none

/-- Reset values that the register tables give as "from training", "from the fuses" or "per state" (09 R271, R272, R281, 15 R481, R482, 16 R511–R514, 17 R545, 18 R577, 20 R602), or that the boot left (20 R598). -/
def ccsSpecial (v : Variant) (off : Nat) : Option Nat :=
  if off = a_GAL_BOOT_STAT then some 0x0023CFF800002008
  else if off = a_GAL_HEALTH then some 0x100000002
  else if off = a_TOL_CTL then some 0x100
  else if off = a_LKP_STATUS then some 8
  else if off = a_TOL_WDOG_STAT then some ((freeWord 0x477 0).toNat % 2 ^ 16)
  else if off = a_TOL_CCS_MAP 0 then some 0xFFFFFFFFFFFF0000
  else if off = a_PVC_STAT then some 0x3848408
  else match idxAt off (a_PVC_DOM 0) 8 788 with
  | some d => some (pvcDomReset v d)
  | none => match idxAt off (a_PVC_HYP_VOTE 0) 8 788 with
  | some d => some (hypReset v d).toNat
  | none => match idxAt off (a_MSH_NODE 0) 8 8 with
  | some n => some (mshNodeReset v n)
  | none => match idxAt off (a_DMC_CFG 0) 0x10000 16 with
  | some c => some (if ddrPresent v c then 1 + 1 * 4 + 64 * 2 ^ 16 + 8000 * 2 ^ 32 else 0)
  | none => match idxAt off (a_HMC_CFG 0) 0x100000 4 with
  | some _ => some (if hasHbm v then 48 + 9600 * 2 ^ 16 else 0)
  | none => match idxAt off (a_STP_RAS_STAT 0) 0x100000 224 with
  | some p => some (if resetActive v p then 0 else if resetSpare p then 1 else 3)
  | none => none

/-- Reset value of the register at a CCS offset (00 R10): the register tables, and `ccsSpecial` where they refer elsewhere. -/
def ccsReset (v : Variant) (off : Nat) : Word :=
  match ccsSpecial v off with
  | some x => BitVec.ofNat 64 x
  | none =>
    match findReg off with
    | some (r, _) => BitVec.ofNat 64 (fieldsReset r.fields)
    | none => 0#64

/-- A machine of each variant at DONE of its first cold boot (20 R598), in the configuration of 20 R602's worked example. -/
def State.resetOf (v : Variant) : State :=
  { pending := [], freeCtr := 0, variant := v, ccs := [], locks := [(a_MSH_PROTO_CTL, 1), (a_MSH_MEM_CFG, 7)], seenPages := [], threads := [], cores := [],
    coreMap := resetCoreMap v, sparingGen := 0, activeCores := 4 * activePerTile v, coh := Coh.empty, time := ⟨0, 0, 0, 0, 0, 0⟩,
    ev := EvSt.reset, memx := MemSt.reset, smrKey := [], keyGen := 0, pwr := PwrSt.reset, port := PortSt.reset, rtr := RtrSt.reset, iot := IotSt.reset,
    brgs := BrgSt.reset, lkp := LkpSt.reset, gal := GalSt.reset,
    tol := TolSt.reset, jtag := JtagSt.reset, msh := MshSt.reset, ras := RasSt.reset, boot := BootSt.reset }

/-- The machine after reset: a GZ9-208H, the part of every figure without a part number (00 R4). -/
def State.reset : State := State.resetOf .gz208H

end Sys2Proof.Machine
end

