-- ==== Sys2Proof/Machine/Ops.lean ====
section
/-! DEFINITION. Named operations over State: threads, cores, system state, Chip Control Space storage, the physical map and what the memory system needs of it, and taking an exception (spec/02_programmers_model.md R38–R61, spec/01_architecture.md R24, spec/09_memory.md R246–R250). -/
namespace Sys2Proof.Machine
open Sys2Proof.Config

/-! ### Threads and cores -/

/-- The state of a logical thread. -/
def State.thr (s : State) (t : Nat) : Thread := smGet (fun _ => Thread.reset (vcfgReset s.variant)) s.threads t
/-- Replace the state of a logical thread. -/
def State.setThr (s : State) (t : Nat) (th : Thread) : State :=
  { s with threads := smSet (fun _ => Thread.reset (vcfgReset s.variant)) s.threads t th }
/-- Change the state of a logical thread. -/
def State.updThr (s : State) (t : Nat) (f : Thread → Thread) : State := s.setThr t (f (s.thr t))
/-- The state of the core at a stop. -/
def State.core (s : State) (stop : Nat) : CoreSt := smGet (fun _ => CoreSt.reset) s.cores stop
/-- Replace the state of the core at a stop. -/
def State.setCore (s : State) (stop : Nat) (c : CoreSt) : State := { s with cores := smSet (fun _ => CoreSt.reset) s.cores stop c }
/-- Change the state of the core at a stop. -/
def State.updCore (s : State) (stop : Nat) (f : CoreSt → CoreSt) : State := s.setCore stop (f (s.core stop))
/-- The core-map entry of a logical core (01 R36). -/
def State.mapEnt (s : State) (lcore : Nat) : CoreMapEnt := s.coreMap.getD lcore ⟨224, .fusedOff⟩
/-- The stop whose core runs a logical thread (01 R14). -/
def State.stopOf (s : State) (t : Nat) : Nat := (s.mapEnt (t / 4)).phys
/-- Advance the counter that numbers free choices: the model's own field. -/
def State.tick (s : State) : State := { s with freeCtr := s.freeCtr + 1 }

/-! ### Storage of Chip Control Space registers -/

/-- The stored value of the register at a CCS offset. -/
def State.reg (s : State) (off : Nat) : Word := smGet (ccsReset s.variant) s.ccs off
/-- Store a register value. -/
def State.setReg (s : State) (off : Nat) (v : Word) : State := { s with ccs := smSet (ccsReset s.variant) s.ccs off v }
/-- Read a field. -/
def State.rf (s : State) (off : Nat) (f : FieldAt) : Nat := fld (s.reg off) f.1 f.2
/-- Write a field. -/
def State.wf (s : State) (off : Nat) (f : FieldAt) (x : Nat) : State := s.setReg off (setFld (s.reg off) f.1 f.2 x)
/-- Add to a field, saturating at its largest value. -/
def State.addSat (s : State) (off : Nat) (f : FieldAt) (n : Nat) : State := s.wf off f (min (s.rf off f + n) (2 ^ f.2 - 1))

/-! ### Levels, worlds and the integer registers -/

/-- TSTAT.PL (02 R43). -/
def Thread.pl (th : Thread) : Nat := fld th.tstat 4 2
/-- TSTAT.SEC: the Secure world. -/
def Thread.secure (th : Thread) : Bool := bit th.tstat 6
/-- TSTAT.C. -/
def Thread.carry (th : Thread) : Bool := bit th.tstat 0
/-- TSTAT.DIVTRAP. -/
def Thread.divtrap (th : Thread) : Bool := bit th.tstat 1
/-- TSTAT.IE. -/
def Thread.ie (th : Thread) : Bool := bit th.tstat 2
/-- TSTAT.STEP. -/
def Thread.step (th : Thread) : Bool := bit th.tstat 3
/-- Read an E register; E0 reads zero (02 R42). -/
def Thread.rE (th : Thread) (r : Reg) : Word := if r = 0 then 0 else smGet (fun _ => 0) th.e r.toNat
/-- Write an E register; a write of E0 is ignored (02 R42). A trip counter that tracks the register becomes invalid (04 R103), and a loop whose body writes its count is not captured (R107). -/
def Thread.wE (th : Thread) (r : Reg) (v : Word) : Thread :=
  if r = 0 then th
  else
    { th with
      e := smSet (fun _ => 0) th.e r.toNat v
      lcnt := th.lcnt.filter (fun c => c.reg != r.toNat)
      loopBuf := th.loopBuf.filter (fun b => b.ec != r.toNat) }
/-- The pair E(2n), E(2n+1) as one 128-bit value (02 R42). -/
def Thread.rPair (th : Thread) (r : Reg) : BitVec 128 := th.rE (r + 1) ++ th.rE r
/-- Write a pair. -/
def Thread.wPair (th : Thread) (r : Reg) (v : BitVec 128) : Thread :=
  (th.wE r (v.extractLsb' 0 64)).wE (r + 1) (v.extractLsb' 64 64)
/-- Read an SV register. -/
def Thread.rSV (th : Thread) (r : Reg) : BitVec 256 := smGet (fun _ => 0) th.sv r.toNat
/-- Write an SV register. -/
def Thread.wSV (th : Thread) (r : Reg) (v : BitVec 256) : Thread := { th with sv := smSet (fun _ => 0) th.sv r.toNat v }
/-- Read an M register; M0 reads all ones. -/
def Thread.rM (th : Thread) (r : Nat) : BitVec 256 := if r = 0 then BitVec.allOnes 256 else smGet (fun _ => 0) th.m r
/-- Write an M register; a write of M0 is ignored. -/
def Thread.wM (th : Thread) (r : Nat) (v : BitVec 256) : Thread := if r = 0 then th else { th with m := smSet (fun _ => 0) th.m r v }
/-- Raise floating-point flags: sticky (02 R45). -/
def Thread.orFlags (th : Thread) (f : Nat) : Thread := { th with fpflags := th.fpflags ||| BitVec.ofNat 64 (f % 64) }

/-! ### System state (02 R46–R52) -/

/-- Thread-scope system state by number: the committed value. -/
def Thread.committed (th : Thread) (num : Nat) : Word :=
  if num = 0 then th.tstat else if num = 1 then th.fpctl else if num = 2 then th.fpflags
  else if num = 3 then th.vcfg else if num = 4 then th.vprog else if num = 0x420 then th.btbKey.getD 0 else smGet sysReset th.sys num
/-- Store thread-scope system state. -/
def Thread.setCommitted (th : Thread) (num : Nat) (v : Word) : Thread :=
  if num = 0 then { th with tstat := v } else if num = 1 then { th with fpctl := v } else if num = 2 then { th with fpflags := v }
  else if num = 3 then { th with vcfg := v } else if num = 4 then { th with vprog := v }
  else if num = 0x420 then { th with btbKey := some v }
  else { th with sys := smSet sysReset th.sys num v }
/-- Core-scope sync-required state (02 R47): PMU_CFG0–7 and CLKSEL. -/
def coreSync (num : Nat) : Bool := (decide (0x431 ≤ num) && decide (num ≤ 0x438)) || num == 0x450
/-- Core-scope sync-required state of a core. -/
def CoreSt.syncReg (c : CoreSt) (num : Nat) : Word := if num = 0x450 then c.clksel else smGet (fun _ => 0) c.pmuCfg (num - 0x431)
/-- Store core-scope sync-required state. -/
def CoreSt.setSyncReg (c : CoreSt) (num : Nat) (v : Word) : CoreSt :=
  if num = 0x450 then { c with clksel := v } else { c with pmuCfg := smSet (fun _ => 0) c.pmuCfg (num - 0x431) v }
/-- Values written and not yet synchronised, oldest first. -/
def Thread.pending (th : Thread) (num : Nat) : List Word := smGet (fun _ => []) th.pend num
/-- The value one instruction sees: the committed one or one written since (02 R50); which is a free choice. -/
def pickView (seed num : Nat) (cur : Word) : List Word → Word
  | [] => cur
  | x :: r => (cur :: x :: r).getD (Config.pick seed (1000 + num) % (r.length + 2)) cur
/-- Sync-required state as the current instruction of a thread sees it. -/
def State.view (s : State) (t num : Nat) : Word :=
  let th := s.thr t
  let cur := if coreSync num then (s.core (s.stopOf t)).syncReg num else th.committed num
  pickView s.freeCtr num cur (th.pending num)
/-- The last value written, synchronised or not. -/
def State.latest (s : State) (t num : Nat) : Word :=
  let th := s.thr t
  let cur := if coreSync num then (s.core (s.stopOf t)).syncReg num else th.committed num
  (th.pending num).getLastD cur
/-- The hidden writes after the last one of a slot. -/
def hidAfter (slot : Nat) : List HidVal → List HidVal
  | [] => []
  | h :: r => if (h :: r).any (fun x => x.slot == slot) then hidAfter slot r else h :: r
/-- Shared core state as the thread in a slot reads it (02 R52): its own last write, or what synchronised writes left; `cur` is the last value written. -/
def CoreSt.seen (c : CoreSt) (num slot : Nat) (cur : Word) : Word :=
  match hidAfter slot (smGet (fun _ => []) c.hid num) with
  | h :: _ => h.old
  | [] => cur
/-- Hide a write of shared core state, over the last value `old`, from the other threads until its writer's SYNCS. -/
def CoreSt.hide (c : CoreSt) (num slot : Nat) (old : Word) : CoreSt :=
  { c with hid := smSet (fun _ => []) c.hid num (smGet (fun _ => []) c.hid num ++ [⟨slot, old⟩]) }
/-- The writes of a slot become visible to the core's other threads (02 R52), and with them nothing older is any more. -/
def CoreSt.unhide (c : CoreSt) (slot : Nat) : CoreSt :=
  { c with hid := c.hid.foldl (fun m e => smSet (fun _ => []) m e.1 (hidAfter slot e.2)) c.hid }
/-- Make every written value the committed one: SYNCS, exception entry and XRET (02 R50–R52). Every older instruction has then retired (02 R45). -/
def State.syncThread (s : State) (t : Nat) : State :=
  let th := s.thr t
  let stop := s.stopOf t
  let c := th.pend.foldl (fun c e => if coreSync e.1 then match e.2.getLast? with | some v => c.setSyncReg e.1 v | none => c else c) (s.core stop)
  let th1 := th.pend.foldl (fun h e => if coreSync e.1 then h else match e.2.getLast? with | some v => h.setCommitted e.1 v | none => h) th
  (s.setCore stop (c.unhide (t % 4))).setThr t { th1 with pend := [], lvOld := [], lvWin := false, fpRecent := 0, oldItlb := [] }
/-- HCTL.VMEN as seen by the current instruction. -/
def State.vmen (s : State) (t : Nat) : Bool := bit (s.view t 0x810) 0
/-- HCTL.VMID. -/
def State.vmid (s : State) (t : Nat) : Nat := fld (s.view t 0x810) 16 16
/-- Is the thread a guest (02 R40)? -/
def State.guest (s : State) (t : Nat) : Bool := !(s.thr t).secure && s.vmen t && decide ((s.thr t).pl ≤ 1)
/-- The tenant a thread's requests belong to (11 R315): HCTL.VMID of a guest, else 0. -/
def State.reqVmid (s : State) (t : Nat) : Nat := if s.guest t then s.vmid t else 0
/-- QoS class of a thread's requests (11 R334). -/
def State.clsOf (s : State) (t : Nat) : Nat :=
  if s.guest t then s.rf (a_QOS_THR t) f_QOS_THR_GUEST_CLASS else s.rf (a_QOS_THR t) f_QOS_THR_HOST_CLASS

/-! ### Machine time (12 R357, R359) -/

/-- LKP_STATUS.STATE: 0 AWAIT, 1 LOCKED, 2 HOLDOVER, 3 PTP (R357). -/
def State.lkpState (s : State) : Nat := s.rf a_LKP_STATUS f_LKP_STATUS_STATE
/-- Is MT_REFCLK present? -/
def State.refOk (s : State) : Bool := s.rf a_LKP_STATUS f_LKP_STATUS_REF_OK == 1
/-- Does MT run (R357, R359)? -/
def State.mtRuns (s : State) : Bool := s.lkpState == 1 || s.lkpState == 2 || (s.lkpState == 3 && s.lkp.ptpRuns)
/-- MT as the copy of a stop, or of the point where a unit of the I/O tile attaches (its power domain), holds it: 0 before MT is set, then within 2 ns of MT; by how much is a free value that stands from one cold reset to the next (12 R360; DESIGN CHOICE, notes/assumptions/94.md). -/
def State.mtAt (s : State) (point : Nat) : Nat :=
  if s.time.mt = 0 then 0 else s.time.mt + 2 - Config.pick s.time.skew (6000 + point) % 5
/-- Does a moment of MT lie ahead? While MT does not run, nothing is waited for. -/
def State.notYet (s : State) (m : Nat) : Bool := s.mtRuns && decide (s.time.mt < m)

/-! ### Running threads -/

/-- STATE of a power domain (16 R512): 2 is ON. -/
def State.domState (s : State) (d : Nat) : Nat := s.rf (a_PVC_DOM d) f_PVC_DOM_STATE
/-- Is a domain on (draining still counts)? -/
def State.domOn (s : State) (d : Nat) : Bool := s.domState d == 2 || s.domState d == 3
/-- Does a domain's clock run: on or draining, not deferred, not stopped by PVC_CLK (16 R496, R503, R514)? -/
def State.clocked (s : State) (d : Nat) : Bool :=
  (s.domState d == 2 || s.domState d == 3) && s.rf (a_PVC_DOM d) f_PVC_DOM_DEFERRED == 0 && s.rf (a_PVC_CLK d) f_PVC_CLK_CLKSTOP == 0
/-- Does a unit serve what reaches it: its domain on and its clock running (16 R494, R514)? -/
def State.domServing (s : State) (d : Nat) : Bool := s.domState d == 2 && s.clocked d
/-- Is a core in service: its position active, its domain on with its clock running, and not frozen for sparing (01 R36, 16 R496, 18 R556)? -/
def State.coreUp (s : State) (lcore : Nat) : Bool :=
  let e := s.mapEnt lcore
  decide (lcore < s.activeCores) && e.st == .active && s.domState e.phys == 2 && s.clocked e.phys &&
    s.rf (a_STP_RAS_STAT e.phys) f_STP_RAS_STAT_FROZEN == 0
/-- Has the boot reached DONE without a halt, with the package rails up and RESET_N high (20 R595, R600, R601; 21 R607)? -/
def State.running (s : State) : Bool :=
  s.rf a_GAL_BOOT_STAT f_GAL_BOOT_STAT_STAGE == 8 && s.rf a_GAL_BOOT_STAT f_GAL_BOOT_STAT_HALT == 0 && s.boot.railEn && !s.boot.held
/-- Mesh cycles elapsed: 22 per 10 ns (00 R9). -/
def TimeSt.meshCycles (x : TimeSt) : Nat := 22 * x.ticks / 10
/-- Can the thread execute an instruction now: core in service, chip running, not suspended by WAIT, not halted by debug? -/
def State.canRun (s : State) (t : Nat) : Bool :=
  s.coreUp (t / 4) && s.running && !(s.thr t).waiting && !(s.thr t).halted

/-! ### The physical map (01 R24, 09 R246–R250) -/

/-- Base address of Chip Control Space. -/
def ccsBase : Nat := 0x000FFC0000000000
/-- Base address of the boot ROM alias. -/
def romBase : Nat := 0x000FFFFFFFF00000

/-- What a physical address is: mapped DRAM or HBM, CXL.mem claimed by an enabled decoder, an MMIO window, Chip Control Space, the boot ROM alias, or nothing. -/
inductive PaKind where
  | mem | cxl | mmio | ccs | rom | unmapped
  deriving DecidableEq, Repr

/-- The placement function P(B, N) of 09: index and quotient. -/
def imposition (b n : Nat) : Nat × Nat := let q := b / n; ((b % n + q + q / n) % n, q)

/-- Base address of NUMA node n (09 R246). -/
def State.nodeBase (s : State) (n : Nat) : Nat := s.rf (a_MSH_NODE n) f_MSH_NODE_BASE * 2 ^ 36
/-- Does node n hold the address? -/
def State.nodeHas (s : State) (n a : Nat) : Bool :=
  s.rf (a_MSH_NODE n) f_MSH_NODE_VALID == 1 && inRange a (s.nodeBase n) (s.rf (a_MSH_NODE n) f_MSH_NODE_SIZE * 2 ^ 30)
/-- The node that holds an address, if any. -/
def State.nodeOf (s : State) (a : Nat) : Option Nat := (List.range 8).find? (fun n => s.nodeHas n a)

/-- Base address of a decoder's range (14 R449): BASE holds bits 51:28. -/
def State.hdmBase (s : State) (p k : Nat) : Nat := s.rf (a_RPT_HDM p k) f_RPT_HDM_BASE * 2 ^ 28
/-- Does decoder k of root port p claim the address (14 R449)? BASE and SIZE are in units of 256 MiB. -/
def State.hdmHas (s : State) (p k a : Nat) : Bool :=
  s.rf (a_RPT_HDM p k) f_RPT_HDM_EN == 1 &&
    inRange a (s.hdmBase p k) (s.rf (a_RPT_HDM p k) f_RPT_HDM_SIZE * 2 ^ 28)
/-- The root port and decoder that claim a CXL.mem address. -/
def State.hdmOf (s : State) (a : Nat) : Option (Nat × Nat) :=
  if hasCxl s.variant then
    ((List.range 8).flatMap (fun p => (List.range 8).map (fun k => (p, k)))).find? (fun x => s.hdmHas x.1 x.2 a)
  else none

/-- The region of a physical address (01 R24, R25; 14 R422: slots 9–15 and those of absent ports are unmapped). -/
def State.paKind (s : State) (a : Nat) : PaKind :=
  if a < 0x000A000000000000 then (if (s.nodeOf a).isSome then .mem else .unmapped)
  else if a < 0x000E000000000000 then (if (s.hdmOf a).isSome then .cxl else .unmapped)
  else if a < 0x000F000000000000 then
    let k := (a - 0x000E000000000000) / 2 ^ 44
    if k < rootPorts s.variant || k == 8 then .mmio else .unmapped
  else if inRange a ccsBase (2 ^ 34) then .ccs
  else if inRange a romBase (2 ^ 20) then .rom
  else .unmapped

/-- Where a line is homed (09 R249): from the block number counted in its node or claiming decoder. -/
def State.homeLoc (s : State) (line : Nat) : Option HomeLoc :=
  let a := 64 * line
  let go (base b n : Nat) : HomeLoc :=
    let (i, q) := imposition b n
    ⟨base + i, q % 384, (4 * q + line % 4) % 2560⟩
  if a < 0x000A000000000000 then
    match s.nodeOf a with
    | none => none
    | some d =>
      let b := (a - s.nodeBase d) / 256
      if s.rf a_MSH_MEM_CFG f_MSH_MEM_CFG_WHOLE_CHIP = 1 then some (go 0 b 224) else some (go (56 * (d % 4)) b 56)
  else
    match s.hdmOf a with
    | none => none
    | some (p, k) => some (go 0 ((a - s.hdmBase p k) / 256) 224)

/-- Bits set in a 16-bit member mask, ascending. -/
def membersOf (m : Nat) : List Nat := (List.range 16).filter (fun i => m.testBit i)

/-- Members of a DDR node that are interleaved: with mirroring only the primaries c with c / 4 even, or the partner where the primary is not in the node (09 R247, R248). -/
def State.ddrTargets (s : State) (d : Nat) : List Nat :=
  let ms := membersOf (s.rf (a_MSH_NODE d) f_MSH_NODE_MEMBERS)
  if s.rf a_MSH_MEM_CFG f_MSH_MEM_CFG_MIRROR = 1 then ms.filter (fun c => c / 4 % 2 == 0 || !ms.contains (c - 4)) else ms

/-- Which memory target serves an address (09 R248): DDR channel and channel-local address, or stack, pseudo-channel and local address. -/
inductive MemTarget where
  | ddr (ch : Nat) (addr : Nat)
  | hbm (stack pc : Nat) (addr : Nat)
  deriving DecidableEq, Repr

/-- The target of a DRAM-region address. -/
def State.targetOf (s : State) (a : Nat) : Option MemTarget :=
  match s.nodeOf a with
  | none => none
  | some d =>
    let o := a - s.nodeBase d
    let b := o / 256
    if s.rf (a_MSH_NODE d) f_MSH_NODE_KIND = 1 then
      let ts := s.ddrTargets d
      if ts.length = 0 then none
      else
        let (i, q) := imposition b ts.length
        (ts[i]?).map (fun c => .ddr c (q * 256 + o % 256))
    else
      let ss := membersOf (s.rf (a_MSH_NODE d) f_MSH_NODE_MEMBERS)
      if ss.length = 0 then none
      else
        let (i, q) := imposition b (32 * ss.length)
        (ss[i / 32]?).map (fun st => .hbm st (i % 32) (q * 256 + o % 256))

/-- The other member of a channel's mirrored pair, when both are in a node (09 R244, R247). -/
def State.partner (s : State) (c : Nat) : Option Nat :=
  let p := if c / 4 % 2 = 0 then c + 4 else c - 4
  let inNode (c : Nat) : Bool := (List.range 8).any (fun n => s.rf (a_MSH_NODE n) f_MSH_NODE_KIND == 1 && (s.rf (a_MSH_NODE n) f_MSH_NODE_MEMBERS).testBit c)
  if s.rf a_MSH_MEM_CFG f_MSH_MEM_CFG_MIRROR = 1 && inNode c && inNode p then some p else none

/-- Is an address claimed by a decoder whose link is not trained as CXL, so that accesses fail (14 R428)? -/
def State.cxlDown (s : State) (a : Nat) : Bool :=
  match s.hdmOf a with
  | some (p, _) => !(s.rf (a_RPT_LINK_STAT p 0) f_RPT_LINK_STAT_UP == 1 && s.rf (a_RPT_LINK_STAT p 0) f_RPT_LINK_STAT_CXL == 1)
  | none => false

/-- Is HBM used as a cache? -/
def State.hbmCached (s : State) : Bool := s.rf a_MSH_MEM_CFG f_MSH_MEM_CFG_CACHED == 1
/-- The stack, entry and tag that hold a DDR address in cached mode (09 R250). -/
def State.hbmLoc (s : State) (a : Nat) : Option (Nat × Nat × Nat) :=
  match s.nodeOf a with
  | none => none
  | some d =>
    let o := a - s.nodeBase d
    let whole := s.rf a_MSH_MEM_CFG f_MSH_MEM_CFG_WHOLE_CHIP == 1
    let (i, q) := imposition (o / 256) (if whole then 4 else 1)
    let w := 4 * q + o / 64 % 4
    some (if whole then i else d - 4, w % 805306368, w / 805306368)
/-- Key of a cache entry. -/
def hbmKey (st e : Nat) : Nat := st * 2 ^ 30 + e
/-- The cache entry under a key. -/
def State.hbmEnt (s : State) (k : Nat) : Option HbmEnt := smGet (fun _ => none) s.memx.hbm k
/-- The valid entry that caches a line in HBM, if any. -/
def State.hbmHit (s : State) (line : Nat) : Option HbmEnt :=
  if s.hbmCached then ((s.hbmLoc (64 * line)).bind (fun x => s.hbmEnt (hbmKey x.1 x.2.1))).filter (fun e => e.line == line) else none

/-- Has a channel failed with no good partner (09 R265)? -/
def State.ddrDown (s : State) (c : Nat) : Bool :=
  s.rf (a_DMC_RAS_STAT c) f_DMC_RAS_STAT_CH_FAILED == 1 &&
    !(match s.partner c with | some p => s.rf (a_DMC_RAS_STAT p) f_DMC_RAS_STAT_CH_FAILED == 0 | none => false)

/-- Has the memory that holds a line failed, so that reads return poison (09 R265, R268; 14 R428: the link is down, or the device has answered the read with an error or not at all)? A line cached in HBM is read there (R250). -/
def State.memFailed (s : State) (line : Nat) : Bool :=
  if (s.hbmHit line).isSome then false
  else
    match s.targetOf (64 * line) with
    | some (.ddr c _) => s.ddrDown c
    | some (.hbm st pc _) => s.memx.pcFailed.contains (32 * st + pc)
    | none => s.cxlDown (64 * line) || s.port.out.any (fun o => o.kind == 5 && o.owner == line && o.res.any (fun r => r.1 == 3))

/-- Are writes to the line discarded (09 R265, R268; 14 R428)? In cached mode a write is installed in HBM (R250). -/
def State.memLost (s : State) (line : Nat) : Bool :=
  !(s.hbmCached && (s.nodeOf (64 * line)).isSome) && (if (s.hdmOf (64 * line)).isSome then s.cxlDown (64 * line) else s.memFailed line)

/-- Will the next read of a line find an uncorrectable error with no good second copy: one injected (17 R532; 09 R260), or check bits of uncleared memory (20 R596)? A clean line of the HBM cache is read again from DDR and delivered good (R268). -/
def State.injected (s : State) (line : Nat) : Bool :=
  s.coh.badInit line || s.memx.inject.contains (line, 2) &&
    (match s.hbmHit line, s.targetOf (64 * line) with
     | some e, _ => e.dirty
     | none, some (.ddr c _) => (match s.partner c with | some p => s.rf (a_DMC_RAS_STAT p) f_DMC_RAS_STAT_CH_FAILED == 1 || s.rf (a_DMC_RAS_STAT c) f_DMC_RAS_STAT_CH_FAILED == 1 | none => true)
     | none, _ => true)

/-- The enabled secure region that holds an address, if any (15 R462). -/
def State.smrOf (s : State) (a : Nat) : Option Nat :=
  (List.range 64).find? (fun n =>
    s.rf (a_TOL_SMR n) f_TOL_SMR_EN == 1 &&
      inRange a (s.rf (a_TOL_SMR n) f_TOL_SMR_BASE * 2 ^ 21) (s.rf (a_TOL_SMR n) f_TOL_SMR_SIZE * 2 ^ 21))

/-- Disabled ways of an array (07 R196, R199, 08 R241): level 0 L1D, 1 L1I, 2 L2, 3 LLC, 4 directory. -/
def State.waysOff (s : State) (level stop : Nat) : Nat :=
  if level = 0 then s.rf (a_STP_CORE_CACHESTAT stop) f_STP_CORE_CACHESTAT_L1D_DIS
  else if level = 1 then s.rf (a_STP_CORE_CACHESTAT stop) f_STP_CORE_CACHESTAT_L1I_DIS
  else if level = 2 then s.rf (a_STP_CORE_CACHESTAT stop) f_STP_CORE_CACHESTAT_L2_DIS
  else if level = 3 then s.rf (a_STP_LLC_WAYSTAT stop) f_STP_LLC_WAYSTAT_DISABLED
  else s.rf (a_STP_DIR_STAT stop) f_STP_DIR_STAT_DIS_WAYS
/-- Ways that take no allocation: disabled, or being disabled (07 R178 step 1). -/
def State.waysOut (s : State) (level stop : Nat) : Nat :=
  (s.ras.draining.filter (fun w => w.level == level && w.stop == stop)).foldl (fun m w => m ||| 2 ^ w.way) (s.waysOff level stop)

/-- What the memory system needs of the rest of the chip. -/
def State.env (s : State) : CohEnv :=
  { home := s.homeLoc
    waymask := fun slice cls => s.rf (a_STP_LLC_WAYMASK slice cls) f_STP_LLC_WAYMASK_MASK
    quoin := fun slice w => s.reg (a_STP_LLC_QUOIN slice w)
    llcDis := s.waysOut 3
    dirDis := s.waysOut 4
    l1dDis := s.waysOut 0
    l1iDis := s.waysOut 1
    l2Dis := s.waysOut 2
    secLine := fun line => (s.smrOf (64 * line)).isSome
    keyOf := fun line => match s.smrOf (64 * line) with | some n => smGet (fun _ => 0) s.smrKey n | none => 0
    badMem := s.memFailed
    lostMem := s.memLost
    inj := s.injected
    native := s.rf a_MSH_PROTO_CTL f_MSH_PROTO_CTL_MODE == 0
    seed := s.freeCtr
    cycle := s.time.meshCycles }

/-- The SEC tag of a line where it is held, or by the region map (15 R457). -/
def State.lineSec (s : State) (line : Nat) : Bool := (s.coh.tagOf line).getD (s.smrOf (64 * line)).isSome

/-! ### Exceptions (02 R53–R60) -/

/-- Kinds of vector (02 R54). -/
inductive ExcKind where
  | sync | irq | mcheck
  deriving DecidableEq, Repr

/-- XSYN (02 R58). -/
def Exc.xsyn (e : Exc) : Word :=
  BitVec.ofNat 64 (e.code + e.addrValid.toNat * 2 ^ 8 + e.wnr.toNat * 2 ^ 9 + e.s2.toNat * 2 ^ 10 + e.split.toNat * 2 ^ 11 +
    e.size * 2 ^ 12 + e.reg * 2 ^ 15 + e.vec.toNat * 2 ^ 20 + (e.info % 2 ^ 32) * 2 ^ 32)

/-- First number of the exception registers of level t: VECBASE, XPC, XSTAT, XSYN, XADDR, SCRATCH (02 R47). -/
def excRegs (lvl : Nat) : Nat := if lvl = 1 then 0x400 else if lvl = 2 then 0x800 else 0xC00

/-- Vector offset (02 R54). -/
def vecOffset (k : ExcKind) (same : Bool) : Nat :=
  match k with
  | .mcheck => 0x800
  | .sync => if same then 0x000 else 0x400
  | .irq => if same then 0x200 else 0x600

/-- Taking an exception to level `lvl` (02 R53), as one indivisible step that also acts as a SYNCS (R51): XPC, XSTAT, XSYN, XADDR and, for a stage-2 fault, XIPA_H receive their values, TSTAT changes, and the PC becomes the vector. Trip counters become invalid, and the staged block and loop buffer are discarded (04 R103, R106, R108). -/
def Thread.enter (th : Thread) (lvl : Nat) (k : ExcKind) (e : Exc) : Thread :=
  let b := excRegs lvl
  let xpc := if e.xpcNext then th.pc + 4 else th.pc
  let same := th.pl = lvl
  let th1 := th.setCommitted (b + 1) xpc
  let th2 := th1.setCommitted (b + 2) th.tstat
  let th3 := th2.setCommitted (b + 3) e.xsyn
  let th4 := th3.setCommitted (b + 4) e.addr
  let th5 := if e.s2 then th4.setCommitted 0x806 (BitVec.ofNat 64 e.ipa) else th4
  let ts1 := setFld th.tstat 4 2 lvl
  let ts2 := setBit (setBit ts1 2 false) 3 false
  let ts3 := if lvl = 3 then setBit ts2 6 true else ts2
  { th5 with
    tstat := ts3
    pc := (th.committed b &&& ~~~(0xFFF#64)) + BitVec.ofNat 64 (vecOffset k same)
    lcnt := [], loopBuf := none, staged := none, midVec := false, fpRecent := 0, fqPoison := none, held := none, gath := none }

/-- The level an exception is taken to (02 R56). Level 2 is not in the Secure world (02 R38), which has no stage 2 and no HYPCALL. -/
def State.excLevel (s : State) (t : Nat) (k : ExcKind) (e : Exc) (trap2 : Bool) : Nat :=
  let th := s.thr t
  if k = .mcheck then (if th.secure then 3 else if s.vmen t then 2 else 1)
  else if !th.secure && (e.s2 || e.code == 0x09 || trap2) then 2
  else if (e.code == 0x30 || e.code == 0x31) && s.guest t && bit (s.view t 0x810) 1 then 2
  else if e.code == 0x0A then 3
  else max th.pl 1

/-- What XADDR receives (02 R53, R58): the faulting virtual address, or a free value where ADDR_VALID is 0 (notes/assumptions/6.md). -/
def Exc.withAddr (e : Exc) (free : Word) : Exc := if e.addrValid then e else { e with addr := free }

/-- Take an exception on a thread to a given level. -/
def State.enterExc (s : State) (t lvl : Nat) (k : ExcKind) (e : Exc) : State :=
  (s.tick.syncThread t).updThr t (fun th => th.enter lvl k (e.withAddr (Config.freeWord s.freeCtr 0x404)))

/-- Take a synchronous exception to the level of 02 R56. -/
def State.takeExc (s : State) (t : Nat) (e : Exc) : State := s.enterExc t (s.excLevel t .sync e false) .sync e

/-- Can XRET at level `l` use this XSTAT (02 R55)? -/
def xretOk (l : Nat) (sec : Bool) (x : Word) : Bool :=
  let pl := fld x 4 2
  let sx := bit x 6
  decide (pl ≤ l) && !(pl == 2 && sx) && !(pl == 3 && !sx) && (sx == sec || l == 3)

/-- Return from an exception (02 R55): TSTAT from XSTAT_t, the PC from XPC_t; acts as a SYNCS (R51) and invalidates trip counters and the staged block (04 R103, R106). -/
def State.returnExc (s : State) (t : Nat) : State :=
  let l := (s.thr t).pl
  (s.syncThread t).updThr t (fun th =>
    { th with tstat := th.committed (excRegs l + 2) &&& 0x7F#64, pc := th.committed (excRegs l + 1), lcnt := [], loopBuf := none })

end Sys2Proof.Machine
end

