-- ==== Sys2Proof/Machine/Pmu.lean ====
section
/-! DEFINITION. Counting: core counters, uncore counter blocks, overflow and samples (spec/19_performance_monitoring.md R578–R588). Counts of clock cycles are left out (notes/assumptions/16.md). -/
namespace Sys2Proof.Machine

/-- Raise an internal interrupt towards the Interrupt Router (11 R317). -/
def State.raiseIrq (s : State) (src ev : Nat) : State := { s with ev := { s.ev with irqs := s.ev.irqs ++ [⟨src, ev, s.time.mt⟩] } }

/-- Access classes of a counted event (R580 CLASS). -/
inductive AccCls where
  | none | read | write | atomic | prefetch | ifetch
  deriving DecidableEq, Repr

/-- Does CLASS admit the access? 0 admits every class. -/
def clsAdmits (cls : Nat) (a : AccCls) : Bool :=
  cls == 0 || (match a with
    | .none => true | .read => cls.testBit 0 | .write => cls.testBit 1 | .atomic => cls.testBit 2
    | .prefetch => cls.testBit 3 | .ifetch => cls.testBit 4)

/-- Do the two ranges at a base offset (LO, HI, LO, HI) admit the address (R581)? -/
def State.rangesAdmit (s : State) (base : Nat) (pa : Option Nat) : Bool :=
  match pa with
  | none => false
  | some a => (decide (fld (s.reg base) 0 52 ≤ a) && decide (a ≤ fld (s.reg (base + 8)) 0 52)) ||
      (decide (fld (s.reg (base + 16)) 0 52 ≤ a) && decide (a ≤ fld (s.reg (base + 24)) 0 52))

/-- Do the filters of PMU_CFGn admit an event of thread t, or of no thread (R580)? -/
def State.pmuAdmits (s : State) (stop n : Nat) (cfg : Word) (th : Option Nat) (code : Nat) (a : AccCls) (pa : Option Nat) : Bool :=
  fld cfg 0 10 == code && bit cfg 10 && clsAdmits (fld cfg 24 5) a &&
    (!bit cfg 23 || s.rangesAdmit (a_STP_PMU_RANGE stop n 0 0) pa) &&
    (match th with
     | none => fld cfg 18 4 != 0
     | some t =>
       let h := s.thr t
       (fld cfg 12 4).testBit h.pl && (if h.secure then bit cfg 17 else bit cfg 16) && (fld cfg 18 4).testBit (t % 4) &&
         (!bit cfg 22 || (s.guest t && s.vmid t == fld cfg 32 16)))

/-- Lowest thread named in THREADS. -/
def lowThread (cfg : Word) : Nat := ctzAux (fld cfg 18 4) 4

/-- Add to PMCn with its overflow (R585, R587). -/
def State.bumpPmc (s : State) (stop n : Nat) (cfg : Word) (th : Option Nat) (pa : Option Nat) (amount : Nat) : State :=
  let c := s.core stop
  let v := (smGet (fun _ => 0) c.pmc n).toNat + amount
  let c1 := { c with pmc := smSet (fun _ => 0) c.pmc n (BitVec.ofNat 64 v) }
  if v < 2 ^ 64 then s.setCore stop c1
  else
    let slot := match th with | some t => t % 4 | none => lowThread cfg
    let c2 := if bit cfg 29 then { c1 with sample := c1.sample ++ [⟨n, slot, true, 0, false, 0, pa.getD 0⟩] } else c1
    let s1 := (s.setCore stop c2).setReg (a_STP_PMU_OVF stop) (setBit (s.reg (a_STP_PMU_OVF stop)) n true)
    if bit cfg 11 then s1.raiseIrq (0x100 + stop) n else s1

/-- Count a core event on counter n. -/
def State.countOne (stop : Nat) (th : Option Nat) (code : Nat) (a : AccCls) (pa : Option Nat) (amount : Nat) (s : State) (n : Nat) : State :=
  let cfg := match th with | some t => s.view t (0x431 + n) | none => (s.core stop).syncReg (0x431 + n)
  if s.pmuAdmits stop n cfg th code a pa then s.bumpPmc stop n cfg th pa amount else s

/-- Count a core event on the counters of the core at a stop (R580, R584). -/
def State.countStop (s : State) (stop : Nat) (th : Option Nat) (code : Nat) (a : AccCls) (pa : Option Nat) (amount : Nat) : State :=
  (List.range 8).foldl (State.countOne stop th code a pa amount) s

/-- Count a core event of a thread. -/
def State.countThr (s : State) (t code : Nat) (a : AccCls) (pa : Option Nat) (amount : Nat) : State :=
  s.countStop (s.stopOf t) (some t) code a pa amount

/-- PMC_RET of a thread after one more retired instruction (R581 FIXCTL). -/
def State.countRet (s : State) (t : Nat) : State :=
  let stop := s.stopOf t
  let k := t % 4
  let f := s.reg (a_STP_PMU_FIXCTL stop k)
  let h := s.thr t
  if bit f 1 && (fld f 2 4).testBit h.pl && (if h.secure then bit f 7 else bit f 6) then
    let c := s.core stop
    let v := (smGet (fun _ => 0) c.pmcRet k).toNat + 1
    let s1 := s.setCore stop { c with pmcRet := smSet (fun _ => 0) c.pmcRet k (BitVec.ofNat 64 v) }
    if v < 2 ^ 64 then s1
    else
      let s2 := s1.setReg (a_STP_PMU_OVF stop) (setBit (s1.reg (a_STP_PMU_OVF stop)) (12 + k) true)
      if bit f 9 then s2.raiseIrq (0x100 + stop) (12 + k) else s2
  else s

/-- Write a sample record (R587). -/
def State.writeSample (s : State) (stop : Nat) (e : SampleWait) (t : Nat) : State :=
  let k := e.slot
  let h := s.thr t
  let cfg := (s.core stop).syncReg (0x431 + e.ctr)
  let hide := if h.secure then !bit cfg 17 else !bit cfg 16
  let lost := bit (s.reg (a_STP_PMU_SAMPLE_INFO stop k)) 7
  let info := e.ctr + h.pl * 2 ^ 4 + h.secure.toNat * 2 ^ 6 + 2 ^ 7 + (min e.skid 8) * 2 ^ 8 + lost.toNat * 2 ^ 12 +
    (if hide || !s.guest t then 0 else s.vmid t) * 2 ^ 16
  let s1 := s.setReg (a_STP_PMU_SAMPLE_PC stop k) (if hide then 0 else e.pc)
  let s2 := s1.setReg (a_STP_PMU_SAMPLE_MT stop k) (BitVec.ofNat 64 (s.mtAt stop))
  let s3 := s2.setReg (a_STP_PMU_SAMPLE_INFO stop k) (BitVec.ofNat 64 info)
  s3.setReg (a_STP_PMU_SAMPLE_ADDR stop k) (if hide then 0 else BitVec.ofNat 64 e.addr)

/-- Write the waiting samples of a thread that satisfy `due`, and forget them. -/
def State.takeSamples (s : State) (t : Nat) (due : SampleWait → Bool) : State :=
  let stop := s.stopOf t
  let mine := fun (e : SampleWait) => e.slot == t % 4 && due e
  let hit := (s.core stop).sample.filter mine
  if hit.isEmpty then s
  else
    let s1 := s.updCore stop (fun c => { c with sample := c.sample.filter (fun e => !mine e) })
    hit.foldl (fun s e => s.writeSample stop e t) s1

/-- A waiting sample after one more instruction of its thread at `pc` has retired. -/
def SampleWait.aged (e : SampleWait) (pc : Word) (lv : Bool) : SampleWait :=
  if e.fresh then { e with fresh := false, pc := pc } else { e with skid := e.skid + 1, lv := e.lv || lv, pc := pc }

/-- An instruction of the thread at `pc` retires: its waiting samples age, and none lets a ninth instruction or a second long-vector instruction retire (R587). -/
def State.ageSamples (s : State) (t : Nat) (pc : Word) (lv : Bool) : State :=
  let stop := s.stopOf t
  if (s.core stop).sample.any (fun e => e.slot == t % 4) then
    let s1 := s.takeSamples t (fun e => !e.fresh && lv && e.lv)
    let s2 := s1.updCore stop (fun c => { c with sample := c.sample.map (fun e => if e.slot = t % 4 then e.aged pc lv else e) })
    s2.takeSamples t (fun e => decide (8 ≤ e.skid))
  else s

/-- One instruction of the thread at `pc` retires: INST_RETIRED, PMC_RET and waiting samples. -/
def State.retired (s : State) (t : Nat) (pc : Word) (lv : Bool) : State :=
  ((s.countThr t 0x001 .none none 1).ageSamples t pc lv).countRet t

/-- What the uncore filters see of a requester (R582): a core by its stop, a device by its stream, the VMID, SEC; unclassed traffic. -/
structure Rqr where
  core : Option Nat := none
  stream : Option Nat := none
  vmid : Nat := 0
  sec : Bool := false
  unclassed : Bool := false
  deriving DecidableEq, Repr

/-- Requester data of a core thread. -/
def State.rqrOf (s : State) (t : Nat) : Rqr := { core := some (s.stopOf t), vmid := s.reqVmid t, sec := (s.thr t).secure }

/-- Do the filters of counter i of an uncore block admit an event (R582)? -/
def State.uncAdmits (s : State) (blk i code : Nat) (q : Rqr) (a : AccCls) (pa : Option Nat) : Bool :=
  let cfg := s.reg (blk + 0x40 * i)
  let m := fld (s.reg (blk + 0x40 * i + 0x18)) 0 20
  let kind := fld cfg 20 2
  fld cfg 0 10 == code && bit cfg 10 && (if q.sec then bit cfg 13 else bit cfg 12) &&
    (!bit cfg 19 || s.rangesAdmit (blk + 0x40 * i + 0x20) pa) &&
    (if q.unclassed then kind == 0 && fld cfg 14 5 == 0 else clsAdmits (fld cfg 14 5) a &&
      (kind == 0 || (kind == 1 && q.core == some (m % 256)) || (kind == 2 && q.vmid == m % 2 ^ 16) || (kind == 3 && q.stream == some m)))

/-- Add to counter i of an uncore block with its overflow (R585). -/
def State.bumpUnc (s : State) (blk n : Nat) (irq : Option Nat) (amount i : Nat) : State :=
  let off := blk + 0x40 * i + 8
  let v := fld (s.reg off) 0 48 + amount
  let s1 := s.setReg off (BitVec.ofNat 64 (v % 2 ^ 48))
  if v < 2 ^ 48 then s1
  else
    let s2 := s1.setReg (blk + 0x40 * n) (setBit (s1.reg (blk + 0x40 * n)) i true)
    match irq with
    | some stop => if bit (s.reg (blk + 0x40 * i)) 11 then s2.raiseIrq (0x100 + stop) (16 + i) else s2
    | none => s2

/-- Count an event in a block of n counters. -/
def State.countUnc (s : State) (blk n : Nat) (irq : Option Nat) (code : Nat) (q : Rqr) (a : AccCls) (pa : Option Nat) (amount : Nat) : State :=
  (List.range n).foldl (fun s i => if s.uncAdmits blk i code q a pa then s.bumpUnc blk n irq amount i else s) s

/-- Count an event of an LLC slice. -/
def State.countSlice (s : State) (slice code : Nat) (q : Rqr) (a : AccCls) (pa : Option Nat) (amount : Nat) : State :=
  s.countUnc (a_UNC_CFG_SL slice 0) 4 (some slice) code q a pa amount

/-- Offset of UNC_BW_CTL of a bandwidth unit (R588): 0–15 DDR5, 16–19 HBM, 20–57 aqueducts, 58–65 root ports, 66 Wharf. -/
def bwCtl (u : Nat) : Nat :=
  if u < 16 then a_UNC_BW_CTL_DMC u else if u < 20 then a_UNC_BW_CTL_HMC (u - 16)
  else if u < 58 then a_UNC_BW_CTL_AQ (u - 20) else if u < 66 then a_UNC_BW_CTL_RPT (u - 58) else a_UNC_BW_CTL_WHF

/-- Bytes of a unit and direction in its current window (R588). -/
def State.accBw (s : State) (u dir amount : Nat) : State :=
  let w := s.time.mt / fld (s.reg (bwCtl u)) 8 32
  if bit (s.reg (bwCtl u)) 0 && decide (smGet (fun _ => 0) s.memx.bwWin u ≤ w) then
    let k := 2 * u + dir + 256 * w
    { s with memx := { s.memx with bwAcc := smSet (fun _ => 0) s.memx.bwAcc k (smGet (fun _ => 0) s.memx.bwAcc k + amount) } }
  else s

/-- The value of a counter register: a core's live counters stand in its core state (R581). -/
def State.counterReg (s : State) (off : Nat) : Word :=
  let p := (off - 0x10000000) / 0x100000
  let o := (off - 0x10000000) % 0x100000
  if off < 0x10000000 || 0x380 ≤ o || o < 0x300 then s.reg off
  else
    let c := s.core p
    if o < 0x340 then smGet (fun _ => 0) c.pmc ((o - 0x300) / 8)
    else if o < 0x360 then smGet (fun _ => 0) c.pmcCyc ((o - 0x340) / 8)
    else smGet (fun _ => 0) c.pmcRet ((o - 0x360) / 8)

/-! ### Bandwidth windows (R588) -/

/-- A write to UNC_BW_CTL of unit u: every entry clears, and accumulation restarts at the first window boundary after the write; a length below 1,000 leaves L unchanged. -/
def State.bwCtlWrite (s : State) (u : Nat) (v : Word) : State :=
  let off := bwCtl u
  let l := if fld v 8 32 < 1000 then fld (s.reg off) 8 32 else fld v 8 32
  let s1 := (List.range 16).foldl (fun s j => (s.setReg (off + 0x100 + 8 * j) 0).setReg (off + 0x180 + 8 * j) 0) s
  let s2 := s1.setReg off (setFld v 8 32 l)
  { s2 with memx := { s2.memx with bwAcc := s2.memx.bwAcc.filter (fun e => e.1 % 256 / 2 != u), bwWin := smSet (fun _ => 0) s2.memx.bwWin u (s.time.mt / l + 1) } }

/-- The window a unit accumulates ends: its entry is written complete. -/
def State.bwWindowEnd (s : State) (u : Nat) : State :=
  let off := bwCtl u
  let l := fld (s.reg off) 8 32
  let w := smGet (fun _ => 0) s.memx.bwWin u
  if 67 ≤ u || !bit (s.reg off) 0 || s.time.mt < (w + 1) * l then s
  else
    let ent (dir : Nat) : Word :=
      BitVec.ofNat 64 (smGet (fun _ => 0) s.memx.bwAcc (2 * u + dir + 256 * w) % 2 ^ 48 + w % 2 ^ 16 * 2 ^ 48)
    let s1 := (s.setReg (off + 0x100 + 8 * (w % 16)) (ent 0)).setReg (off + 0x180 + 8 * (w % 16)) (ent 1)
    let s2 := s1.setReg off (setFld (s1.reg off) 40 4 (w % 16))
    { s2 with memx := { s2.memx with
        bwAcc := smSet (fun _ => 0) (smSet (fun _ => 0) s2.memx.bwAcc (2 * u + 256 * w) 0) (2 * u + 1 + 256 * w) 0
        bwWin := smSet (fun _ => 0) s2.memx.bwWin u (w + 1) } }

/-- SAMPLE_RECORD: at the boundary where the core recognises the wrap, after at least one instruction has retired since. -/
def execSampleRecord (t : Nat) (s : State) : Host.Outcome State Fault Refusal :=
  .next (s.takeSamples t (fun e => !e.fresh))
/-- BANDWIDTH_WINDOW_END. -/
def execBandwidthWindowEnd (u : Nat) (s : State) : Host.Outcome State Fault Refusal := .next (s.bwWindowEnd u)

end Sys2Proof.Machine
end

