-- ==== Sys2Proof/Machine/Events.lean ====
section
/-! DEFINITION. Coherent accesses of the chip's own agents, Event Queue records, the Logbook, security violations, fatal conditions and replacement requests (spec/17_lengthsman_galley.md R536–R543, spec/18_ras.md R549, R568–R571, spec/15_security.md R480). -/
namespace Sys2Proof.Machine

/-! ### Coherent accesses of agents other than cores -/

/-- Can an agent's access use this address as memory: DRAM, HBM or claimed CXL.mem? -/
def State.isMem (s : State) (a : Nat) : Bool := s.paKind a == .mem || s.paKind a == .cxl

/-- `n` bytes from `a` as the coherent system holds them now, and whether any line read carries poison (08 R222 RdCur). -/
def State.readBytes (s : State) (a n : Nat) : List Byte × Bool :=
  let lines := if n = 0 then [] else (List.range ((a + n - 1) / 64 + 1 - a / 64)).map (fun k => s.coh.currentNow s.env (a / 64 + k))
  ((List.range n).map (fun k => byteAt (lines.getD ((a + k) / 64 - a / 64) (0, false)).1 ((a + k) % 64)), lines.any (·.2))

/-- A little-endian value of `n` bytes read by an agent; `none` outside memory or on poison. -/
def State.readVal (s : State) (a n : Nat) : Option Nat :=
  if !s.isMem a then none
  else
    let (bs, p) := s.readBytes a n
    if p then none else some (leVal bs)

/-- The part of a byte list that falls in one line, as line data and byte enables: bytes `bs` start at `a`. -/
def lineWrite (line a : Nat) (bs : List Byte) : Line × BitVec 64 :=
  (lineOf (fun i => if a ≤ 64 * line + i then bs.getD (64 * line + i - a) 0 else 0),
   (List.range 64).foldl (fun m i => if a ≤ 64 * line + i && 64 * line + i < a + bs.length then m ||| (1#64 <<< i) else m) 0)

/-- Write bytes coherently as an agent's WrLine or WrPart: every line touched is written through its home (08 R222). Bytes outside memory are dropped; `poison` carries the mark of the written data. -/
def State.writeBytes (s : State) (a : Nat) (bs : List Byte) (cls : Nat) (poison : Bool := false) : State :=
  let first := a / 64
  let last := (a + bs.length - 1) / 64
  let lines := if bs.length = 0 then [] else (List.range (last + 1 - first)).map (fun k => first + k)
  lines.foldl (fun s l =>
    if s.isMem (64 * l) then
      let (d, m) := lineWrite l a bs
      { s with coh := s.coh.writeNow s.env l d m cls poison }
    else s) s

/-- Write an n-byte little-endian value as an agent. -/
def State.writeVal (s : State) (a n v cls : Nat) : State := s.writeBytes a (leBytes n v) cls

/-! ### The Logbook (18 R570, R571) -/

/-- WEAR: the highest write count of any word as a percentage of 10^9, rounded down; the journal rotates over 12,288 slots and the state area's copies over 64 positions (18 R573). -/
def LogSt.wear (l : LogSt) : Nat := max ((l.writes + 12287) / 12288) ((l.area + 63) / 64) / 10000000

/-- Append a journal record; the oldest of 12,288 is overwritten; at WEAR 100 the Logbook accepts no more (18 R570, R573). -/
def LogSt.append (l : LogSt) (r : EvRec) (seq kind detail : Nat) : LogSt :=
  if 100 ≤ l.wear then l
  else
    let j := l.journal ++ [⟨r, seq, kind, detail, l.cold, l.warm⟩]
    { l with journal := if 12288 < j.length then j.drop 1 else j, writes := l.writes + 1 }

/-- The state area is written because something it keeps has changed (18 R570); at WEAR 100 nothing more is written (18 R573). -/
def State.logArea (s : State) : State :=
  if 100 ≤ s.ev.log.wear then s else { s with ev := { s.ev with log := { s.ev.log with area := s.ev.log.area + 1 } } }

/-- Journal a record. -/
def State.journal (s : State) (r : EvRec) (seq kind detail : Nat) : State :=
  { s with ev := { s.ev with log := s.ev.log.append r seq kind detail } }

/-! ### Event Queues (17 R536–R541) -/

/-- A queue's own state. -/
def State.evq (s : State) (q : Nat) : EvqSt := if q = 0 then s.ev.q0 else if q = 1 then s.ev.q1 else s.ev.q2
/-- Replace a queue's own state. -/
def State.setEvq (s : State) (q : Nat) (x : EvqSt) : State :=
  { s with ev := if q = 0 then { s.ev with q0 := x } else if q = 1 then { s.ev with q1 := x } else { s.ev with q2 := x } }
/-- Records a queue has room for: 2^SIZE_LOG2, or 12,288 in the Service queue (R538). -/
def State.evqSize (s : State) (q : Nat) : Nat := if q = 2 then 12288 else 2 ^ s.rf (a_EVQ_CTL q) f_EVQ_CTL_SIZE_LOG2
/-- Unconsumed records (R538). -/
def State.evqCount (s : State) (q : Nat) : Nat :=
  (s.rf (a_EVQ_PROD q) f_EVQ_PROD_PROD + s.evqSize q - s.rf (a_EVQ_CONS q) f_EVQ_CONS_CONS) % s.evqSize q
/-- Bus Master Enable of a Wharf function (14 R436, R440): 0 PF0, 1 PF1, 2 + v VF v. -/
def State.fnBme (s : State) (fn : Nat) : Bool :=
  if fn = 0 then s.port.pf0Bme
  else if fn = 1 then s.rf a_WHF_ROLE f_WHF_ROLE_PF1_BME == 1
  else s.rf (a_WHF_VF_CTL (fn - 2)) f_WHF_VF_CTL_ENABLED == 1 && s.rf (a_WHF_VF_CTL (fn - 2)) f_WHF_VF_CTL_BME == 1
/-- May a vector be sent: the function's Bus Master Enable is set, and the host masks neither the function nor the vector (14 R436)? -/
def State.msixOpen (s : State) (fn vec : Nat) : Bool := s.fnBme fn && !s.port.maskedFn.contains fn && !s.port.masked.contains (fn, vec)
/-- Raise an MSI-X vector of a Wharf function: sent, or pending while it may not be (14 R436, R455). -/
def State.msixRaise (s : State) (fn vec : Nat) : State :=
  if s.msixOpen fn vec then { s with ev := { s.ev with msix := s.ev.msix ++ [(fn, vec)] } }
  else if s.port.msixPend.contains (fn, vec) then s
  else { s with port := { s.port with msixPend := s.port.msixPend ++ [(fn, vec)] } }
/-- A queue's interrupt: internal sources 0x0C1 and 0x0C0, or PF0 MSI-X vector 0 (R536). -/
def State.evqRaise (s : State) (q : Nat) : State :=
  if q = 0 then s.raiseIrq 0x0C1 0 else if q = 1 then s.raiseIrq 0x0C0 0
  else s.msixRaise 0 0
/-- The interrupt test of R539: raised once, and again only after a write to CONS. -/
def State.evqTest (s : State) (q : Nat) : State :=
  let n := s.evqCount q
  let th := s.rf (a_EVQ_CTL q) f_EVQ_CTL_THRESH
  let hold := (th != 0 && decide (th ≤ n)) || (s.rf (a_EVQ_CTL q) f_EVQ_CTL_NE_IRQ == 1 && n != 0)
  if hold && !(s.evq q).quiet then (s.setEvq q { s.evq q with quiet := true }).evqRaise q else s

/-- The 32 bytes of a record with its SEQ (R537). -/
def EvRec.bytes (r : EvRec) (seq : Nat) : List Byte :=
  leBytes 8 (r.typ % 2 ^ 16 + (r.sev % 16) * 2 ^ 16 + (r.source % 2 ^ 16) * 2 ^ 20 + (r.vmid % 2 ^ 16) * 2 ^ 36 + (seq % 4096) * 2 ^ 52) ++
  leBytes 8 r.mt ++ leBytes 8 r.w2.toNat ++ leBytes 8 r.w3.toNat

/-- Event push (R518): a record of the Service queue as a datagram to the collector, while PUSH_EN. -/
def State.pushRec (s : State) (bs : List Byte) : State :=
  match s.gal.net with
  | some n => if n.pushEn then { s with gal := { s.gal with sent := s.gal.sent ++ [.udp n.collector n.port bs] } } else s
  | none => s

/-- A security violation (15 R480), its record given to `emit`, or counted in TOL_CTL.SUPPRESSED within 1 ms of the same requester's last record. -/
def State.violBy (emit : State → EvRec → State) (s : State) (source vmid reqType req kind target : Nat) : State :=
  let key := reqType * 2 ^ 20 + req
  let last := smGet (fun _ => 0) s.ev.viol key
  if last != 0 && decide (s.time.mt + 1 < last + 1000000) then s.addSat a_TOL_CTL f_TOL_CTL_SUPPRESSED 1
  else
    emit { s with ev := { s.ev with viol := smSet (fun _ => 0) s.ev.viol key (s.time.mt + 1) } }
      ⟨0x0901, 0, source, vmid, s.time.mt, BitVec.ofNat 64 target, BitVec.ofNat 64 (req % 2 ^ 20 + kind * 2 ^ 20 + reqType * 2 ^ 24)⟩

/-- Store a record in its slot and advance PROD and SEQ (R538); a failed write of memory clears EN, sets FAULT and journals the record (R541). A Normal record for a Secure line is not written, and `refused` gets the address (15 R458). -/
def State.putWith (refused : State → Nat → State) (s : State) (q : Nat) (r : EvRec) : State :=
  let seq := (s.evq q).seq
  let prod := s.rf (a_EVQ_PROD q) f_EVQ_PROD_PROD
  let addr := s.rf (a_EVQ_BASE q) f_EVQ_BASE_BASE * 4096 + 32 * prod
  let secOk := q = 0 || !s.lineSec (addr / 64)
  let ok := q = 2 || (s.isMem addr && !s.memFailed (addr / 64))
  if ok then
    let s1 := if q = 2 then { s with ev := { s.ev with svc := putBytes s.ev.svc (0xA0000 + 32 * prod) (r.bytes seq) } }
      else if secOk then s.writeBytes addr (r.bytes seq) 0 else refused s addr
    let s2 := (if q = 2 then s1.pushRec (r.bytes seq) else s1).wf (a_EVQ_PROD q) f_EVQ_PROD_PROD ((prod + 1) % s.evqSize q)
    (s2.setEvq q { s2.evq q with seq := (seq + 1) % 4096 }).evqTest q
  else
    ((s.wf (a_EVQ_CTL q) f_EVQ_CTL_EN 0).wf (a_EVQ_STAT q) f_EVQ_STAT_FAULT 1).journal r 0 1 0

/-- Count a dropped record. -/
def State.evqDrop (s : State) (q : Nat) : State := s.addSat (a_EVQ_STAT q) f_EVQ_STAT_DROPPED 1

/-- Free slots: a queue holds at most size − 1 records (R538). -/
def State.evqFree (s : State) (q : Nat) : Nat := s.evqSize q - 1 - s.evqCount q

/-- Offer a record to one queue (R540), which `put` stores: held before the Host queue's first enable (20 R598), dropped while disabled or overflowing, an OVERFLOW record in the last slot. -/
def State.offerWith (put : State → Nat → EvRec → State) (s : State) (q : Nat) (r : EvRec) : State :=
  if s.rf (a_EVQ_CTL q) f_EVQ_CTL_EN = 0 then
    if q = 1 && !(s.evq 1).everEnabled && decide ((s.evq 1).held.length < 256) then
      s.setEvq 1 { s.evq 1 with held := (s.evq 1).held ++ [r] }
    else s.evqDrop q
  else if (s.evq q).dropping then
    let need := if q = 2 then 1536 else max 2 (s.evqSize q / 8)
    if need ≤ s.evqFree q then put (s.setEvq q { s.evq q with dropping := false }) q r else s.evqDrop q
  else if s.evqFree q = 0 then (s.setEvq q { s.evq q with dropping := true }).evqDrop q
  else if s.evqFree q = 1 then
    let ovf : EvRec := ⟨0x0001, 0, 1000, 0, s.time.mt, BitVec.ofNat 64 (s.rf (a_EVQ_STAT q) f_EVQ_STAT_DROPPED), 0⟩
    ((put (s.setEvq q { s.evq q with dropping := true }) q ovf).wf (a_EVQ_STAT q) f_EVQ_STAT_OVF 1).evqDrop q
  else put s q r

/-- A record refused at a Secure line is the Lengthsman's violation, KIND 2, offered to the Secure queue, whose own records are never refused (15 R456, R458, R480; its requester is the HOST ring, notes/assumptions/124.md). -/
def State.recRefused (s : State) (a : Nat) : State :=
  s.violBy (fun s r => s.offerWith (State.putWith (fun s _ => s)) 0 r) (448 + (s.homeLoc (a / 64)).elim 0 (·.slice)) 0 2 1 2 a
/-- Store a record. -/
def State.putRec : State → Nat → EvRec → State := State.putWith State.recRefused
/-- Offer a record to one queue. -/
def State.offer : State → Nat → EvRec → State := State.offerWith State.putRec

/-- The SEQ a queue would give a record now, or 0 when no queue would write it (18 R571). -/
def State.seqFor (s : State) (q : Nat) : Nat :=
  if s.rf (a_EVQ_CTL q) f_EVQ_CTL_EN = 0 || (s.evq q).dropping || decide (s.evqFree q ≤ 1) then 0 else (s.evq q).seq

/-- Is a record journalled (18 R570): severity 3, 4 or 6, or CORE_SPARED? -/
def EvRec.journalled (r : EvRec) : Bool := r.sev == 3 || r.sev == 4 || r.sev == 6 || r.typ == 0x0A01

/-- Decide an event: journal it, offer it to its queue, and offer a Host record to the Service queue by its severity (R536). -/
def State.post (s : State) (q : Nat) (r : EvRec) : State :=
  let s1 := if r.journalled then s.journal r (s.seqFor q) (if r.typ == 0x0A01 then 2 else 1) 0 else s
  let s2 := if q = 1 && (s1.rf a_EVQ_SVC_FILTER f_EVQ_SVC_FILTER_SEV_MASK).testBit r.sev then s1.offer 2 r else s1
  s2.offer q r

/-- Decide a Host event with its MT. -/
def State.hostEv (s : State) (typ sev source vmid : Nat) (w2 w3 : Nat) : State :=
  s.post 1 ⟨typ, sev, source, vmid, s.time.mt, BitVec.ofNat 64 w2, BitVec.ofNat 64 w3⟩

/-- A fatal condition (18 R549): the fatal reset's journal record (R570), severity-4 event, copied to the Service queue as its filter says (17 R536; DEDUCED, notes/assumptions/133.md), and a warm chip reset 10 µs later. -/
def State.fatal (s : State) (typ source w2 w3 : Nat) (vmid : Nat := 0) : State :=
  match s.ev.fatalAt with
  | some _ => s.hostEv typ 4 source vmid w2 w3
  | none =>
    let s1 := (s.journal ⟨typ, 4, source, vmid, s.time.mt, BitVec.ofNat 64 w2, BitVec.ofNat 64 w3⟩ 0 4 typ).hostEv typ 4 source vmid w2 w3
    { s1 with ev := { s1.ev with fatalAt := some (s.time.mt + 10000) } }

/-- A replacement trigger (18 R568, R569): its GAL_REPLACE bit, GAL_HEALTH.REPLACE, and the time of the first; the event is written once per trigger, that is, per bit (DEDUCED, notes/assumptions/132.md). -/
def State.replaceReq (s : State) (b typ source w2 w3 : Nat) : State :=
  let g := s.reg a_GAL_REPLACE
  if bit g b then s
  else
    let s1 := s.hostEv typ 6 source 0 w2 w3
    let g1 := if fld g 0 8 = 0 then setFld g 32 32 s.time.mt else g
    (s1.setReg a_GAL_REPLACE (setBit g1 b true)).wf a_GAL_HEALTH f_GAL_HEALTH_REPLACE 1

/-- A security violation (15 R480), recorded in the Secure Event Queue. -/
def State.secViol : State → (source vmid reqType req kind target : Nat) → State := State.violBy (fun s r => s.post 0 r)

/-- A core thread's violation at a memory line (KIND 1 read, 2 write, 3 fetch, 4 maintenance): checked by the home slice. -/
def State.coreViol (s : State) (t kind a : Nat) : State :=
  s.secViol (448 + (s.homeLoc (a / 64)).elim 0 (·.slice)) (s.reqVmid t) 0 t kind a

/-- The first access to a page of an absent unit or to an unassigned offset writes one event (00 R7, 01 R27). -/
def State.pageEvent (s : State) (off : Nat) (write : Bool) (absent : Option Nat) (reqType req vmid : Nat) : State :=
  let page := off / 65536
  if s.seenPages.contains page then s
  else
    let s1 := { s with seenPages := page :: s.seenPages }
    s1.hostEv (if absent.isSome then 0x0002 else 0x0003) 0 (absent.getD 1000) vmid (off % 2 ^ 40 + write.toNat * 2 ^ 40)
      (req % 2 ^ 20 + reqType * 2 ^ 24)

end Sys2Proof.Machine
end

