-- ==== Sys2Proof/Machine/Votes.lean ====
section
/-! DEFINITION. Votes of the power domains and what a domain does when they change (spec/16_power.md R491–R496, R503, R504). -/
namespace Sys2Proof.Machine

/-- Votes of a domain (R492). -/
def State.votes (s : State) (d : Nat) : Nat := s.rf (a_PVC_DOM d) f_PVC_DOM_VOTES
/-- HOST_DIRECT mode (R504). -/
def State.hostDirect (s : State) : Bool := s.rf a_PVC_STAT f_PVC_STAT_HOST_DIRECT == 1
/-- Does the domain follow its votes: outside HOST_DIRECT, or holding SEC when the mode was entered from the HOST ring (R504)? -/
def State.byVotes (s : State) (d : Nat) : Bool :=
  !s.hostDirect || (s.rf a_PVC_STAT f_PVC_STAT_RING == 1 && (s.votes d).testBit 0)
/-- Is the domain's unit a spare core that is not being brought into service, or that spare's long-vector unit (R491, 18 R558)? -/
def State.domHeldSpare (s : State) (d : Nat) : Bool :=
  decide (d < 448) && s.coreMap.any (fun e => e.phys == d % 224 && e.st == .spare) && s.ras.sparing.all (fun x => x.spare != d % 224)

/-- Start the wake sequence of a domain that is off (R497): absent, failed and held spare units stay off (R491, R493), and none wakes while the boot awaits SYS_REFCLK (R501). -/
def State.startWake (s : State) (d : Nat) : State :=
  if s.domState d = 0 && !s.domHeldSpare d && s.rf a_GAL_HEALTH f_GAL_HEALTH_STATE != 3 then
    { s.wf (a_PVC_DOM d) f_PVC_DOM_STATE 1 with
      pwr := { s.pwr with attempts := smSet (fun _ => 0) s.pwr.attempts d 1, firstMt := smSet (fun _ => 0) s.pwr.firstMt d s.time.mt } }
  else s

/-- Begin switching a running domain off, or defer it when its bucket is empty (R496, R503). -/
def State.startOff (s : State) (d : Nat) : State :=
  if s.rf (a_PVC_DOM d) f_PVC_DOM_TOKENS = 0 then
    if s.rf (a_PVC_DOM d) f_PVC_DOM_DEFERRED = 1 then s
    else
      (s.wf (a_PVC_DOM d) f_PVC_DOM_DEFERRED 1).wf a_PVC_CNT_DEFERRED f_PVC_CNT_DEFERRED_VALUE
        (s.rf a_PVC_CNT_DEFERRED f_PVC_CNT_DEFERRED_VALUE + 1)
  else (s.wf (a_PVC_DOM d) f_PVC_DOM_DEFERRED 0).wf (a_PVC_DOM d) f_PVC_DOM_STATE 3

/-- Let a domain follow its votes (R493, R495): a vote wakes a domain that is off, abandons a switch-off that has not reached step 2, and ends a deferral; the last vote withdrawn begins a switch-off. A wake in progress completes first. -/
def State.followVotes (s : State) (d : Nat) : State :=
  if !s.byVotes d then s
  else
    let on := s.votes d != 0
    let st := s.domState d
    if on then
      if st = 0 then s.startWake d
      else if st = 3 then s.wf (a_PVC_DOM d) f_PVC_DOM_STATE 2
      else if st = 2 && s.rf (a_PVC_DOM d) f_PVC_DOM_DEFERRED == 1 then s.wf (a_PVC_DOM d) f_PVC_DOM_DEFERRED 0
      else s
    else if st = 2 then s.startOff d
    else s

/-- Place or withdraw a holder's vote: bit 0 SEC, 1 HYP, 2 LKP, 3 LEN, 4 DEP (R492). -/
def State.setVote (s : State) (d holder : Nat) (on : Bool) : State :=
  let v := s.votes d
  let v' := if on then (if v.testBit holder then v else v + 2 ^ holder) else (if v.testBit holder then v - 2 ^ holder else v)
  if v' = v then s else (s.wf (a_PVC_DOM d) f_PVC_DOM_VOTES v').followVotes d

end Sys2Proof.Machine
end

