-- ==== Sys2Proof/Machine/Grid.lean ====
section
/-! DEFINITION. The grid of the mesh: stops, attachments, routing, and the counting of messages along their routes (spec/08_mesh_coherence.md R200, R201, R207, R208; spec/01_architecture.md R14–R16; spec/16_power.md R494). -/
namespace Sys2Proof.Machine

/-! ### The grid (R200, 01 R14–R16) -/

/-- Grid row of a stop. -/
def gridRow (s : Nat) : Nat := 7 * (s / 56 / 2) + s % 56 / 8
/-- Grid column of a stop. -/
def gridCol (s : Nat) : Nat := 8 * (s / 56 % 2) + s % 56 % 8
/-- The stop at a grid position. -/
def stopAt (r c : Nat) : Nat := 56 * (2 * (r / 7) + c / 8) + 8 * (r % 7) + c % 8
/-- The stops at which aqueducts 30–37 join the grid (01 R15). -/
def ioStops : List Nat := [54, 55, 104, 105, 166, 167, 216, 217]

/-- The aqueduct that an element is, if it is one (01 R16). -/
def Elem.aq (e : Elem) : Option Nat :=
  let r := gridRow e.stop
  let c := gridCol e.stop
  if e.kind = 0 then (if c = 7 then some r else none)
  else if e.kind = 1 then (if r = 6 then some (14 + c) else none)
  else if e.kind = 4 then (ioStops.findIdx? (· == e.stop)).map (30 + ·)
  else none

/-- Does the element exist: a link to a grid neighbour, a half-junction, or an I/O aqueduct? -/
def Elem.ok (e : Elem) : Bool :=
  decide (e.stop < 224) && ((e.kind == 0 && decide (gridCol e.stop < 15)) || (e.kind == 1 && decide (gridRow e.stop < 13)) || e.kind == 2 || e.kind == 3 ||
    (e.kind == 4 && ioStops.contains e.stop))

/-- The stop at the other end of a link; an I/O aqueduct ends on the I/O tile, written 224. -/
def Elem.far (e : Elem) : Nat :=
  if e.kind = 0 then stopAt (gridRow e.stop) (gridCol e.stop + 1) else if e.kind = 1 then stopAt (gridRow e.stop + 1) (gridCol e.stop) else 224

/-- MSH_FAULT_n image of an element (R239). -/
def Elem.image (e : Elem) : Nat := 1 + e.kind * 2 + e.stop * 2 ^ 8

/-- Elements listed in MSH_FAULT_0–MSH_FAULT_7. -/
def State.meshFaults (s : State) : List Elem :=
  (List.range 8).filterMap (fun n => if s.rf (a_MSH_FAULT n) f_MSH_FAULT_VALID = 1 then some ⟨s.rf (a_MSH_FAULT n) f_MSH_FAULT_KIND, s.rf (a_MSH_FAULT n) f_MSH_FAULT_STOP⟩ else none)

/-! ### Routing (R207, R208) -/

/-- Is x within [a, b] in either order? -/
def between (x a b : Nat) : Bool := decide (min a b ≤ x) && decide (x ≤ max a b)

/-- Does the column-first route between two positions cross an element (R207)? -/
def Elem.crossed (e : Elem) (r0 c0 r1 c1 : Nat) : Bool :=
  let r := gridRow e.stop
  let c := gridCol e.stop
  if e.kind = 0 then r == r0 && decide (min c0 c1 ≤ c) && decide (c < max c0 c1)
  else if e.kind = 1 then c == c1 && decide (min r0 r1 ≤ r) && decide (r < max r0 r1)
  else if e.kind = 2 then r == r0 && c0 != c1 && between c c0 c1
  else if e.kind = 3 then c == c1 && r0 != r1 && between r r0 r1
  else false

/-- Is a column-first segment free of failed elements? -/
def segOk (fs : List Elem) (r0 c0 r1 c1 : Nat) : Bool := fs.all (fun e => !e.crossed r0 c0 r1 c1)

/-- The intermediate position of a route under R207: none on the direct route; no route at all is the outer `none`. -/
def routeOf (fs : List Elem) (a b : Nat) : Option (Option (Nat × Nat)) :=
  let r0 := gridRow a
  let c0 := gridCol a
  let r1 := gridRow b
  let c1 := gridCol b
  let via (r c : Nat) : Bool := segOk fs r0 c0 r c && segOk fs r c r1 c1
  if segOk fs r0 c0 r1 c1 then some none
  else if via r1 c0 then some (some (r1, c0))
  else if r0 = r1 then
    let r := if r0 = 13 then 12 else r0 + 1
    if via r c0 then some (some (r, c0)) else none
  else if c0 = c1 then
    let c := if c0 = 15 then 14 else c0 + 1
    if via r1 c then some (some (r1, c)) else none
  else none

/-- Numbers from a to b in either order. -/
def spanOf (a b : Nat) : List Nat := if a ≤ b then (List.range (b + 1 - a)).map (a + ·) else (List.range (a + 1 - b)).map (fun k => a - k)

/-- Stops of a column-first segment in order. -/
def segStops (r0 c0 r1 c1 : Nat) : List Nat := (spanOf c0 c1).map (stopAt r0) ++ ((spanOf r0 r1).drop 1).map (fun r => stopAt r c1)

/-- Stops of a route in order. -/
def pathOf (fs : List Elem) (a b : Nat) : List Nat :=
  match routeOf fs a b with
  | some (some (r, c)) => segStops (gridRow a) (gridCol a) r c ++ (segStops r c (gridRow b) (gridCol b)).drop 1
  | _ => segStops (gridRow a) (gridCol a) (gridRow b) (gridCol b)

/-- The links a path uses, each with its direction: BA when the message goes from the higher-numbered end to the lower. -/
def linksOf : List Nat → List (Elem × Bool)
  | a :: b :: r => (⟨if gridRow a = gridRow b then 0 else 1, min a b⟩, decide (b < a)) :: linksOf (b :: r)
  | _ => []

/-- Is an aqueduct out of service? -/
def State.aqFailed (s : State) (n : Nat) : Bool := s.rf (a_MSH_AQ_STAT n) f_MSH_AQ_STAT_FAILED == 1

/-- The I/O aqueduct that serves a stop (R208): by the parity of its grid column; the pair's other one when it has failed, and the pair of tile t xor 1 when both have. -/
def State.ioAq (s : State) (stop : Nat) : Nat :=
  let t := stop / 56
  let n := 30 + 2 * t + gridCol stop % 2
  let m := 30 + 2 * t + (1 - gridCol stop % 2)
  if !s.aqFailed n then n else if !s.aqFailed m then m
  else
    let u := if t % 2 = 0 then t + 1 else t - 1
    if !s.aqFailed (30 + 2 * u + gridCol stop % 2) then 30 + 2 * u + gridCol stop % 2 else 30 + 2 * u + (1 - gridCol stop % 2)

/-- The grid part of a route between two ends, of which one of 224 or more is on the I/O tile: its first and last stop; none when the message does not enter the grid. -/
def State.gridEnds (s : State) (src dst : Nat) : Option (Nat × Nat) :=
  if src < 224 && dst < 224 then some (src, dst)
  else if src < 224 then some (src, ioStops.getD (s.ioAq src - 30) 0)
  else if dst < 224 then some (ioStops.getD (s.ioAq dst - 30) 0, dst)
  else none

/-- Stops a message passes, in order. -/
def State.pathAt (s : State) (src dst : Nat) : List Nat :=
  match s.gridEnds src dst with
  | some (a, b) => pathOf s.meshFaults a b
  | none => []

/-- Links a message uses, in order, with their directions: those of the grid, and the I/O aqueduct at the end that is on the I/O tile. -/
def State.linksAt (s : State) (src dst : Nat) : List (Elem × Bool) :=
  match s.gridEnds src dst with
  | some (a, b) => (if 224 ≤ src then [(⟨4, a⟩, true)] else []) ++ linksOf (pathOf s.meshFaults a b) ++ (if 224 ≤ dst then [(⟨4, b⟩, false)] else [])
  | none => []

/-- Aqueducts a message crosses, with their directions. -/
def State.aqsAt (s : State) (src dst : Nat) : List (Nat × Bool) := (s.linksAt src dst).filterMap (fun x => x.1.aq.map (fun n => (n, x.2)))

/-- Does a message take an intermediate stop? -/
def State.detours (s : State) (src dst : Nat) : Bool :=
  match s.gridEnds src dst with
  | some (a, b) => (match routeOf s.meshFaults a b with | some (some _) => true | _ => false)
  | none => false

/-- Count a message of some flits along its route (19 R584, R588), MESH_DETOUR at the junction where it enters the grid, and keep each aqueduct it crosses awake (16 R494). -/
def State.countRoute (s : State) (src dst flits : Nat) : State :=
  let q : Rqr := if src < 224 then { core := some src } else {}
  let s1 := (s.pathAt src dst).foldl (fun s x => s.countSlice x 0x029 q .none none flits) s
  let s2 := (s.aqsAt src dst).foldl (fun s x =>
    let s1 := (s.countUnc (a_UNC_CFG_AQ x.1 0) 4 none 0x029 q .none none flits).accBw (20 + x.1) x.2.toNat (64 * flits)
    ({ s1 with msh := { s1.msh with aqLast := smSet (fun _ => 0) s1.msh.aqLast x.1 (s.time.mt + 1) } }).setVote (672 + x.1) 4 true) s1
  if s.detours src dst then s2.countSlice ((s.gridEnds src dst).elim src (·.1)) 0x028 q .none none 1 else s2

/-- Is a link direction out of use for now: in retraining, or declared failed and not yet rerouted (R213 steps 2 to 6)? -/
def State.linkStuck (s : State) (e : Elem) (ba : Bool) : Bool :=
  s.msh.retrain.any (fun x => x.1 == e && x.2.1 == ba) || s.msh.failing.any (fun x => x.1 == e)

/-- Can a message cross now: every aqueduct of its route serves (16 R494, R514) and no link of it is out of use (R213)? -/
def State.routeUp (s : State) (src dst : Nat) : Bool :=
  (s.aqsAt src dst).all (fun x => s.domServing (672 + x.1)) && (s.linksAt src dst).all (fun x => !s.linkStuck x.1 x.2)
/-- A message waits: it places the DEP votes of the aqueducts of its route. -/
def State.askRoute (s : State) (src dst : Nat) : State := (s.aqsAt src dst).foldl (fun s x => s.setVote (672 + x.1) 4 true) s

/-! ### Attachments (01 R15, 09 R243) -/

/-- The stop at which a DDR5 channel's controller attaches. -/
def ddrStop (c : Nat) : Nat := [1, 62, 161, 222, 2, 61, 162, 221, 3, 60, 163, 220, 4, 59, 164, 219].getD c 0
/-- The stop of a port of an HBM controller: ports 0–6 at rows 0–6 of the tile's outer column, port 7 the second one at row 3. -/
def hbmStop (st port : Nat) : Nat := [0, 63, 112, 175].getD st 0 + 8 * (if port = 7 then 3 else port)

/-- Has every pair of stops a route (R207, R215)? -/
def routable (fs : List Elem) : Bool := (List.range 224).all (fun a => (List.range 224).all (fun b => (routeOf fs a b).isSome))

end Sys2Proof.Machine
end

