-- ==== Sys2Proof/Machine/Links.lean ====
section
/-! DEFINITION. The links of the ports: which of them carries an access, the registers of the root-port functions, tags and outstanding requests (spec/14_expansion_ports.md R420–R423, R426, R428, R430–R433, R440, R442). -/
namespace Sys2Proof.Machine

/-- Offset of the RPT_ register page of port p; the Wharf is port 8. -/
def portBase (p : Nat) : Nat := if p = 8 then 0x2900000 else 0x2000000 + 0x100000 * p
/-- Slot of an MMIO address (R422): the port it belongs to. -/
def slotOf (a : Nat) : Nat := (a - 0x000E000000000000) / 2 ^ 44
/-- Offset within the slot. -/
def slotOff (a : Nat) : Nat := (a - 0x000E000000000000) % 2 ^ 44
/-- Event SOURCE of a port (R444). -/
def portSource (p : Nat) : Nat := if p = 8 then 766 else 750 + p
/-- Is link l of port p trained (R446)? -/
def State.linkUp (s : State) (p l : Nat) : Bool := bit (s.reg (portBase p + 0x100 + 8 * l)) 0
/-- Is any link of port p up? -/
def State.portUp (s : State) (p : Nat) : Bool := (List.range 4).any (s.linkUp p)
/-- The Wharf presents its endpoint functions (R435). -/
def State.wharfEp (s : State) : Bool := s.rf a_WHF_ROLE f_WHF_ROLE_ROLE == 1
/-- Function of an endpoint-role outbound offset (R440): 1 PF1, 2 + v VF v, with the window number. -/
def whfWindow (off : Nat) : Option Nat :=
  if off < 2 ^ 32 then none
  else if off < 2 ^ 43 then some 0
  else if off < 2 ^ 43 + 16 * 2 ^ 39 then some (1 + (off - 2 ^ 43) / 2 ^ 39)
  else none
/-- Start of an outbound window. -/
def whfStart (w : Nat) : Nat := if w = 0 then 2 ^ 32 else 2 ^ 43 + (w - 1) * 2 ^ 39
/-- Does BIFUR create the link (R421)? In the endpoint role the Wharf has its upstream link alone. -/
def State.linkExists (s : State) (p l : Nat) : Bool :=
  if p = 8 && s.wharfEp then l == 0
  else
    let b := fld (s.reg (portBase p)) 0 3
    decide (l < (if b = 0 then 1 else if b = 1 then 2 else if b = 2 || b = 3 then 3 else 4))
/-- Is a function being disabled in a way that refuses inbound requests and new outbound ones (R442 steps 1 and 4)? -/
def State.fnStopping (s : State) (fn : Nat) : Bool := s.port.stops.any (fun x => x.fn == fn && x.cause != 3)
/-- May a request leave through an outbound window (R440)? One of a function that is being disabled is discarded (R442 step 4). -/
def State.whfOpen (s : State) (w : Nat) : Bool :=
  s.linkUp 8 0 && !s.fnStopping (w + 1) &&
    (if w = 0 then s.rf a_WHF_ROLE f_WHF_ROLE_PF1_BME == 1
     else s.rf (a_WHF_VF_CTL (w - 1)) f_WHF_VF_CTL_ENABLED == 1 && s.rf (a_WHF_VF_CTL (w - 1)) f_WHF_VF_CTL_BME == 1)
/-- The host address of an endpoint-role access (R440). -/
def State.whfHost (s : State) (off w : Nat) : Nat :=
  (s.rf (a_WHF_OUT w) f_WHF_OUT_HOST_BASE * 4096 + (off - whfStart w)) % 2 ^ 64
/-- Address an MMIO access carries on the link. -/
def State.mmioBus (s : State) (a : Nat) : Nat :=
  if slotOf a = 8 && s.wharfEp then
    match whfWindow (slotOff a) with
    | some w => s.whfHost (slotOff a) w
    | none => 0
  else slotOff a

/-! ### Root-port functions (R420, R421, R423, R433) -/

/-- The function of a link. -/
def State.rootOf (s : State) (p l : Nat) : RootFn := smGet (fun _ => RootFn.reset) s.port.fns (4 * p + l)
/-- Change the function of a link. -/
def State.updRoot (s : State) (p l : Nat) (f : RootFn → RootFn) : State :=
  { s with port := { s.port with fns := smSet (fun _ => RootFn.reset) s.port.fns (4 * p + l) (f (s.rootOf p l)) } }
/-- Does a bus lie below the function? -/
def RootFn.hasBus (x : RootFn) (b : Nat) : Bool := b != 0 && decide (x.buses / 2 ^ 8 % 256 ≤ b) && decide (b ≤ x.buses / 2 ^ 16 % 256)
/-- Does a bus address lie in one of the function's bridge windows? -/
def RootFn.hasAddr (x : RootFn) (a : Nat) : Bool :=
  let lo (d : Nat) : Nat := d / 2 ^ 4 % 2 ^ 12 * 2 ^ 20
  let hi (d : Nat) : Nat := d / 2 ^ 20 % 2 ^ 12 * 2 ^ 20 + 0xFFFFF
  (decide (lo x.mem ≤ a) && decide (a ≤ hi x.mem)) || (decide (x.prefHi * 2 ^ 32 + lo x.pref ≤ a) && decide (a ≤ x.limitHi * 2 ^ 32 + hi x.pref))
/-- The link of a port with a given property of its function. -/
def State.linkWith (s : State) (p : Nat) (f : RootFn → Bool) : Option Nat := (List.range 4).find? (fun l => s.linkExists p l && f (s.rootOf p l))
/-- ACS control bits that read 1 and cannot be cleared (R420): Source Validation, Request Redirect, Completion Redirect, Upstream Forwarding. -/
def acsFixed : Nat := 0x1D
/-- A dword of a function's configuration space; one that the spec says nothing of is a free value (notes/assumptions/107.md). -/
def State.rootDword (s : State) (p l r : Nat) : Nat :=
  let x := s.rootOf p l
  if r = 0x18 then x.buses
  else if r = 0x20 then x.mem
  else if r = 0x24 then x.pref
  else if r = 0x28 then x.prefHi
  else if r = 0x2C then x.limitHi
  else if r = Config.aerCap + 4 then x.uncor
  else if r = Config.aerCap + 0x10 then x.cor
  else if Config.aerCap + 0x1C ≤ r && decide (r < Config.aerCap + 0x2C) then x.hdr / 2 ^ (8 * (r - (Config.aerCap + 0x1C))) % 2 ^ 32
  else if r = Config.dpcCap + 8 then (bit (s.reg (portBase p + 0x100 + 8 * l)) 2).toNat + (Config.freeWord s.freeCtr 0x422).toNat % 2 ^ 31 * 2
  else if r = Config.acsCap + 4 then acsFixed + (x.acs ||| acsFixed) * 2 ^ 16
  else (Config.freeWord s.freeCtr 0x421).toNat % 2 ^ 32
/-- Read n bytes of a function's configuration space, naturally aligned. -/
def State.rootRead (s : State) (p l r n : Nat) : Nat := s.rootDword p l (r / 4 * 4) / 2 ^ (8 * (r % 4)) % 2 ^ (8 * n)
/-- Write n bytes of a function's configuration space: bus numbers and bridge windows; a 1 clears an AER status bit; a 1 in DPC's trigger status releases the link (R433); the fixed ACS bits stay. -/
def State.rootWrite (s : State) (p l r n v : Nat) : State :=
  let sh := 2 ^ (8 * (r % 4))
  let m := (2 ^ (8 * n) - 1) * sh
  let w := v % 2 ^ (8 * n) * sh
  let put (old : Nat) : Nat := old - (old &&& m) + w
  let d := r / 4 * 4
  if d = 0x18 then s.updRoot p l (fun x => { x with buses := put x.buses })
  else if d = 0x20 then s.updRoot p l (fun x => { x with mem := put x.mem })
  else if d = 0x24 then s.updRoot p l (fun x => { x with pref := put x.pref })
  else if d = 0x28 then s.updRoot p l (fun x => { x with prefHi := put x.prefHi })
  else if d = 0x2C then s.updRoot p l (fun x => { x with limitHi := put x.limitHi })
  else if d = Config.aerCap + 4 then s.updRoot p l (fun x => { x with uncor := x.uncor - (x.uncor &&& w) })
  else if d = Config.aerCap + 0x10 then s.updRoot p l (fun x => { x with cor := x.cor - (x.cor &&& w) })
  else if d = Config.dpcCap + 8 then (if w % 2 = 1 then s.setReg (portBase p + 0x100 + 8 * l) (setBit (s.reg (portBase p + 0x100 + 8 * l)) 2 false) else s)
  else if d = Config.acsCap + 4 then s.updRoot p l (fun x => { x with acs := put (x.acs * 2 ^ 16) / 2 ^ 16 % 2 ^ 16 })
  else s
/-- An Unsupported Request logged in a link's AER registers and reported as PCIE_ERROR (R423, R444): uncorrectable, bit 20, or, as PCIe allows for a request that is answered, correctable with it, bit 13 (a free choice); word 3 is the first dword of the header log, whose contents are a free value (notes/assumptions/107.md). -/
def State.aerLog (s : State) (p l : Nat) (answered : Bool) : State :=
  let h := (Config.freeWord s.freeCtr 0x707).toNat + 2 ^ 64 * (Config.freeWord s.freeCtr 0x70A).toNat
  let cor := answered && Config.pick s.freeCtr 46 % 2 == 1
  (s.updRoot p l (fun x => { x with uncor := x.uncor ||| 2 ^ 20, cor := if cor then x.cor ||| 2 ^ 13 else x.cor, hdr := h })).hostEv 0x0707 (if cor then 1 else 3) (portSource p) 0
    (l + (if cor then 13 else 20) * 2 ^ 8) (h % 2 ^ 32)
/-- A memory access that no link's bridge window claims: one of the port's links logs it (which is a free choice). -/
def State.unclaimed (s : State) (p : Nat) (answered : Bool) : State :=
  let ls := (List.range 4).filter (s.linkExists p)
  s.aerLog p (ls.getD (Config.pick s.freeCtr 43 % max 1 ls.length) 0) answered

/-- Where an MMIO access of n bytes goes (R421–R423, R432, R440): nowhere, reading all ones (a link that is down, a window that is closed, a configuration address without a function, a size that ECAM does not accept); to a root-port function's own register; to a link that is up; or to no bridge window. -/
inductive MmioTo where
  | closed
  | own (l r : Nat)
  | link (l : Nat)
  | unclaimed
  deriving DecidableEq, Repr

/-- Is an MMIO address in the ECAM window of a root port (R422)? -/
def State.inEcam (s : State) (a : Nat) : Bool := decide (slotOff a < 0x10000000) && !(slotOf a == 8 && s.wharfEp)
/-- The route of an MMIO access. -/
def State.mmioTo (s : State) (a n : Nat) : MmioTo :=
  let p := slotOf a
  let x := slotOff a
  let via (l : Nat) : MmioTo := if s.linkUp p l then .link l else .closed
  if p = 8 && s.wharfEp then
    match whfWindow x with
    | some w => if s.whfOpen w then .link 0 else .closed
    | none => .closed
  else if s.inEcam a then
    if !(n == 1 || n == 2 || n == 4) || a % n != 0 then .closed
    else if x < 2 ^ 20 then (if s.linkExists p (x / 2 ^ 15 % 32) && x / 2 ^ 12 % 8 == 0 then .own (x / 2 ^ 15 % 32) (x % 4096) else .closed)
    else match s.linkWith p (·.hasBus (x / 2 ^ 20)) with
      | some l => via l
      | none => .closed
  else match s.linkWith p (·.hasAddr x) with
    | some l => via l
    | none => .unclaimed

/-! ### Tags (R420, R431) -/

/-- Owner of a request that nothing waits for any longer. -/
def noOwner : Nat := 2 ^ 40
/-- Tags of a link (R420): 768 toward a device that declares 10-bit tags, else 256. -/
def State.tagCount (s : State) (p l : Nat) : Nat := if s.port.short.contains (4 * p + l) then 256 else 768
/-- Lowest tag of a link neither in use nor quarantined (R431). -/
def State.freeTag (s : State) (p l : Nat) : Option Nat :=
  (List.range (s.tagCount p l)).find? (fun k => s.port.out.all (fun o => !(o.port == p && o.link == l && o.tag == k)) && s.port.quar.all (fun q => !(q.1 == 4 * p + l && q.2.1 == k)))
/-- Is it a request's turn for a tag of its link: does none wait, or it first? -/
def State.tagTurn (s : State) (p l kind owner : Nat) : Bool :=
  match s.port.waits.find? (fun w => w.1 == 4 * p + l) with
  | none => true
  | some w => w.2 == (kind, owner)
/-- A request waits for a tag of its link, in order (R431). -/
def State.queueTag (s : State) (p l kind owner : Nat) : State :=
  if s.port.waits.contains (4 * p + l, kind, owner) then s else { s with port := { s.port with waits := s.port.waits ++ [(4 * p + l, kind, owner)] } }
/-- Requests of an owner no longer wait. -/
def State.unqueue (s : State) (kind owner : Nat) : State :=
  if s.port.waits.any (fun w => w.2 == (kind, owner)) then { s with port := { s.port with waits := s.port.waits.filter (fun w => w.2 != (kind, owner)) } } else s
/-- Put a TLP on a link and count its payload (19 R584 PORT_OUT_BYTES). -/
def State.transmit (s : State) (x : TxTlp) : State :=
  let s1 := { s with port := { s.port with tx := s.port.tx ++ [x] } }
  if x.kind = 2 then s1 else (s1.countUnc (portBase x.port + 0x200) 8 none 0x051 {} .write none x.size).accBw (if x.port = 8 then 66 else 58 + x.port) 1 x.size
/-- Who waits for a tag: all reads of devices wait as one. -/
def waitOwner (kind owner : Nat) : Nat := if kind = 4 then 0 else owner
/-- Issue a non-posted request on a link, with the address it carries there; it waits in order when no tag is free (R431). -/
def State.issue (s : State) (p l kind owner a bus n data : Nat) (va : Nat := 0) : State :=
  match s.freeTag p l, s.tagTurn p l kind (waitOwner kind owner) with
  | some k, true =>
    let o : OutReq := { port := p, link := l, tag := k, kind := kind, owner := owner, addr := a, size := n, issued := s.time.mt, va := va, res := none }
    let s1 := (s.unqueue kind (waitOwner kind owner)).transmit ⟨p, if kind = 1 then 1 else 2, bus, n, data⟩
    { s1 with port := { s1.port with out := s1.port.out ++ [o] } }
  | _, _ => s.queueTag p l kind (waitOwner kind owner)
/-- The outstanding request of an owner at an address. -/
def State.outOf (s : State) (kind owner a n : Nat) : Option OutReq :=
  s.port.out.find? (fun o => o.kind == kind && o.owner == owner && o.addr == a && o.size == n)
/-- Name of an outstanding request. -/
def OutReq.id (o : OutReq) : OutId := ⟨o.port, o.link, o.tag, o.issued⟩
/-- Loads of cores and reads of Barge engines and devices whose completions have not arrived. -/
def State.readsOut (s : State) : List OutId := (s.port.out.filter (fun o => o.kind != 1 && o.kind != 3 && o.kind != 5 && o.res.isNone)).map OutReq.id
/-- Is a listed request still outstanding? -/
def State.stillOut (s : State) (l : List OutId) : Bool := s.readsOut.any l.contains
/-- Remove a request that has ended. -/
def State.endOut (s : State) (o : OutReq) : State := { s with port := { s.port with out := s.port.out.filter (fun x => !(x == o)) } }
/-- Requests that nothing waits for any longer: one that has ended is forgotten, another keeps its tag until its completion. -/
def State.dropOuts (s : State) (f : OutReq → Bool) : State :=
  { s with port := { s.port with out := (s.port.out.filter (fun o => !(f o && o.res.isSome))).map (fun o => if f o then { o with owner := noOwner } else o) } }
/-- A thread's load and configuration write are given up: the thread starts over, or its core has met a machine check. -/
def State.dropLoads (s : State) (t : Nat) : State :=
  let s1 := if s.port.out.any (fun o => o.kind == 0 && o.owner == t) then s.dropOuts (fun o => o.kind == 0 && o.owner == t) else s
  (s1.unqueue 0 t).unqueue 1 t

/-! ### Reads of CXL.mem (R426, R428) -/

/-- Has a read of a line been answered by its device? -/
def State.cxlReady (s : State) (line : Nat) : Bool := s.port.out.any (fun o => o.kind == 5 && o.owner == line && o.res.isSome)
/-- Has a read of a CXL.mem line to wait for its device: its link is up, and no completion has come? -/
def State.cxlWaits (s : State) (line : Nat) : Bool := (s.hdmOf (64 * line)).isSome && !s.cxlDown (64 * line) && !s.cxlReady line
/-- A read of a line that its device has not answered goes out on link 0 of its port. -/
def State.cxlAsk (s : State) (line : Nat) : State :=
  match s.hdmOf (64 * line) with
  | some (p, _) => if s.cxlWaits line && !s.port.out.any (fun o => o.kind == 5 && o.owner == line) then s.issue p 0 5 line (64 * line) (64 * line) 64 0 else s
  | none => s
/-- A read takes the device's answer. -/
def State.cxlTake (s : State) (line : Nat) : State :=
  if s.cxlReady line then { s with port := { s.port with out := s.port.out.filter (fun o => !(o.kind == 5 && o.owner == line && o.res.isSome)) } } else s

end Sys2Proof.Machine
end

