-- ==== Sys2Proof/Machine/Dram.lean ====
section
/-! DEFINITION. The DRAM side of the memory controllers: where an access is served, class bandwidth, refresh debt, open rows and disturbance refresh, and the issue of one request (spec/09_memory.md R243, R247–R258; spec/11_tenancy.md R336, R337). -/
namespace Sys2Proof.Machine

/-- Change the controllers' own state. -/
def State.updMem (s : State) (f : MemSt → MemSt) : State := { s with memx := f s.memx }

/-! ### Units -/

/-- Offset of a unit's register that lies at `off` in a DDR5 or HBM controller page. -/
def memReg (u off : Nat) : Nat := if u < 16 then 0x4000000 + 0x10000 * u + off else 0x5000000 + 0x100000 * (u - 16) + off
/-- Power domain of a unit's controller. -/
def memDom (u : Nat) : Nat := if u < 16 then 710 + u else 742 + (u - 16)
/-- Power domain of a unit's PHY. -/
def memPhy (u : Nat) : Nat := if u < 16 then 726 + u else 746 + (u - 16)
/-- Counter block of a unit. -/
def memBlk (u : Nat) : Nat := if u < 16 then a_UNC_CFG_DMC u 0 else a_UNC_CFG_HMC (u - 16) 0
/-- Is the unit in self-refresh? -/
def State.inSr (s : State) (u : Nat) : Bool := bit (s.reg (memReg u 0x20)) 32
/-- Has a channel failed? -/
def State.chFailed (s : State) (c : Nat) : Bool := s.rf (a_DMC_RAS_STAT c) f_DMC_RAS_STAT_CH_FAILED == 1
/-- Does a channel hold trained DIMMs? -/
def State.chTrained (s : State) (c : Nat) : Bool := decide (c < 16) && s.rf (a_DMC_CFG c) f_DMC_CFG_DPC != 0

/-- Members of a pair that a write goes to: those that work, both until one fails (R263, R265). -/
def State.writeChs (s : State) (c : Nat) : List Nat :=
  match s.partner c with
  | some p => let l := [c, p].filter (fun k => !s.chFailed k); if l.isEmpty then [c] else l
  | none => [c]
/-- The active member of a pair: that of a failed one once its failover has ended (R263). -/
def State.activeCh (s : State) (c : Nat) : Nat :=
  match s.partner c with
  | some p => if s.chFailed c && s.memx.failovers.all (fun f => f.ch != c) then p else c
  | none => c

/-- Where the node that holds a line serves it: its DDR5 channel, both members of a pair for a write (R263), or its HBM pseudo-channel in flat mode (R248). -/
def State.nodeAt (s : State) (line : Nat) (wr : Bool) : List MemAt :=
  match s.targetOf (64 * line) with
  | some (.ddr c a) => (if wr then s.writeChs c else [s.activeCh c]).map (fun k => ⟨k, 0, a⟩)
  | some (.hbm st pc a) => [⟨16 + st, pc, a⟩]
  | none => []
/-- Where HBM caches a line (R250): its entry's pseudo-channel is a free value (notes/assumptions/104.md). -/
def State.cacheAt (s : State) (line : Nat) : Option MemAt := (s.hbmLoc (64 * line)).map (fun x => ⟨16 + x.1, Config.cachePc x.1 x.2.1 % 32, 64 * x.2.1⟩)
/-- Where a home's request for a line is served: by the HBM cache, or by the node. -/
def State.servedAt (s : State) (line : Nat) (wr : Bool) : List MemAt := if s.hbmCached then (s.cacheAt line).toList else s.nodeAt line wr
/-- The unit that serves a line's reads. -/
def State.unitOf (s : State) (line : Nat) : Option Nat := (s.servedAt line false).head?.map (·.unit)

/-- The stop at which a controller takes traffic (01 R15, R243). -/
def MemAt.stop (m : MemAt) : Nat := if m.unit < 16 then ddrStop m.unit else hbmStop (m.unit - 16) (m.pc / 4)

/-! ### Bandwidth of the classes (11 R336, R337) -/

/-- Bytes a class has issued at a scheduler in the window that the current machine time lies in. -/
def State.clsBytes (s : State) (cls sch : Nat) : Nat := if s.time.mt / 1000 = s.memx.qosWin then smGet (fun _ => 0) s.memx.clsWin (1024 * cls + sch) else 0
/-- Peak bytes of a unit in a window, at its trained rate. -/
def State.peakBytes (s : State) (u : Nat) : Nat := if u < 16 then 8 * s.rf (a_DMC_CFG u) f_DMC_CFG_RATE else 128 * s.rf (a_HMC_CFG (u - 16)) f_HMC_CFG_RATE
/-- Schedulers that share a unit's allowance. -/
def schedulers (u : Nat) : Nat := if u < 16 then 1 else 32
/-- Is a class below its minimum at a scheduler? -/
def State.underMin (s : State) (cls : Nat) (m : MemAt) : Bool :=
  decide (cls < 64) && decide (256 * schedulers m.unit * s.clsBytes cls m.sch < s.rf (a_QOS_MEMBW cls m.unit) f_QOS_MEMBW_MIN * s.peakBytes m.unit)
/-- Has a class reached its cap at a scheduler? -/
def State.atMax (s : State) (cls : Nat) (m : MemAt) : Bool :=
  decide (cls < 64) && s.rf (a_QOS_MEMBW cls m.unit) f_QOS_MEMBW_MAX != 0 &&
    decide (s.rf (a_QOS_MEMBW cls m.unit) f_QOS_MEMBW_MAX * s.peakBytes m.unit ≤ 256 * schedulers m.unit * s.clsBytes cls m.sch)

/-- 64 bytes more of a class at a scheduler, in the current window and in QOS_USAGE; unclassed traffic counts nowhere (11 R334). -/
def State.useClass (s : State) (cls sch : Nat) : State :=
  if 64 ≤ cls then s
  else
    let w := s.time.mt / 1000
    let old := if w = s.memx.qosWin then s.memx.clsWin else []
    let n := smGet (fun _ => 0) old (1024 * cls + sch)
    (s.updMem (fun x => { x with clsWin := smSet (fun _ => 0) old (1024 * cls + sch) (n + 64), qosWin := w })).wf (a_QOS_USAGE cls) f_QOS_USAGE_BYTES
      (s.rf (a_QOS_USAGE cls) f_QOS_USAGE_BYTES + 64)

/-! ### Refresh debt (R255) -/

/-- Owed refreshes of a rank or pseudo-channel. -/
def State.debtOf (s : State) (u r : Nat) : Nat := smGet (fun _ => 0) s.memx.debt (64 * u + r)
/-- Set a debt, and DEBT to the largest of the unit. -/
def State.setDebt (s : State) (u r n : Nat) : State :=
  let s1 := s.updMem (fun x => { x with debt := smSet (fun _ => 0) x.debt (64 * u + r) n })
  s1.wf (memReg u 0x10) f_DMC_REF_CTL_DEBT (((List.range 32).map (s1.debtOf u)).foldl max 0)
/-- Debt at which the owed refreshes of a unit go first. -/
def State.urgent (s : State) (u : Nat) : Nat := s.rf (memReg u 0x10) f_DMC_REF_CTL_URGENT
/-- Owed refreshes of a rank or pseudo-channel that have become urgent are issued ahead of its next access. -/
def State.payUrgent (s : State) (u r : Nat) : State := if s.urgent u ≤ s.debtOf u r then s.setDebt u r 0 else s

/-! ### Rows (R251, R257) -/

/-- Rank, bank and row of a local address: free values within the ranks there are (notes/assumptions/104.md). -/
def State.rowOf (s : State) (m : MemAt) : Nat × Nat × Nat :=
  let x := Config.dramPlace m.sch m.addr
  (if m.unit < 16 then x.1 % max 1 (s.rf (a_DMC_CFG m.unit) f_DMC_CFG_RANKS) else 0, x.2.1 % 1024, x.2.2 % 2 ^ 18)
/-- Key of a bank. -/
def bankKey (sch rank bank : Nat) : Nat := 2 ^ 20 * sch + 2 ^ 10 * rank + bank
/-- Is the row of an access open? -/
def State.rowHit (s : State) (m : MemAt) : Bool :=
  let (r, b, w) := s.rowOf m
  smGet (fun _ => none) s.memx.rows (bankKey m.sch r b) == some w
/-- An activate draws from the scheduler's generator; a sampled one is followed by a directed refresh of the row's neighbours, which MEM_DRFM counts (R257). The draws are free values that start over with each reseeding. -/
def State.drawDrfm (s : State) (m : MemAt) : State :=
  let n := smGet (fun _ => 0) s.memx.gens m.sch
  let hit := (Config.freeWord s.memx.genSeed (2 ^ 64 * (m.sch + 1) + n)).toNat % 2 ^ s.rf (memReg m.unit 0x18) f_DMC_DRFM_CTL_P_LOG2 == 0
  let s1 := s.updMem (fun x => { x with gens := smSet (fun _ => 0) x.gens m.sch (n + 1) })
  if hit then s1.countUnc (memBlk m.unit) 8 none 0x044 { unclassed := true } .none none 1 else s1
/-- An activate for a request: counted (MEM_ACT, 19 R584), and drawn for (R257). -/
def State.activate (s : State) (m : MemAt) (q : Rqr) (c : AccCls) (pa : Option Nat) : State :=
  (s.countUnc (memBlk m.unit) 8 none 0x042 q c pa 1).drawDrfm m
/-- An access to DRAM: urgent refreshes of its rank first, an activate unless its row is open; the row stays open while queued requests hit it. -/
def State.touchRow (s : State) (m : MemAt) (q : Rqr := { unclassed := true }) (c : AccCls := .none) (pa : Option Nat := none) : State :=
  let (r, b, w) := s.rowOf m
  let s1 := s.payUrgent m.unit (if m.unit < 16 then r else m.pc)
  let s2 := if s1.rowHit m then s1 else s1.activate m q c pa
  let stay := s2.memx.reqs.any (fun x => x.loc.sch == m.sch && s2.rowOf x.loc == (r, b, w))
  s2.updMem (fun x => { x with rows := smSet (fun _ => none) x.rows (bankKey m.sch r b) (if stay then some w else none) })

/-! ### One request issued to DRAM -/

/-- A unit serves a request now: its idle time starts over (R258). -/
def State.touchUnit (s : State) (u : Nat) : State := (s.updMem (fun x => { x with busy := smSet (fun _ => 0) x.busy u s.time.mt })).setVote (memDom u) 4 true

/-- A unit leaves self-refresh. -/
def State.wakeSr (s : State) (u : Nat) : State := s.setReg (memReg u 0x20) (setBit (s.reg (memReg u 0x20)) 32 false)
/-- An access that the chip makes for itself (a record, a table of the Interrupt Router) and that finds its unit in self-refresh: the unit leaves it before the request issues, and performs the retraining that fell due, which succeeds (R258, R259; the time this takes and a failure of it are left out, DESIGN CHOICE, notes/assumptions/104.md). -/
def State.leaveSr (s : State) (u : Nat) : State :=
  if s.inSr u then (s.updMem (fun x => { x with retrainDue := x.retrainDue.filter (fun y => y != u) })).wakeSr u else s

/-- One request of 64 bytes issued to DRAM: counters (19 R584), bandwidth window (R588), class counts (11 R336), and the bank's row. -/
def State.dramIssue (s : State) (m : MemAt) (a : Nat) (wr : Bool) (cls : Nat) (q : Rqr) : State :=
  let s1 := (s.leaveSr m.unit).countUnc (memBlk m.unit) 8 none (if wr then 0x041 else 0x040) q (if wr then .write else .read) (some a) 64
  (((s1.accBw m.unit wr.toNat 64).useClass cls m.sch).touchRow m q (if wr then .write else .read) (some a)).touchUnit m.unit

/-- Messages of a memory request between its sender's stop and a controller: a read and its line, or a line and its acceptance (R201; notes/assumptions/103.md). -/
def State.countHop (s : State) (src : Nat) (m : MemAt) (wr : Bool) : State :=
  if wr then (s.countRoute src m.stop 2).countRoute m.stop src 1 else (s.countRoute src m.stop 1).countRoute m.stop src 2

/-- A request that the node's own controllers serve, sent from a stop: a mirrored write goes to each working member. -/
def State.countMem (s : State) (src a : Nat) (wr : Bool) (cls : Nat) (q : Rqr) : State :=
  (s.nodeAt (a / 64) wr).foldl (fun s m => (s.countHop src m wr).dramIssue m a wr cls q) s

/-! ### Scheduling (R251–R253) -/

/-- The queued write to a line at a scheduler, if any. -/
def State.queuedWrite (s : State) (sch line : Nat) : Bool := s.memx.reqs.any (fun r => r.loc.sch == sch && r.wr && r.line == line)
/-- The epoch a read is sent under (R263). -/
def State.epochOf (s : State) (u : Nat) : Nat := match s.partner u with | some p => smGet (fun _ => 0) s.memx.epoch (min u p) | none => 0

/-- Is a request older than AGE_CAP, in units of 10 ns? -/
def State.aged (s : State) (r : MemReq) : Bool := decide (r.since + 10 * s.rf (memReg r.loc.unit 0x08) f_DMC_SCHED_AGE_CAP < s.time.mt)
/-- Is a queued write one that a read waits for, and so ahead of the other writes (R252)? -/
def State.promoted (s : State) (r : MemReq) : Bool := r.wr && s.memx.reqs.any (fun x => x.loc.sch == r.loc.sch && !x.wr && x.line == r.line)
/-- May a request be picked now: its controller serves, no read passes a queued write to its line, no class at its cap goes before its time (11 R336)? -/
def State.pickable (s : State) (r : MemReq) : Bool :=
  s.domServing (memDom r.loc.unit) && !s.inSr r.loc.unit && !((s.partner r.loc.unit).isSome && decide (r.loc.unit < 16) && s.chFailed r.loc.unit) &&
    (r.wr || !s.queuedWrite r.loc.sch r.line) && (s.aged r || !s.atMax r.cls r.loc)
/-- Order of the scheduler's rules, lower first: age; class minimum; reads before writes, and writes before reads while draining, a promoted one first; open rows. That writes go first while draining is DEDUCED (notes/assumptions/104.md). -/
def State.score (s : State) (r : MemReq) : Nat :=
  if s.aged r then 0
  else
    let turn := if s.memx.drain.contains r.loc.sch then (if !r.wr then 2 else if s.promoted r then 0 else 1) else (if r.wr then 1 else 0)
    1 + 6 * (!s.underMin r.cls r.loc).toNat + 2 * turn + (!s.rowHit r.loc).toNat
/-- The MT since which an access made in a step waits for a scheduler: now, when it has not waited. -/
def State.waitsSince (s : State) (m : MemAt) (line : Nat) (wr : Bool) : Nat :=
  match s.memx.wants.find? (fun x => x.loc == m && x.line == line && x.wr == wr) with
  | some x => x.since
  | none => s.time.mt
/-- An access made in a step, as its scheduler ranks it. -/
def State.asReq (s : State) (m : MemAt) (line : Nat) (wr part : Bool) (cls : Nat) : MemReq := ⟨m, line, wr, part, cls, s.waitsSince m line wr, s.epochOf m.unit, false⟩

/-- Can a scheduler take an access made in a step now? Its controller is on and awake, no failover of the pair is in progress (R263), no earlier write to the line is held at the home (R253) or, for a read, queued (R252), the class is below its cap unless the access is aged, and no queued request goes first (R251). -/
def State.memReady (s : State) (m : MemAt) (line : Nat) (wr part : Bool) (cls : Nat) : Bool :=
  let r := s.asReq m line wr part cls
  s.domServing (memDom m.unit) && !s.inSr m.unit && (wr || s.memx.failovers.all (fun f => some f.ch != s.partner m.unit && f.ch != m.unit)) &&
    !s.memx.held.any (fun x => x.wr && x.line == line) && (wr || !s.queuedWrite m.sch line) && (s.aged r || !s.atMax cls m) &&
    s.memx.reqs.all (fun x => x.loc.sch != m.sch || !s.pickable x || decide (s.score r < s.score x) || (s.score r == s.score x && decide (r.since < x.since)))
/-- An access made in a step waits for a scheduler: it asks for the controller's domain and for it to leave self-refresh (R258); a read that matches a queued write counts MEM_RAW_WAIT once (R252). -/
def State.askMem (s : State) (m : MemAt) (line : Nat) (wr : Bool) : State :=
  let s1 :=
    if s.memx.wants.any (fun x => x.loc == m && x.line == line && x.wr == wr) then s
    else
      let s0 := s.updMem (fun x => { x with wants := x.wants ++ [⟨m, line, wr, s.time.mt⟩] })
      if !wr && s.queuedWrite m.sch line then s0.countUnc (memBlk m.unit) 8 none 0x043 {} .read (some (64 * line)) 1 else s0
  s1.setVote (memDom m.unit) 4 true
/-- An access of a line has been made: it waits no longer. -/
def State.noLate (s : State) (line : Nat) (wr : Bool) : State :=
  if s.memx.wants.any (fun x => x.line == line && x.wr == wr) then s.updMem (fun x => { x with wants := x.wants.filter (fun y => !(y.line == line && y.wr == wr)) }) else s

/-! ### Requests of agents that have to wait -/

/-- A trial of an agent's request notes what it asks for. -/
def State.noteTry (s : State) (x : MemTry) : State :=
  match s.memx.trial with
  | none => s
  | some l => s.updMem (fun m => { m with trial := some (l ++ [x]) })
/-- Has what a request asks for to wait: for the transaction or the older requests of a line it reads (08 R216, R217, R237), for a controller (R251, R258, R263; 11 R336), for a CXL.mem device (14 R428), or for a tag (14 R431)? -/
def State.mustHold (s : State) : MemTry → Bool
  | .read line => s.coh.blocked line || s.coh.queued line
  | .access m line wr part cls => !s.memReady m line wr part cls
  | .cxl line => s.cxlWaits line
  | .tag p l => (s.freeTag p l).isNone || !s.tagTurn p l 4 0
/-- What keeps an agent's request from being performed now. -/
def State.holds (s : State) (f : State → State) : List MemTry :=
  ((f (s.updMem (fun x => { x with trial := some [] }))).memx.trial.getD []).filter s.mustHold
/-- Perform an agent's request, unless the memory system holds it: it then asks for the controllers, devices and tags it waits for and is given again (DESIGN CHOICE, notes/assumptions/119.md). -/
def State.unlessHeld (s : State) (f : State → State) : State :=
  match s.holds f with
  | [] => f s
  | l => l.foldl (fun s x => match x with | .access m line wr _ _ => s.askMem m line wr | .read _ => s | .cxl line => s.cxlAsk line | .tag p l => s.queueTag p l 4 0) s

end Sys2Proof.Machine
end

