-- ==== Sys2Proof/Machine/Memory.lean ====
section
/-! DEFINITION. Memory controllers: errors, device substitution, channel and pseudo-channel failure, the HBM memory-side cache, and the counting of memory accesses (spec/09_memory.md R250, R260–R268; spec/14_expansion_ports.md R428). -/
namespace Sys2Proof.Machine

/-- Colophon entry of a unit: 0–15 a DDR5 channel, 16–19 an HBM stack. -/
def memEntry (u : Nat) : Nat := if u < 16 then 710 + u else 742 + (u - 16)
/-- 24 h of machine time. -/
def day : Nat := 86400000000000

/-! ### Failures of channels and pseudo-channels (R263, R265, R268) -/

/-- The other channel of a mirrored pair (R244). -/
def pairMate (c : Nat) : Nat := if c / 4 % 2 = 0 then c + 4 else c - 4

/-- A channel fails (1 link retries exhausted, 2 retraining failed, 3 PHY wake failed, 4 third failed device): a pair whose other member is good fails over, the failure of its last member, or of a member that entered the node alone (R247), is fatal, and an unmirrored channel's memory is lost. -/
def State.chFail (s : State) (c cause : Nat) : State :=
  if !s.chTrained c || s.chFailed c then s
  else
    let s1 := s.wf (a_DMC_RAS_STAT c) f_DMC_RAS_STAT_CH_FAILED 1 |>.logArea
    match s.partner c with
    | some p =>
      if s.chFailed p then s1.fatal 0x050A (710 + c) (min c p + max c p * 2 ^ 8 + cause * 2 ^ 16) 0
      else s1.updMem (fun x => { x with failovers := x.failovers ++ [⟨c, cause, s.time.mt⟩] })
    | none =>
      if s.rf a_MSH_MEM_CFG f_MSH_MEM_CFG_MIRROR = 1 then s1.fatal 0x050A (710 + c) (min c (pairMate c) + max c (pairMate c) * 2 ^ 8 + cause * 2 ^ 16) 0
      else s1.hostEv 0x050B 3 (710 + c) 0 (c + cause * 2 ^ 16) 0

/-- LINE of an HMC_ERR_LOG entry for which the spec names no line. -/
def State.freeLine (s : State) : Nat := (Config.freeWord s.freeCtr 0x50C).toNat % 2 ^ 25 * 2 ^ 6
/-- PATROL of an entry for which the spec does not say what found it. -/
def State.freePatrol (s : State) : Nat := (Config.freeWord s.freeCtr 0x50D).toNat % 2

/-- A pseudo-channel fails (1 training, 2 retraining, 3 PHY wake failed): contained in flat mode, fatal in cached mode. No patrol finds it, so PATROL is 0; for this KIND the spec names no LINE: a free value (DESIGN CHOICE, notes/assumptions/105.md). -/
def State.pcFail (s : State) (st pc cause : Nat) : State :=
  if s.memx.pcFailed.contains (32 * st + pc) || 4 ≤ st || 32 ≤ pc || !Config.hasHbm s.variant then s
  else
    let s1 := (s.tick.updMem (fun x => { x with pcFailed := x.pcFailed ++ [32 * st + pc] })).setReg (a_HMC_ERR_LOG st)
      (BitVec.ofNat 64 (s.freeLine + pc * 2 ^ 31 + 5 * 2 ^ 36 + 2 ^ 63))
    if s.hbmCached then s1.fatal 0x050F (742 + st) (st + pc * 2 ^ 8 + cause * 2 ^ 16) 0
    else s1.hostEv 0x050F 3 (742 + st) 0 (st + pc * 2 ^ 8 + cause * 2 ^ 16) 0

/-! ### Errors (R260–R262, R267, R268) -/

/-- Channel- or pseudo-channel-local address of a line. -/
def State.localAddr (s : State) (line : Nat) : Nat :=
  match s.targetOf (64 * line) with
  | some (.ddr _ a) => a
  | some (.hbm _ _ a) => a
  | none => 0

/-- Log an error of a DDR5 channel; answers the log's value. -/
def State.dmcLog (s : State) (c kind : Nat) (line : Option Nat) (e : MemErr) (dev : Nat) (patrol : Bool) : State × Nat :=
  let v := (match line with | some l => s.localAddr l / 64 % 2 ^ 32 * 2 ^ 6 | none => 0) + e.rank % 4 * 2 ^ 38 + e.subch % 2 * 2 ^ 40 +
    dev % 32 * 2 ^ 41 + kind * 2 ^ 46 + patrol.toNat * 2 ^ 49 + 2 ^ 63
  (s.setReg (a_DMC_ERR_LOG c) (BitVec.ofNat 64 v), v)

/-- Physical address an event of a line carries. -/
def lineAddr : Option Nat → Nat
  | some l => 64 * l
  | none => 0

/-- Corrected errors attributed to a device within 24 h. -/
def State.devCes (s : State) (c : Nat) (e : MemErr) : List MemCe :=
  s.memx.ces.filter (fun x => x.unit == c && x.rank == e.rank && x.subch == e.subch && x.dev == e.dev && decide (s.time.mt < x.mt + day))

/-- Declare a device failed when its corrected errors reach DEV_THRESH in at least two rows (R262): with SUBST_EN a rank not yet substituted starts substitution, a second device of a substituted rank requests replacement, a rank's third fails the channel. -/
def State.devCheck (s : State) (c : Nat) (line : Option Nat) (e : MemErr) (patrol : Bool) : State :=
  let l := s.devCes c e
  let dev := (c, e.rank, e.subch, e.dev)
  if s.memx.devs.contains dev || l.length < s.rf (a_DMC_RAS_CTL c) f_DMC_RAS_CTL_DEV_THRESH || l.all (fun x => x.row == e.row) then s
  else
    let n := (s.memx.devs.filter (fun x => x.1 == c && x.2.1 == e.rank)).length
    let s1 := (s.updMem (fun x => { x with devs := x.devs ++ [dev] })).logArea.dmcLog c 4 line e e.dev patrol |>.1
    let w2 := c + e.rank % 4 * 2 ^ 8 + e.subch % 2 * 2 ^ 12 + e.dev % 32 * 2 ^ 16
    if 2 ≤ n then s1.chFail c 4
    else if (s.rf (a_DMC_RAS_STAT c) f_DMC_RAS_STAT_SUBST).testBit (e.rank % 4) then
      (s1.wf (a_DMC_RAS_STAT c) f_DMC_RAS_STAT_SECOND (s.rf (a_DMC_RAS_STAT c) f_DMC_RAS_STAT_SECOND ||| 2 ^ (e.rank % 4))).replaceReq 3 0x0508 (710 + c) w2 l.length
    else if s.rf (a_DMC_RAS_CTL c) f_DMC_RAS_CTL_SUBST_EN = 1 then
      let s2 := (s1.wf (a_DMC_RAS_STAT c) f_DMC_RAS_STAT_SUBST (s.rf (a_DMC_RAS_STAT c) f_DMC_RAS_STAT_SUBST ||| 2 ^ (e.rank % 4))).wf (a_DMC_RAS_STAT c) f_DMC_RAS_STAT_SUBST_BUSY 1
      (s2.updMem (fun x => { x with walks := x.walks ++ [(c, e.rank)] })).hostEv 0x0507 2 (710 + c) 0 w2 l.length
    else s1

/-- Mark a line poisoned in memory: its location is rewritten with the poison code, so that check bits that do not match, those of memory that nothing has written, are replaced (R260, R261; 20 R596). -/
def State.poisonMem (s : State) (line : Option Nat) : State :=
  match line with
  | some l =>
    { s with coh := { s.coh with
      poison := smSet (fun _ => false) s.coh.poison l true
      lineKey := if s.coh.badInit l then smSet (fun _ => s.coh.unwritten) s.coh.lineKey l (s.env.keyOf l) else s.coh.lineKey } }
  | none => s

/-- A line's DDR copy takes the poison code (R260): under a good HBM entry of the line it does not show (R261, R266). -/
def State.poisonDdr (s : State) (line : Option Nat) : State :=
  if line.any (fun l => (s.hbmHit l).isSome) then s.updMem (fun x => { x with ddrBad := (line.toList.filter (fun l => !x.ddrBad.contains l)) ++ x.ddrBad }) else s.poisonMem line

/-- An error of a DDR5 channel (R260): kind 1 confined to one device, 2 uncorrectable on the copy read, 3 uncorrectable on both copies, 4 link retry, 5 link retries exhausted. -/
def State.ddrErr (s : State) (c : Nat) (line : Option Nat) (e : MemErr) (patrol : Bool) : State :=
  let good := match s.partner c with | some p => !s.chFailed p && !s.chFailed c | none => false
  if e.kind = 1 then
    let (s1, v) := s.dmcLog c 1 line e e.dev patrol
    let s2 := (s1.hostEv 0x0503 1 (710 + c) 0 v (lineAddr line)).updMem (fun x => { x with ces := x.ces ++ [⟨c, e.rank, e.subch, e.dev, e.row, s.time.mt⟩] })
    s2.devCheck c line e patrol
  else if e.kind = 2 && good then
    let (s1, v) := s.dmcLog c 3 line e 31 patrol
    s1.hostEv 0x0505 2 (710 + c) 0 v (lineAddr line)
  else if e.kind = 2 || e.kind = 3 then
    let (s1, v) := s.dmcLog c 2 line e 31 patrol
    (s1.poisonDdr line).hostEv 0x0504 3 (710 + c) 0 v (lineAddr line)
  else if e.kind = 4 || e.kind = 5 then
    let (s1, v) := s.dmcLog c 5 line e 31 patrol
    let s2 := s1.hostEv 0x0506 1 (710 + c) 0 v (lineAddr line)
    if e.kind = 5 then s2.chFail c 1 else s2
  else s

/-- Log an error of an HBM stack; answers the log's value. The pseudo-channel-local address of a cache entry is a free value (notes/assumptions/45.md). -/
def State.hmcLog (s : State) (st kind : Nat) (line : Option Nat) (e : MemErr) (patrol : Bool) : State × Nat :=
  let v := (match line with | some l => (if s.hbmCached then s.freeLine else s.localAddr l / 64 % 2 ^ 25 * 2 ^ 6) | none => s.freeLine) + e.pc % 32 * 2 ^ 31 + kind * 2 ^ 36 +
    patrol.toNat * 2 ^ 39 + 2 ^ 63
  (s.setReg (a_HMC_ERR_LOG st) (BitVec.ofNat 64 v), v)

/-- A row that needs repair (R267): after an uncorrectable error, or its third corrected error within 24 h. -/
def State.rowDue (s : State) (st : Nat) (e : MemErr) : State :=
  let r : HbmRow := ⟨st, e.pc, e.bank, e.row⟩
  if s.rf (a_HMC_RAS_CTL st) f_HMC_RAS_CTL_REPAIR_EN = 1 && !s.memx.repairDue.contains r then s.updMem (fun x => { x with repairDue := x.repairDue ++ [r] }) else s

/-! ### HBM as a cache (R250) -/

/-- The DDR copy of a line shows again once its clean entry is gone; the write-back of a dirty one has replaced it (R250, R261). -/
def State.uncover (s : State) (x : HbmEnt) : State :=
  if s.memx.ddrBad.contains x.line then
    let s1 := s.updMem (fun y => { y with ddrBad := y.ddrBad.filter (· != x.line) })
    if x.dirty then s1 else s1.poisonMem (some x.line)
  else s

/-- Set or invalidate a cache entry. -/
def State.setHbm (s : State) (k : Nat) (e : Option HbmEnt) : State :=
  let s1 := match s.hbmEnt k with | some x => if e.any (fun (y : HbmEnt) => y.line == x.line) then s else s.uncover x | none => s
  s1.updMem (fun x => { x with hbm := smSet (fun _ => none) x.hbm k e })

/-- An error of an HBM stack (R267, R268): kind 1 correctable, 2 or 3 uncorrectable, 6 one metadata copy, 7 both metadata copies. `slot` is the cache entry where no line is known (R282). For kind 7 in flat mode, where the lost metadata are poison bits, the spec states no more than the log (DESIGN CHOICE, notes/assumptions/105.md). -/
def State.hbmErr (s : State) (st : Nat) (line slot : Option Nat) (e : MemErr) (patrol : Bool) : State :=
  let entry := match line.bind (fun l => s.hbmLoc (64 * l)) with | some x => some x.2.1 | none => slot
  let e := match slot with | some k => { e with pc := Config.cachePc st k % 32 } | none => e
  let key := entry.map (hbmKey st)
  let ent := if s.hbmCached then key.bind s.hbmEnt else none
  if e.kind = 1 then
    let (s1, v) := s.hmcLog st 1 line e patrol
    let s2 := (s1.hostEv 0x0503 1 (742 + st) 0 v (lineAddr line)).updMem (fun x => { x with ces := x.ces ++ [⟨16 + st, e.pc, 0, e.bank, e.row, s.time.mt⟩] })
    if 3 ≤ (s2.memx.ces.filter (fun x => x.unit == 16 + st && x.rank == e.pc && x.dev == e.bank && x.row == e.row && decide (s.time.mt < x.mt + day))).length then s2.rowDue st e else s2
  else if e.kind = 2 || e.kind = 3 then
    let (s1, v) := s.hmcLog st 2 line e patrol
    match s.hbmCached, ent, key with
    | true, some x, some k =>
      if x.dirty then ((s1.poisonMem (some x.line)).hostEv 0x0504 3 (742 + st) 0 v (64 * x.line)).rowDue st e
      else ((s1.setHbm k none).hostEv 0x0504 2 (742 + st) 0 v (64 * x.line)).rowDue st e
    | true, _, _ => (s1.hostEv 0x0504 2 (742 + st) 0 v (lineAddr line)).rowDue st e
    | false, _, _ => ((s1.poisonMem line).hostEv 0x0504 3 (742 + st) 0 v (lineAddr line)).rowDue st e
  else if e.kind = 6 then
    let (s1, v) := s.hmcLog st 3 line e patrol
    s1.hostEv 0x0503 1 (742 + st) 0 v (lineAddr line)
  else if e.kind = 7 then
    let (s1, _) := s.hmcLog st 3 line e patrol
    if s.hbmCached then s1.fatal 0x050E (742 + st) (st + e.pc * 2 ^ 8) (entry.getD 0) else s1
  else s

/-- Where a unit holds a line, for the log: its place in the node, or its cache entry. -/
def State.heldAt (s : State) (u line : Nat) : Option MemAt :=
  if 16 ≤ u && s.hbmCached then s.cacheAt line else ((s.nodeAt line true) ++ (s.nodeAt line false)).find? (fun m => m.unit == u)

/-- An error of a known line lies at the line's own rank, bank, row and pseudo-channel. -/
def State.placed (s : State) (u : Nat) (line : Option Nat) (e : MemErr) : MemErr :=
  match line.bind (s.heldAt u) with
  | some m => let (r, b, w) := s.rowOf m; { e with rank := if u < 16 then r else e.rank, bank := b % 32, row := w, pc := if u < 16 then e.pc else m.pc }
  | none => e

/-- An error found by a unit. A read or write of a failed channel or pseudo-channel finds nothing more: it answers poison, or is discarded (R265, R268). -/
def State.memErr (s : State) (u : Nat) (line : Option Nat) (e : MemErr) (patrol : Bool) : State :=
  if u < 16 then (if s.chFailed u then s else s.ddrErr u line (s.placed u line e) patrol) else if s.memx.pcFailed.contains (32 * (u - 16) + (s.placed u line e).pc) then s
  else s.hbmErr (u - 16) line none (s.placed u line e) patrol

/-- An error injected into a line, found by the next access that reads it at a unit (17 R532), or bad check bits of uncleared memory (20 R596). What ERR_INJECT does not say of the error is a free choice. -/
def State.injFound (s : State) (u line : Nat) (patrol : Bool) : State :=
  match s.memx.inject.find? (fun x => x.1 == line) with
  | some (_, k) =>
    let f (n m : Nat) : Nat := Config.pick s.freeCtr (9000 + n) % m
    (s.updMem (fun x => { x with inject := x.inject.filter (fun y => y.1 != line) })).memErr u (some line) ⟨k, f 0 4, f 1 2, f 2 20, f 3 (2 ^ 18), f 4 32, f 5 32⟩ patrol
  | none => if s.coh.badInit line then s.memErr u (some line) ⟨3, 0, 0, 31, 0, 0, 0⟩ patrol else s

/-! ### Counting what the memory system has noted -/

/-- CXL_MEM_ERROR (14 R428, R444): 1 device error, 2 timeout, 3 link down. -/
def State.cxlError (s : State) (a kind : Nat) : State :=
  s.hostEv 0x0708 3 (750 + (s.hdmOf a).elim 0 (·.1)) 0 (kind * 2 ^ 8) a

/-- An access in cached mode (09 R250): a lookup; a write installs the line dirty, a read that misses fills it clean, and a dirty victim is written to its DDR channel first. A partial write reads the line as a read does. `find` handles what a read finds at a unit (R260, R268): at the stack on a hit, at the line's DDR channel on a miss. A bad clean entry is invalidated, and the line is read again from DDR through the port of the entry's pseudo-channel (R243, R268). -/
def State.hbmAccess (s : State) (src a : Nat) (wr part : Bool) (cls : Nat) (q : Rqr) (find : Nat → State → State) : State :=
  match s.hbmLoc a, s.cacheAt (a / 64) with
  | some (st, e, _), some m =>
    let k := hbmKey st e
    let old := s.hbmEnt k
    let hit := (s.hbmHit (a / 64)).isSome
    let s0 := s.countHop src m wr
    let s1 := s0.countUnc (memBlk m.unit) 8 none (if hit then 0x046 else 0x047) q (if wr then .write else .read) (some a) 1
    let s2 := match hit, old with
      | false, some x => if x.dirty then s1.countMem m.stop (64 * x.line) true cls q else s1
      | _, _ => s1
    let s4 :=
      if wr && !part then s2
      else
        let s3 := s2.dramIssue m a false cls q
        if hit then
          let s3' := find m.unit s3
          if (s3'.hbmHit (a / 64)).isNone then s3'.countMem m.stop a false cls q else s3'
        else
          let s3' := s3.countMem m.stop a false cls q
          match (s.nodeAt (a / 64) false).head? with | some d => find d.unit s3' | none => s3'
    if wr then (s4.dramIssue m a true cls q).setHbm k (some ⟨a / 64, true⟩)
    else if hit then s4
    else (s4.dramIssue m a true cls q).setHbm k (some ⟨a / 64, false⟩)
  | _, _ => s.countMem src a wr cls q

/-- Schedulers that an access of a line needs: in cached mode, on a miss, also the node's, and that of a dirty victim. -/
def State.accessAts (s : State) (line : Nat) (wr part : Bool) : List (MemAt × Nat × Bool) :=
  if (s.hdmOf (64 * line)).isSome || (wr && s.memLost line) then []
  else
    (s.servedAt line wr).map (fun m => (m, line, wr)) ++
      (if s.hbmCached && (s.hbmHit line).isNone then
        (if wr && !part then [] else (s.nodeAt line false).map (fun m => (m, line, false))) ++
          (match ((s.hbmLoc (64 * line)).map (fun x => hbmKey x.1 x.2.1)).bind s.hbmEnt with
           | some x => if x.dirty then (s.nodeAt x.line true).map (fun m => (m, x.line, true)) else []
           | none => [])
       else [])

/-- A memory request of a class sent by a home: one to CXL.mem leaves for the I/O tile, a read taking what its device has answered, a write going out with its poison mark (14 R426), and fails when its link is down (14 R428); a write that failed memory discards is not counted. A read, or a partial write (R260), handles the error it finds. -/
def State.countAccess (s0 : State) (a : Nat) (wr part : Bool) (cls : Nat) (q : Rqr) : State :=
  let s := (s0.accessAts (a / 64) wr part).foldl (fun s x => (s.noteTry (.access x.1 x.2.1 x.2.2 part cls)).noLate x.2.1 x.2.2) s0
  let home := (s.homeLoc (a / 64)).elim 0 (·.slice)
  let find := fun (u : Nat) (s : State) => s.injFound u (a / 64) false
  if (s.hdmOf a).isSome then
    let s1 := if wr then (s.countRoute home 224 2).countRoute 224 home 1 else (s.countRoute home 224 1).countRoute 224 home 2
    let s2 := if wr then s1 else s1.noteTry (.cxl (a / 64))
    if !wr && s.cxlReady (a / 64) then s2.cxlTake (a / 64)
    else if s.cxlDown a then s2.cxlError a 3
    else if wr then
      let x := s2.coh.memLine s2.env (a / 64)
      s2.transmit ⟨(s.hdmOf a).elim 0 (·.1), if x.2 then 9 else 0, a, 64, x.1.toNat⟩
    else s2
  else if wr && s.memLost (a / 64) then s
  else if s.hbmCached then s.hbmAccess home a wr part cls q find
  else
    let s1 := s.countMem home a wr cls q
    match (if wr && !part then none else (s.nodeAt (a / 64) false).head?) with
    | some m => find m.unit s1
    | none => s1

/-- Is the current value of a line read from memory: no owner, no valid LLC sector? -/
def State.fromMem (s : State) (line : Nat) : Bool :=
  (s.coh.sectorOf line).isNone && (match s.coh.de line with | some e => e.owner.isNone | none => true)

/-- Count an uncached read of a line (RdCur) by a requester number (08 R216): its messages, those of a SnpCur to an owner, and the memory read. -/
def State.countCur (s : State) (req line cls : Nat) (q : Rqr) : State :=
  let home := (s.homeLoc line).elim 0 (·.slice)
  let s0 := match (s.coh.de line).bind (·.owner) with | some b => ((s.countRoute home b 1).countRoute b home 2).countRoute b home 1 | none => s
  let s1 := (s0.countRoute req home 1).countRoute home req 2
  if s.fromMem line then s1.countAccess (64 * line) false false cls q else s1

/-- Maintenance of a line overtakes its fills from memory into the home's LLC: they are not installed (07 R189). -/
def State.staleFills (s : State) (line : Nat) : State :=
  s.updMem (fun x => { x with
    fetched := x.fetched.filter (· != line)
    reqs := x.reqs.map (fun r => if r.line = line && !r.wr then { r with stale := true } else r)
    held := x.held.filter (fun r => r.line != line || r.wr) })

/-- One event the memory system has noted: maintenance for the fills it overtakes, messages along their routes, memory reads and writes by class, HOLD_DEFER at its core, all others by slice; directory evictions are unclassed (11 R334). -/
def State.drainOne (q : Rqr) (a : AccCls) (s : State) (e : CntEv) : State :=
  if 0xF000 ≤ e.code then s.countRoute e.unit e.req (e.code - 0xF000)
  else if e.code = evCmo then s.staleFills (e.addr / 64)
  else if e.code = 0x040 || e.code = 0x041 then s.countAccess e.addr (e.code == 0x041) (e.code == 0x041 && e.req == 1) e.unit q
  else if e.code = 0x01C then s.countStop e.unit none 0x01C .none (some e.addr) 1
  else s.countSlice e.unit e.code (if e.code == 0x026 then { unclassed := true } else q) a (some e.addr) 1

/-- Count the events the memory system has noted, on behalf of a requester. -/
def State.drainEvs (s : State) (q : Rqr) (a : AccCls) : State :=
  s.coh.evs.foldl (State.drainOne q a) { s with coh := { s.coh with evs := [] } }

/-! ### Accesses that have to wait -/

/-- Schedulers that a memory event needs. -/
def State.evAts (s : State) (e : CntEv) : List (MemAt × Nat × Bool) :=
  if e.code = 0x040 || e.code = 0x041 then s.accessAts (e.addr / 64) (e.code == 0x041) (e.code == 0x041 && e.req == 1) else []

/-- The slice at whose home an event happens: all but messages and deferrals at a core. -/
def State.evSlice (s : State) (e : CntEv) : Option Nat :=
  if evCmo ≤ e.code || e.code = 0x01C then none
  else if e.code = 0x040 || e.code = 0x041 then (s.homeLoc (e.addr / 64)).map (·.slice)
  else some e.unit

/-- Can what an event notes happen now: its message cross (16 R494, R213), its home's slice (R494, R504) and its memory request be served? -/
def State.evUp (s : State) (e : CntEv) : Bool :=
  if 0xF000 ≤ e.code then s.routeUp e.unit e.req
  else
    let home := (s.homeLoc (e.addr / 64)).elim 0 (·.slice)
    (s.evSlice e).all (fun k => s.domServing (448 + k)) && !(e.code == 0x040 && s.cxlWaits (e.addr / 64)) && (s.evAts e).all (fun m => s.memReady m.1 m.2.1 m.2.2 (e.code == 0x041 && e.req == 1) e.unit && s.routeUp home m.1.stop && s.routeUp m.1.stop home)

/-- An event that cannot happen asks for what it needs. -/
def State.askEv (s : State) (e : CntEv) : State :=
  if s.evUp e then s
  else if 0xF000 ≤ e.code then s.askRoute e.unit e.req
  else
    let home := (s.homeLoc (e.addr / 64)).elim 0 (·.slice)
    let s0 := if e.code = 0x040 then s.cxlAsk (e.addr / 64) else s
    let s1 := match s.evSlice e with | some k => s0.setVote (448 + k) 4 true | none => s0
    (s.evAts e).foldl (fun s m => ((s.askMem m.1 m.2.1 m.2.2).askRoute home m.1.stop).askRoute m.1.stop home) s1

/-- The events that a change of the memory system has noted. -/
def State.newEvs (s : State) (c : Coh) : List CntEv := c.evs.drop s.coh.evs.length

/-- Perform an access of the memory system, if all its messages can cross and all its memory requests be served now. -/
def State.tryCoh (s : State) (c : Coh) (q : Rqr) (a : AccCls) : Option State :=
  if (s.newEvs c).all s.evUp then some (({ s with coh := c }).drainEvs q a) else none
/-- An access that has to wait asks for the aqueducts and controllers it needs. -/
def State.askCoh (s : State) (c : Coh) : State := (s.newEvs c).foldl State.askEv s

/-- The memory system with what an uncached read of a line by a requester would note. -/
def State.curEvs (s : State) (req line cls : Nat) : Coh :=
  let home := (s.homeLoc line).elim 0 (·.slice)
  let c := s.coh.hops ([(req, home, 1), (home, req, 2)] ++ (match (s.coh.de line).bind (·.owner) with | some b => [(home, b, 1), (b, home, 2), (b, home, 1)] | none => []))
  if s.fromMem line then c.count 0x040 cls 0 (64 * line) else c
/-- Can an uncached read of a line be made now? -/
def State.curUp (s : State) (req line cls : Nat) : Bool := (s.newEvs (s.curEvs req line cls)).all s.evUp
/-- An uncached read that has to wait asks for what it needs. -/
def State.askCur (s : State) (req line cls : Nat) : State := s.askCoh (s.curEvs req line cls)

end Sys2Proof.Machine
end

