-- ==== Sys2Proof/Machine/Translate.lean ====
section
/-! DEFINITION. Address translation of cores: regimes, table walks of both stages, permissions, translation caches (spec/10_translation.md R285–R295) and the memory type of an access (spec/02_programmers_model.md R62, R63). -/
namespace Sys2Proof.Machine

/-- Kinds of access a translation checks (R292). -/
inductive AccKind where
  | fetch | load | store | atomic | clean | inval
  deriving DecidableEq, Repr

/-- Does the access need write permission? -/
def AccKind.writes : AccKind → Bool
  | .store => true | .atomic => true | .inval => true | _ => false
/-- Does it need read permission? -/
def AccKind.reads : AccKind → Bool
  | .load => true | .atomic => true | .clean => true | _ => false

/-- Translation faults: no valid translation, permission, table walk error, unmapped address. -/
inductive XKind where
  | trans | perm | walk | unmapped
  deriving DecidableEq, Repr

/-- A translation fault: kind, INFO, stage 2, intermediate physical address, whether it arose on a walker's table access, and then whether on an A or D update (02 R58 WNR). -/
structure XFault where
  kind : XKind
  info : Nat
  s2 : Bool
  ipa : Nat
  table : Bool
  adUpd : Bool
  deriving DecidableEq, Repr

/-- An A and D update of a table entry (R291). -/
structure AdUpd where
  pa : Nat
  d : Bool
  deriving DecidableEq, Repr

/-- What a walk leaves besides its outcome: refused table reads, non-leaf entries to cache, A and D updates. -/
structure Wk where
  viol : List Nat
  fills : List WalkEntry
  upd : List AdUpd
  deriving DecidableEq, Repr

/-- Nothing done. -/
def Wk.none : Wk := ⟨[], [], []⟩

/-- Is an entry invalid at a level (R288)? -/
def pteBad (e : Word) (lvl : Nat) : Bool :=
  let leaf := bit e 1
  !bit e 0 || (leaf && decide (2 < lvl)) || (!leaf && lvl == 0) || (leaf && fld e 10 2 == 3) ||
    (leaf && bit e 13 && (lvl == 1 || lvl == 2))

/-- Address bits of an entry: bits [51:12] of the next table or page. -/
def pteAddr (e : Word) : Nat := fld e 16 40 * 4096

/-- One table read (R290): `none` is a walk error; a Normal read of a Secure line returns zero and is a violation (02 R39). A read of CXL.mem whose link is down is noted with the violations (14 R428). -/
def State.readPte (s : State) (sec : Bool) (pa : Nat) : Option (Word × Bool) :=
  if !s.isMem pa then none
  else if !sec && s.lineSec (pa / 64) then some (0, true)
  else
    let (d, p) := s.coh.currentNow s.env (pa / 64)
    if p then none else some (d.extractLsb' (8 * (pa % 64)) 64, false)

/-- Does a read of an address fail because its CXL.mem link is down (14 R428)? -/
def State.cxlLost (s : State) (a : Nat) : Bool := s.cxlDown a && s.fromMem (a / 64)
/-- A failed table read in CXL.mem is noted. -/
def State.noteCxl (s : State) (pa : Nat) (w : Wk) : Wk := if s.cxlLost pa then { w with viol := w.viol ++ [pa] } else w

/-- Tags of a walk. -/
structure XTag where
  stop : Nat
  sec : Bool
  regime : Nat
  vmid : Nat
  asid : Nat
  deriving DecidableEq, Repr

/-- A cached non-leaf entry (R293). -/
def State.walkHit (s : State) (g : XTag) (stage lvl pfx root : Nat) : Option Word :=
  ((s.core g.stop).walkc.find? (fun w => w.stage == stage && w.level == lvl && w.pfx == pfx && w.root == root && w.sec == g.sec &&
    w.regime == g.regime && w.vmid == g.vmid && (stage == 2 || w.asid == g.asid))).map (·.ent)

/-- A leaf found by a walk: the entry, where it lies, its level, and the address it gives. -/
structure LeafAt where
  ent : Word
  pa : Nat
  lvl : Nat
  out : Nat
  deriving DecidableEq, Repr

/-- The address a leaf gives for an input address: a large page takes the low bits from the input (R288). -/
def leafOut (e : Word) (lvl addr : Nat) : Nat :=
  let k := 12 + 9 * lvl
  pteAddr e / 2 ^ k * 2 ^ k + addr % 2 ^ k

/-- The stage-2 walk of an intermediate physical address (R287, R288, R290). `table` marks a translation of a stage-1 table address. -/
def State.s2Go (s : State) (g : XTag) (root ipa : Nat) (table : Bool) : Nat → Nat → Nat → Wk → Except (XFault × Wk) (LeafAt × Wk)
  | 0, lvl, _, w => .error (⟨.trans, lvl, true, ipa, table, false⟩, w)
  | fuel + 1, lvl, tbl, w =>
    let sh := 12 + 9 * lvl
    let idx := ipa / 2 ^ sh % (if lvl = 4 then 16 else 512)
    let pa := tbl + 8 * idx
    let rd : Option (Word × Bool × Bool) :=
      match (if lvl = 0 then none else s.walkHit g 2 lvl (ipa / 2 ^ sh) root) with
      | some e => some (e, false, true)
      | none => (s.readPte g.sec pa).map (fun x => (x.1, x.2, false))
    match rd with
    | none => .error (⟨.walk, lvl, true, ipa, table, false⟩, s.noteCxl pa w)
    | some (e, v, cached) =>
      let w1 := if v then { w with viol := w.viol ++ [pa] } else w
      if pteBad e lvl then .error (⟨.trans, lvl, true, ipa, table, false⟩, w1)
      else if bit e 1 then .ok (⟨e, pa, lvl, leafOut e lvl ipa⟩, w1)
      else
        let w2 := if cached then w1 else { w1 with fills := w1.fills ++ [⟨2, lvl, ipa / 2 ^ sh, root, g.sec, g.regime, g.vmid, g.asid, e⟩] }
        s.s2Go g root ipa table fuel (lvl - 1) (pteAddr e) w2

/-- Stage-2 translation of an address: a non-zero bit above bit 51 faults with INFO 5 (R287). -/
def State.s2Walk (s : State) (g : XTag) (root ipa : Nat) (table : Bool) (w : Wk) : Except (XFault × Wk) (LeafAt × Wk) :=
  if 2 ^ 52 ≤ ipa then .error (⟨.trans, 5, true, ipa, table, false⟩, w) else s.s2Go g root ipa table 5 4 root w

/-- The A update of a stage-2 leaf, with D for a write (R291). -/
def adOf (l : LeafAt) (d : Bool) : List AdUpd :=
  if !bit l.ent 8 || (d && !bit l.ent 9) then [⟨l.pa, d⟩] else []

/-- The stage-1 walk (R287, R288, R290): `s2root` translates every table address of a guest. A failed read of a stage-1 table reports S2 = 0, also where the table's IPA translates to a bad address: the spec does not say (DESIGN CHOICE, notes/assumptions/99.md). Answers the leaf, where its table lies at stage 2, and the table's address. -/
def State.s1Go (s : State) (g : XTag) (s2root : Option Nat) (root va : Nat) : Nat → Nat → Nat → Wk →
    Except (XFault × Wk) (LeafAt × Option LeafAt × Nat × Wk)
  | 0, lvl, _, w => .error (⟨.trans, lvl, false, 0, false, false⟩, w)
  | fuel + 1, lvl, tbl, w =>
    let sh := 12 + 9 * lvl
    let idx := va / 2 ^ sh % 512
    match (if lvl = 0 then none else s.walkHit g 1 lvl (va % 2 ^ 57 / 2 ^ sh) root) with
    | some e => if bit e 1 then .error (⟨.trans, lvl, false, 0, false, false⟩, w) else s.s1Go g s2root root va fuel (lvl - 1) (pteAddr e) w
    | none =>
      let loc : Except (XFault × Wk) (Nat × Option LeafAt × Wk) :=
        match s2root with
        | none => .ok (tbl + 8 * idx, none, w)
        | some r =>
          match s.s2Walk g r tbl true w with
          | .error x => .error x
          | .ok (l, w1) =>
            if bit l.ent 2 then .ok (l.out + 8 * idx, some l, { w1 with upd := w1.upd ++ adOf l false })
            else .error (⟨.perm, 0, true, tbl, true, false⟩, w1)
      match loc with
      | .error x => .error x
      | .ok (pa, l2, w1) =>
        match s.readPte g.sec pa with
        | none => .error (⟨.walk, lvl, false, 0, true, false⟩, s.noteCxl pa w1)
        | some (e, v) =>
          let w2 := if v then { w1 with viol := w1.viol ++ [pa] } else w1
          if pteBad e lvl then .error (⟨.trans, lvl, false, 0, false, false⟩, w2)
          else if bit e 1 then .ok (⟨e, pa, lvl, leafOut e lvl va⟩, l2, tbl, w2)
          else
            let w3 := { w2 with fills := w2.fills ++ [⟨1, lvl, va % 2 ^ 57 / 2 ^ sh, root, g.sec, g.regime, g.vmid, g.asid, e⟩] }
            s.s1Go g s2root root va fuel (lvl - 1) (pteAddr e) w3

/-- The regime of a thread's access (R285): stage-1 enable and root, stage-2 root of a guest, tags. -/
structure Regime where
  en : Bool
  root : Nat
  s2root : Option Nat
  tag : XTag
  pl : Nat
  kua : Bool
  deriving DecidableEq, Repr

/-- The regime a thread runs under; `none` at level 3, which is never translated. -/
def State.regime (s : State) (t : Nat) : Option Regime :=
  let th := s.thr t
  let stop := s.stopOf t
  if th.pl = 3 then none
  else if th.pl = 2 then
    some ⟨bit (s.view t 0x811) 0, fld (s.view t 0x812) 12 40 * 4096, none, ⟨stop, th.secure, 2, 0, 0⟩, 2, false⟩
  else
    let k := s.view t 0x410
    let gst := s.guest t
    some ⟨bit k 0, fld (s.view t 0x411) 12 40 * 4096, if gst then some (fld (s.view t 0x811) 12 40 * 4096) else none,
      ⟨stop, th.secure, if bit k 0 then 0 else 1, if gst then s.vmid t else 0, fld k 32 16⟩, th.pl, bit k 1⟩

/-- Stage-1 permission (R292). -/
def s1Permits (k : AccKind) (pl : Nat) (kua rd wr xu xp u : Bool) : Bool :=
  let uOk := if pl = 0 then u else if pl = 1 then !(kua && u) else true
  match k with
  | .fetch => if pl = 0 then xu && u else if pl = 1 then xp && !u else xp
  | .load | .clean => rd && uOk
  | .store | .inval => wr && uOk
  | .atomic => rd && wr && uOk

/-- Stage-2 permission (R292). -/
def s2Permits (k : AccKind) (rd wr x : Bool) : Bool :=
  match k with
  | .fetch => x
  | .load | .clean => rd
  | .store | .inval => wr
  | .atomic => rd && wr

/-- A translated address: physical address, attribute of the stages, whether the access carries SEC, A and D updates due, the entry to install, and whether it came from an L1 TLB or the L2 TLB. -/
structure Xl where
  pa : Nat
  attr : Nat
  sec : Bool
  upd : List AdUpd
  inst : Option TlbEntry
  l1Hit : Bool
  walked : Bool
  deriving DecidableEq, Repr

/-- The SEC attribute of an access: the thread's world, or Normal through an NS leaf unless MCTL.NSDIS (15 R456). -/
def State.accSec (s : State) (t : Nat) (ns : Bool) : Bool := (s.thr t).secure && !(ns && !bit (s.view t 0xC10) 1)

/-- Does a TLB entry translate the address under the tags (R293)? -/
def TlbEntry.hits (e : TlbEntry) (g : XTag) (va : Nat) : Bool :=
  e.vpage == va / 2 ^ e.szl && e.sec == g.sec && e.regime == g.regime && e.vmid == g.vmid && (e.glob || e.asid == g.asid)

/-- Does the entry permit the access without a walk for D (R291)? -/
def TlbEntry.usable (e : TlbEntry) (k : AccKind) : Bool := !k.writes || e.dirty

/-- Strongest of two memory types: 0 write-back, 1 uncached, 2 Device (02 R63). -/
def strongest (a b : Nat) : Nat := max a b

/-- A walk under a regime (R285–R292): translation, permissions, A and D updates due, and the entry to install. -/
def State.walkVa (s : State) (t : Nat) (r : Regime) (va : Nat) (k : AccKind) : Except (XFault × Wk) (Xl × Wk) :=
  let noncanon := r.en && !(va / 2 ^ 56 == 0 || va / 2 ^ 56 == 0xFF)
  if noncanon then .error (⟨.trans, 5, false, 0, false, false⟩, Wk.none)
  else
    let st1 : Except (XFault × Wk) (Option (LeafAt × Option LeafAt × Nat) × Nat × Wk) :=
      if r.en then
        match s.s1Go r.tag r.s2root r.root va 5 4 r.root Wk.none with
        | .error x => .error x
        | .ok (l, l2, tbl, w) => .ok (some (l, l2, tbl), l.out, w)
      else .ok (none, va, Wk.none)
    match st1 with
    | .error x => .error x
    | .ok (l1, out, w) =>
      let p1 := match l1 with
        | none => true
        | some (l, _, _) => s1Permits k r.pl r.kua (bit l.ent 2) (bit l.ent 3) (bit l.ent 4) (bit l.ent 5) (bit l.ent 6)
      if !p1 then .error (⟨.perm, 0, false, 0, false, false⟩, w)
      else
        let upd1 := match l1 with
          | none => []
          | some (l, _, _) => adOf l k.writes
        let e1 : Word := match l1 with | some (l, _, _) => l.ent | none => 0x37F#64
        let sz1 := match l1 with | some (l, _, _) => if l.lvl = 0 && bit l.ent 13 && Config.pick s.freeCtr 7 % 2 == 1 then 16 else 12 + 9 * l.lvl | none => 64
        let dOk1 := bit e1 9 || k.writes
        match r.s2root with
        | none =>
          let te : TlbEntry := ⟨va / 2 ^ sz1, sz1, r.tag.sec, r.tag.regime, r.tag.vmid, r.tag.asid, bit e1 7 || r.pl == 2, out / 2 ^ sz1 * 2 ^ sz1,
            0, bit e1 2, bit e1 3, bit e1 4, bit e1 5, bit e1 6, true, true, true, fld e1 10 2, bit e1 12 && r.tag.sec, dOk1⟩
          .ok (⟨out, if r.en then fld e1 10 2 else 0, s.accSec t (bit e1 12 && r.en), w.upd ++ upd1, if r.en then some te else none, false, true⟩,
            { w with upd := [] })
        | some root2 =>
          match s.s2Walk r.tag root2 out false w with
          | .error x => .error x
          | .ok (l2, w2) =>
            if !s2Permits k (bit l2.ent 2) (bit l2.ent 3) (bit l2.ent 4) then .error (⟨.perm, 0, true, out, false, false⟩, w2)
            else
              let tblUpd : Except (XFault × Wk) (List AdUpd) :=
                match l1 with
                | some (_, some tl, tbl) =>
                  if upd1.isEmpty then .ok []
                  else if bit tl.ent 3 then .ok (adOf tl true)
                  else .error (⟨.perm, 0, true, tbl, true, true⟩, w2)
                | _ => .ok []
              match tblUpd with
              | .error x => .error x
              | .ok tu =>
                let sz2 := 12 + 9 * l2.lvl
                let sz := min sz1 sz2
                let a := strongest (if r.en then fld e1 10 2 else 0) (fld l2.ent 10 2)
                let te : TlbEntry := ⟨va / 2 ^ sz, sz, r.tag.sec, r.tag.regime, r.tag.vmid, r.tag.asid, bit e1 7, l2.out / 2 ^ sz * 2 ^ sz,
                  out / 2 ^ sz * 2 ^ sz, bit e1 2, bit e1 3, bit e1 4, bit e1 5, bit e1 6, bit l2.ent 2, bit l2.ent 3, bit l2.ent 4, a, false,
                  dOk1 && (bit l2.ent 9 || k.writes)⟩
                .ok (⟨l2.out, a, s.accSec t false, w2.upd ++ adOf l2 k.writes ++ upd1 ++ tu, some te, false, true⟩, { w2 with upd := [] })

/-- Use of a cached translation. -/
def State.useTlb (s : State) (t : Nat) (r : Regime) (va : Nat) (k : AccKind) (e : TlbEntry) (l1 : Bool) : Except (XFault × Wk) (Xl × Wk) :=
  let ipa := e.ipa + va % 2 ^ e.szl
  if r.en && !s1Permits k r.pl r.kua e.rd e.wr e.xu e.xp e.u then .error (⟨.perm, 0, false, 0, false, false⟩, Wk.none)
  else if !s2Permits k e.rd2 e.wr2 e.x2 then .error (⟨.perm, 0, true, ipa, false, false⟩, Wk.none)
  else .ok (⟨e.pa + va % 2 ^ e.szl, e.attr, s.accSec t e.ns, [], if l1 then none else some e, l1, false⟩, Wk.none)

/-- The entries a fetch may use: between its own TLBI and the SYNCS that follows, a thread's fetch uses the new translation or one the TLBI removed (R296); which is a free choice. -/
def State.fetchEntries (s : State) (t : Nat) (c : CoreSt) : List TlbEntry :=
  if Config.pick s.freeCtr 15 % 2 = 1 then (s.thr t).oldItlb ++ c.itlb else c.itlb

/-- Translate an address for an access of a thread (R285–R293): L1 TLB, L2 TLB, then a walk. A guest's stage-1-disabled and every level-3 address is used as in R286. -/
def State.translate (s : State) (t : Nat) (va : Word) (k : AccKind) : Except (XFault × Wk) (Xl × Wk) :=
  match s.regime t with
  | none => if 2 ^ 52 ≤ va.toNat then .error (⟨.unmapped, 0, false, 0, false, false⟩, Wk.none)
      else .ok (⟨va.toNat, 0, s.accSec t false, [], none, true, false⟩, Wk.none)
  | some r =>
    if !r.en && r.s2root.isNone then
      if 2 ^ 52 ≤ va.toNat then .error (⟨.unmapped, 0, false, 0, false, false⟩, Wk.none)
      else .ok (⟨va.toNat, 0, s.accSec t false, [], none, true, false⟩, Wk.none)
    else
      let c := s.core r.tag.stop
      let l1 := if k = .fetch then s.fetchEntries t c else c.dtlb
      match l1.find? (fun e => e.hits r.tag va.toNat && e.usable k) with
      | some e => s.useTlb t r va.toNat k e true
      | none =>
        match c.l2tlb.find? (fun e => e.hits r.tag va.toNat && e.usable k) with
        | some e => s.useTlb t r va.toNat k e false
        | none => s.walkVa t r va.toNat k

/-! ### Effects of a translation -/

/-- Put an entry at the front of a bounded list; a full list loses a victim by free choice. -/
def putBounded {α : Type} (cap seed tag : Nat) (l : List α) (x : α) : List α :=
  if l.length < cap then x :: l else x :: l.eraseIdx (Config.pick seed tag % l.length)

/-- Install a translation in the L1 TLB of its kind and in the L2 TLB (R293): 48, 96 and 4,096 entries, the last in sets of 8. The spec gives no index of the L2 TLB: the set is the page number modulo 512 (DESIGN CHOICE, notes/assumptions/99.md). -/
def CoreSt.installTlb (c : CoreSt) (seed : Nat) (k : AccKind) (e : TlbEntry) : CoreSt :=
  let same (x : TlbEntry) : Bool := x.vpage == e.vpage && x.szl == e.szl && x.sec == e.sec && x.regime == e.regime && x.vmid == e.vmid && x.asid == e.asid
  let inSet (x : TlbEntry) : Bool := x.vpage % 512 == e.vpage % 512
  let l2 := c.l2tlb.filter (fun x => !same x)
  let set := l2.filter inSet
  let l2' := if set.length < 8 then e :: l2
    else match set[Config.pick seed 8 % set.length]? with
      | some v => e :: l2.erase v
      | none => e :: l2
  if k = .fetch then { c with itlb := putBounded 48 seed 9 (c.itlb.filter (fun x => !same x)) e, l2tlb := l2' }
  else { c with dtlb := putBounded 96 seed 10 (c.dtlb.filter (fun x => !same x)) e, l2tlb := l2' }

/-- Cache the non-leaf entries a walk read (R293, 64 entries). -/
def CoreSt.fillWalk (c : CoreSt) (seed : Nat) (fs : List WalkEntry) : CoreSt :=
  fs.foldl (fun c f => { c with walkc := putBounded 64 seed 11 (c.walkc.filter (fun x => !(x == f))) f }) c

/-- What a walk leaves whatever its outcome: cached non-leaf entries, a violation for every refused table read, and CXL_MEM_ERROR for one that failed (14 R428). -/
def State.walkLeft (s : State) (t : Nat) (w : Wk) : State :=
  let s1 := if w.fills.isEmpty then s else s.updCore (s.stopOf t) (fun c => c.fillWalk s.freeCtr w.fills)
  w.viol.foldl (fun s a => if !(s.thr t).secure && s.lineSec (a / 64) then s.coreViol t 1 a else s.cxlError a 3) s1

/-- Set A, and D when the access writes, in a table entry: an 8-byte compare-and-swap at its home (R291). -/
def State.setAd (s : State) (u : AdUpd) : State :=
  let (d, _) := s.coh.currentNow s.env (u.pa / 64)
  let e : Word := d.extractLsb' (8 * (u.pa % 64)) 64
  s.writeBytes u.pa (leBytes 8 (setBit (if u.d then setBit e 9 true else e) 8 true).toNat) 0

/-- Complete a translation whose access has passed every check: A and D updates, TLB entries, and the counters of its miss and walk. -/
def State.commitXl (s : State) (t : Nat) (k : AccKind) (x : Xl) : State :=
  let s1 := x.upd.foldl State.setAd s
  let s2 := match x.inst with
    | none => s1
    | some e => s1.updCore (s1.stopOf t) (fun c => c.installTlb s.freeCtr k e)
  let s3 := if x.walked then s2.countThr t 0x00E .none none 1 else s2
  if !x.l1Hit && k != .fetch then s3.countThr t 0x00D .none (some x.pa) 1 else s3

/-- The exception a translation fault raises (02 R58, R59). `size` is log2 of the access size, `reg` the register number. -/
def XFault.exc (f : XFault) (k : AccKind) (va : Word) (size reg : Nat) : Exc :=
  let base := if k = .fetch then 0x10 else 0x20
  let code := match f.kind with
    | .trans => base
    | .perm => base + 1
    | .walk => if k = .fetch then 0x14 else 0x26
    | .unmapped => if k = .fetch then 0x13 else 0x23
  { code := code, addrValid := true, s2 := f.s2, wnr := if f.s2 && f.table then f.adUpd else k.writes,
    size := size, reg := reg, info := f.info, addr := va, ipa := f.ipa }

/-- Memory type of an access (02 R63): the stages' attribute, and Device for CCS and MMIO, uncached for the boot ROM. -/
def State.memType (s : State) (x : Xl) : Nat :=
  strongest x.attr (match s.paKind x.pa with | .ccs => 2 | .mmio => 2 | .rom => 1 | _ => 0)

end Sys2Proof.Machine
end

