-- ==== Sys2Proof/Machine/Power.lean ====
section
/-! DEFINITION. Power domains: votes, switching, waking, clocks (spec/16_power.md R489–R503), and the reset of a core's threads (spec/11_tenancy.md R343). -/
namespace Sys2Proof.Machine
open Sys2Proof.Config

/-- Has the domain a PLL of its own (R489)? The others run on the mesh or I/O fabric clock, or on their core's clock. -/
def hasPll (d : Nat) : Bool := decide (d < 224) || (decide (710 ≤ d) && decide (d < 768))
/-- Is the PLL of a domain locked (R497, R500, R501)? -/
def State.pllLocked (s : State) (d : Nat) : Bool := s.pwr.refLost.isNone && !s.pwr.unlocked.contains d
/-- Does the core at a stop run on its PLL: locked and selected by CLKSEL.SRC (R498)? -/
def State.coreOnPll (s : State) (p : Nat) : Bool := s.pllLocked p && bit (s.core p).clksel 0
/-- PVC_DOM.CLK (R512): 0 stopped, 1 FIC, 2 PLL. -/
def State.clkOf (s : State) (d : Nat) : Nat :=
  if !s.clocked d then 0
  else if d < 448 then (if s.coreOnPll (d % 224) then 2 else 1)
  else if s.pllLocked d then 2 else 1
/-- PVC_DOM_n as read (R512). -/
def State.domReg (s : State) (d : Nat) : Word := setFld (s.reg (a_PVC_DOM d)) f_PVC_DOM_CLK.1 f_PVC_DOM_CLK.2 (s.clkOf d)
/-- Frequency of a core's PLL now, in 25 MHz units: it glides to its last granted frequency by a unit per 0.2 µs (R507). -/
def State.pllFreq (s : State) (p : Nat) : Nat :=
  let g := smGet (fun _ => Glide.still) s.pwr.glide p
  let n := (s.time.ticks - g.start) / 200
  if g.src ≤ g.dst then min g.dst (g.src + n) else max g.dst (g.src - n)
/-- CLKSEL as read (R507, R510): LOCKED, and FREQ_NOW, which is 48 (1.2 GHz) on FIC. -/
def State.clkselOf (s : State) (p : Nat) (v : Word) : Word := setFld (setBit v 1 (s.pllLocked p)) 16 8 (if s.coreOnPll p then s.pllFreq p else 48)

/-- Reset one hardware thread to its initial state; BTBKEY is drawn again (11 R343, 04 R105). -/
def State.resetThread (s : State) (t : Nat) : State :=
  (s.dropLoads t).setThr t { Thread.reset (vcfgReset s.variant) with keyGen := (s.thr t).keyGen + 1 }

/-- Logical core whose position holds a stop. -/
def State.lcoreOf (s : State) (stop : Nat) : Nat := s.coreMap.findIdx (fun e => e.phys == stop)

/-- Does the core at a stop hold an active position of the core map (01 R36)? -/
def State.mapped (s : State) (stop : Nat) : Bool := decide (s.lcoreOf stop < s.activeCores) && (s.mapEnt (s.lcoreOf stop)).st == .active

/-- Is sparing moving the state of threads to or from the core at a stop (18 R555, R558)? -/
def State.sparingAt (s : State) (stop : Nat) : Bool := s.ras.sparing.any (fun x => !x.moved && x.cause != 4 && (x.old == stop || x.spare == stop))

/-- The DEP vote of a core: held while any of its threads is not suspended by WAIT, or sparing is moving state to or from it (R494). -/
def State.coreDep (s : State) (stop : Nat) : State :=
  let l := s.lcoreOf stop
  s.setVote stop 4 (s.mapped stop && [0, 1, 2, 3].any (fun k => !(s.thr (4 * l + k)).waiting) || s.sparingAt stop)

/-- Reset a core's core-scope state and its four threads (11 R343 step 4, 20 R598); its DEP vote for the long-vector unit ends with the instructions it was for. -/
def State.resetCore (s : State) (stop : Nat) : State :=
  let l := s.lcoreOf stop
  let s1 := (s.setCore stop CoreSt.reset).setVote (224 + stop) 4 false
  [0, 1, 2, 3].foldl (fun s k => s.resetThread (4 * l + k)) s1

/-- A long-vector instruction at DS: its core holds DEP on the long-vector domain, which wakes if it is off, until 1 ms after it (06 R154). -/
def State.lvRequest (s : State) (stop : Nat) : State := (s.updCore stop (fun c => { c with lvLast := some s.time.mt })).setVote (224 + stop) 4 true

/-- Is the long-vector unit of a stop usable now? -/
def State.lvReady (s : State) (stop : Nat) : Bool := s.domState (224 + stop) == 2
/-- Has the long-vector unit failed or is it absent (06 R146, R499)? -/
def State.lvAbsent (s : State) (stop : Nat) : Bool := !hasLv s.variant || s.domState (224 + stop) == 4

/-! ### Register writes (R479, R514) -/

/-- A write to PVC_CLK_n: refused from the Normal world while SEC is in VOTES. -/
def State.pvcClkWrite (s : State) (d : Nat) (v : Word) (sec : Bool) (rtype req vmid : Nat) : State :=
  if !sec && (s.votes d).testBit 0 then s.secViol 1000 vmid rtype req 6 (a_PVC_CLK d)
  else s.wf (a_PVC_CLK d) f_PVC_CLK_CLKSTOP (bit v 0).toNat

/-- A write to PVC_HYP_VOTE_n or PVC_SEC_VOTE_n: the holder's vote. -/
def State.pvcVoteWrite (s : State) (d holder : Nat) (v : Word) : State :=
  (s.wf (if holder = 0 then a_PVC_SEC_VOTE d else a_PVC_HYP_VOTE d) (0, 1) (bit v 0).toNat).setVote d holder (bit v 0)

end Sys2Proof.Machine
end

