-- ==== Sys2Proof/Machine/CcsGen.lean ====
section
/-! DEFINITION. Chip Control Space in general: access types and widths (spec/00_scope.md R7, R10–R12), unassigned offsets (spec/01_architecture.md R26, R27), the Colophon (01 R28–R37), and the Secure check of a page (spec/15_security.md R458, R461, R480). What a register's own write or read does beyond its fields stands with its block. -/
namespace Sys2Proof.Machine
open Sys2Proof.Config

/-- An access to Chip Control Space: byte offset, 32-bit or 64-bit, data of a write, SEC, and the requester as an event record names it (15 R480): type 0 core, 1 device, 2 Lengthsman, with its number and VMID. -/
structure CcsReq where
  off : Nat
  half : Bool
  data : Word
  sec : Bool
  rtype : Nat
  req : Nat
  vmid : Nat
  deriving DecidableEq, Repr

/-- Offset of the 8-byte register an access addresses. -/
def CcsReq.reg (q : CcsReq) : Nat := q.off / 8 * 8
/-- The upper half of a register is addressed. -/
def CcsReq.upper (q : CcsReq) : Bool := q.half && q.off % 8 == 4

/-! ### Which unit a page belongs to (01 R26, R32) -/

/-- Colophon entry of the unit whose page holds an offset, if any; the RAS collector of a stop counts with its slice, and page 8 of a root port belongs to its CXL layer (14 R429). -/
def unitAt (off : Nat) : Option Nat :=
  if off < 0x100000 then none
  else if off < 0x200000 then some 801
  else if off < 0x300000 then none
  else if off < 0x400000 then some 799
  else if off < 0x500000 then some 800
  else if off < 0x600000 then some 797
  else if off < 0x700000 then some 798
  else if inRange off 0x1000000 0x100000 then some (768 + (off - 0x1000000) / 0x10000)
  else if inRange off 0x2000000 0x800000 then
    let p := (off - 0x2000000) / 0x100000
    if (off - 0x2000000) % 0x100000 / 0x10000 = 8 then some (788 + p) else some (750 + p)
  else if inRange off 0x2900000 0x100000 then some 766
  else if inRange off 0x3000000 0x1000000 then some 796
  else if inRange off 0x4000000 0x100000 then some (710 + (off - 0x4000000) / 0x10000)
  else if inRange off 0x5000000 0x400000 then some (742 + (off - 0x5000000) / 0x100000)
  else if inRange off 0x6000000 0x100000 then some 804
  else if inRange off 0x6100000 0x260000 then some (672 + (off - 0x6100000) / 0x10000)
  else if inRange off 0x10000000 0xE000000 then
    let st := (off - 0x10000000) / 0x100000
    if (off - 0x10000000) % 0x100000 < 0x40000 then some st else some (448 + st)
  else none

/-- Is the unit of a Colophon entry absent on the variant (00 R1, 01 R33)? -/
def unitAbsent (v : Variant) (e : Nat) : Bool :=
  if e < 788 then domAbsent v e else if e < 796 then !hasCxl v || decide (rootPorts v ≤ e - 788) else false

/-- Absent unit whose page holds an offset, if any. -/
def State.absentAt (s : State) (off : Nat) : Option Nat :=
  match unitAt off with
  | some e => if unitAbsent s.variant e then some e else none
  | none => none

/-- SOURCE of a violation found at a CCS page (15 R480). -/
def pageSource (off : Nat) : Nat :=
  if 0x100000000 ≤ off then 1002
  else match unitAt off with
  | none => 1000
  | some e =>
    if e < 788 then e
    else if e < 796 then e - 38
    else if e = 796 || e = 797 || e = 798 then 784
    else if e = 801 then 1001
    else 1000

/-- Is the page of an offset Secure (15 R458, R461)? -/
def State.pageSecure (s : State) (off : Nat) : Bool :=
  if off < 0x100000 then false
  else if 0x100000000 ≤ off then true
  else (s.reg (a_TOL_CCS_MAP (off / 65536 / 64))).getLsbD (off / 65536 % 64)

/-! ### The Colophon (01 R28–R37) -/

/-- Unit types of R32: type, first entry, instances, page of instance i, pages. -/
def unitTypes : List (Nat × Nat × Nat × (Nat → Nat) × Nat) :=
  [(0x0001, 0, 224, fun i => 0x10000000 + 0x100000 * i, 4), (0x0002, 224, 224, fun i => 0x10000000 + 0x100000 * i, 0),
   (0x0003, 448, 224, fun i => 0x10040000 + 0x100000 * i, 8), (0x0004, 672, 38, fun i => 0x6100000 + 0x10000 * i, 1),
   (0x0005, 710, 16, fun i => 0x4000000 + 0x10000 * i, 1), (0x0006, 726, 16, fun i => 0x4000000 + 0x10000 * i, 0),
   (0x0007, 742, 4, fun i => 0x5000000 + 0x100000 * i, 16), (0x0008, 746, 4, fun i => 0x5000000 + 0x100000 * i, 0),
   (0x0009, 750, 8, fun i => 0x2000000 + 0x100000 * i, 16), (0x000A, 758, 8, fun i => 0x2000000 + 0x100000 * i, 0),
   (0x000B, 766, 1, fun _ => 0x2900000, 16), (0x000C, 767, 1, fun _ => 0x2900000, 0),
   (0x000D, 768, 16, fun i => 0x1000000 + 0x10000 * i, 1), (0x000E, 784, 4, fun _ => 0x3000000, 0),
   (0x000F, 788, 8, fun i => 0x2000000 + 0x100000 * i, 0), (0x0010, 796, 1, fun _ => 0x3000000, 256),
   (0x0011, 797, 1, fun _ => 0x500000, 16), (0x0012, 798, 1, fun _ => 0x600000, 16), (0x0013, 799, 1, fun _ => 0x300000, 16),
   (0x0014, 800, 1, fun _ => 0x400000, 16), (0x0015, 801, 1, fun _ => 0x100000, 16), (0x0016, 802, 1, fun _ => 0x100000000, 0),
   (0x0017, 803, 1, fun _ => 0x100000, 0), (0x0018, 804, 1, fun _ => 0x6000000, 16)]

/-- PWR_DOMAIN of an entry (R32): 0xFFF where it shares a domain listed elsewhere. -/
def entryDomain (e : Nat) : Nat :=
  if e < 788 then e else if e < 799 then 0xFFF else if e = 801 then 1001 else if e = 802 then 1002 else if e = 804 then 0xFFF else 1000

/-- TILE of an entry (R14–R16, R31). -/
def entryTile (e : Nat) : Nat :=
  if e < 672 then e % 224 / 56
  else if e < 710 then
    let n := e - 672
    if n < 7 then 0 else if n < 14 then 2 else if n < 22 then 0 else if n < 30 then 1 else (n - 30) / 2
  else if e < 742 then (e - 710) % 4
  else if e < 750 then (e - 742) % 4
  else 4

/-- ENABLED of an entry (R33): present and neither a held spare nor retired after failure; an aqueduct works (08 R213), a DDR5 controller holds a trained DIMM (09 R247), a CXL layer goes with its root port, and the IOTU, the router and the QoS controller with the segment that holds them (R17). DESIGN CHOICE: a controller whose unmirrored channel has failed (09 R265) stays in service (notes/assumptions/110.md). -/
def State.unitEnabled (s : State) (e : Nat) : Bool :=
  if unitAbsent s.variant e then false
  else if e < 448 then s.coreMap.any (fun m => m.phys == e % 224 && m.st == .active) && s.domState e != 4
  else if e < 788 then s.domState e != 4 && (e < 672 || 710 ≤ e || s.rf (a_MSH_AQ_STAT (e - 672)) f_MSH_AQ_STAT_FAILED == 0) &&
    (e < 710 || 726 ≤ e || s.rf (a_DMC_CFG (e - 710)) f_DMC_CFG_DPC != 0)
  else if e < 796 then s.domState (e - 38) != 4
  else if e < 799 then s.domState 784 != 4
  else true

/-- DEGRADED of an entry (R37). -/
def State.unitDegraded (s : State) (e : Nat) : Bool :=
  s.unitEnabled e &&
  (if e < 224 then s.pwr.pllFailed.contains e
   else if e < 448 then false
   else if e < 672 then
     s.rf (a_STP_LLC_WAYSTAT (e - 448)) f_STP_LLC_WAYSTAT_DISABLED != 0 || s.rf (a_STP_DIR_STAT (e - 448)) f_STP_DIR_STAT_DIS_WAYS != 0
   else if e < 710 then
     s.rf (a_MSH_AQ_STAT (e - 672)) f_MSH_AQ_STAT_HALF_AB == 1 || s.rf (a_MSH_AQ_STAT (e - 672)) f_MSH_AQ_STAT_HALF_BA == 1
   else if e < 726 then
     let c := e - 710
     s.rf (a_DMC_RAS_STAT c) f_DMC_RAS_STAT_SUBST != 0 || s.rf (a_DMC_RAS_STAT c) f_DMC_RAS_STAT_FAILED_OVER == 1 ||
       (s.rf a_MSH_MEM_CFG f_MSH_MEM_CFG_MIRROR == 1 && s.rf (a_DMC_CFG c) f_DMC_CFG_MIRROR_ROLE == 0 && s.rf (a_DMC_CFG c) f_DMC_CFG_CAP != 0)
   else if 742 ≤ e && decide (e < 746) then s.rf (a_HMC_RAS_STAT (e - 742)) f_HMC_RAS_STAT_REPAIRS != 0
   else false)

/-- FEATURES of an entry (R32): the long-vector unit of a core, the CXL layer of a root port. -/
def State.unitFeatures (s : State) (e : Nat) : Nat :=
  if e < 224 then (!domAbsent s.variant (224 + e)).toNat
  else if 750 ≤ e && decide (e < 758) then (!unitAbsent s.variant (e + 38)).toNat
  else 0

/-- Word w of entry e (R31). The design version of a unit is the silicon's own (notes/assumptions/6.md). -/
def State.entryWord (s : State) (e w : Nat) : Nat :=
  match unitTypes.find? (fun u => decide (u.2.1 ≤ e) && decide (e < u.2.1 + u.2.2.1)) with
  | none => 0
  | some (ty, base, _, page, pages) =>
    let i := e - base
    let absent := unitAbsent s.variant e
    if w = 0 then
      ty + i * 2 ^ 16 + (!absent).toNat * 2 ^ 32 + (s.unitEnabled e).toNat * 2 ^ 33 + (s.unitDegraded e).toNat * 2 ^ 34 +
        (if absent then 0 else (freeWord 0x56 ty).toNat % 2 ^ 16) * 2 ^ 48
    else if w = 1 then page i + entryDomain e * 2 ^ 40
    else if w = 2 then s.unitFeatures e
    else pages + entryTile e * 2 ^ 16

/-- Core-map entry at a position as a 32-bit value (R36). -/
def CoreMapEnt.word (m : CoreMapEnt) : Nat :=
  m.phys + (match m.st with | .active => 0 | .spare => 1 | .failed => 2 | .fusedOff => 3) * 2 ^ 16

/-- The 8-byte word of the Colophon at an offset (R28–R36). The spec gives STEPPING no value: it is a free value (notes/assumptions/6.md). -/
def State.colophon (s : State) (off : Nat) : Word :=
  let k := off / 8
  BitVec.ofNat 64 (
    if off < 64 then
      (if k = 0 then 0x48504C43 + 1 * 2 ^ 32 + 64 * 2 ^ 48
       else if k = 1 then partCode s.variant + (freeWord 0x57 0).toNat % 2 ^ 16 * 2 ^ 16 + 805 * 2 ^ 32 + 32 * 2 ^ 48
       else if k = 2 then s.sparingGen
       else if k = 3 then 0x6500 + 224 * 2 ^ 32
       else if k = 4 then s.activeCores + (s.coreMap.filter (fun m => m.st == .spare)).length * 2 ^ 16
       else 0)
    else if off < 64 + 805 * 32 then s.entryWord ((off - 64) / 32) ((off - 64) / 8 % 4)
    else if 0x6500 ≤ off && decide (off < 0x6500 + 224 * 4) then
      let i := (off - 0x6500) / 4
      (s.mapEnt i).word + (s.mapEnt (i + 1)).word * 2 ^ 32
    else 0)

/-! ### Fields under the access rules (00 R11, R12) -/

/-- Does the access cover the field wholly? -/
def covers (q : CcsReq) (f : RegField) : Bool :=
  if !q.half then true else if q.upper then decide (32 ≤ f.lo) else decide (f.lo + f.width ≤ 32)

/-- New value of one field under a write of `x`, and whether it locks. -/
def fieldWrite (f : RegField) (locked : Bool) (old x : Nat) : Nat × Bool :=
  match f.acc with
  | .rw | .rws => (x, false)
  | .ro | .rc | .wo => (old, false)
  | .w1c => (old &&& (2 ^ f.width - 1 - x % 2 ^ f.width), false)
  | .w1s => (old ||| x, false)
  | .wl => if locked then (old, false) else (x, true)
  | .w1l => (old ||| x, false)

/-- A write applied to the fields of a register: the new value and the new lock bits (one at each locked field's lowest bit). -/
def fieldsWrite (q : CcsReq) (fs : List RegField) (locks old data : Word) : Word × Word :=
  fs.foldl (fun a f =>
    if covers q f then
      let (x, l) := fieldWrite f (locks.getLsbD f.lo) (fld old f.lo f.width) (fld data f.lo f.width)
      (setFld a.1 f.lo f.width x, if l then setBit a.2 f.lo true else a.2)
    else a) (old, locks)

/-- A read applied to the fields: the value returned and the value left (RC fields clear, WO reads zero). -/
def fieldsRead (q : CcsReq) (fs : List RegField) (v : Word) : Word × Word :=
  fs.foldl (fun a f =>
    match f.acc with
    | .rc => (a.1, if covers q f then setFld a.2 f.lo f.width 0 else a.2)
    | .wo => (setFld a.1 f.lo f.width 0, a.2)
    | _ => a) (v, v)

/-- Data of a write placed at its half of the register. -/
def CcsReq.placed (q : CcsReq) : Word := if q.upper then q.data <<< 32 else if q.half then q.data &&& 0xFFFFFFFF#64 else q.data
/-- The half of a register that a read returns. -/
def CcsReq.taken (q : CcsReq) (v : Word) : Word := if q.upper then v >>> 32 else if q.half then v &&& 0xFFFFFFFF#64 else v

/-- Fields of the register at an offset, if it is assigned. -/
def fieldsAt (off : Nat) : Option (List RegField) := (findReg off).map (·.1.fields)

/-- The value a register would take from a write by its fields' access types, with the locks. -/
def State.written (s : State) (q : CcsReq) : Word × Word :=
  match fieldsAt q.reg with
  | none => (s.reg q.reg, 0)
  | some fs => fieldsWrite q fs (smGet (fun _ => 0) s.locks q.reg) (s.reg q.reg) q.placed

/-- Set the locks of a register. -/
def State.setLocks (s : State) (off : Nat) (l : Word) : State := { s with locks := smSet (fun _ => 0) s.locks off l }

/-- Undo a field of a write whose value is out of range. -/
def keepField (old new : Word) (f : FieldAt) (bad : Bool) : Word := if bad then setFld new f.1 f.2 (fld old f.1 f.2) else new

/-- The outcome of the checks before a register is reached (00 R7, R12, 01 R27, 15 R458): refused with what is left, or allowed. A berth frame is checked for its owner first (12 R362). -/
def State.ccsCheck (s : State) (q : CcsReq) (write : Bool) : Option State :=
  if s.pageSecure q.off && !q.sec then some (s.secViol (pageSource q.off) q.vmid q.rtype q.req (if write then 2 else 1) q.off)
  else if q.off < 0x100000 then none
  else if (s.absentAt q.off).isSome then some (s.pageEvent q.off write (s.absentAt q.off) q.rtype q.req q.vmid)
  else if (findReg q.off).isNone && !inRange q.off 0x340000 0x40000 then some (s.pageEvent q.off write none q.rtype q.req q.vmid)
  else none

end Sys2Proof.Machine
end

