-- ==== Sys2Proof/Machine/Alloc.lean ====
section
/-! DEFINITION. Which operand fields make an Eltor encoding allocated: the register restrictions of spec/02_programmers_model.md R42 and spec/03_instruction_set.md R69, R70, R72, R82, R85, R89, R91–R96. An unallocated encoding raises UNDEF_ENC. -/
namespace Sys2Proof.Machine

/-- A pair register: even and not E0 (R42). -/
def pairOk (r : Reg) : Bool := r.toNat % 2 == 0 && r.toNat != 0

/-- A field that names an LV register selects LV0–LV15 (R69). -/
def lvOk (r : Reg) : Bool := decide (r.toNat < 16)

/-- A field that names an M register selects M0–M7 (R69). -/
def mOk (r : Reg) : Bool := decide (r.toNat < 8)

/-- A vector register field: any SV register, or LV0–LV15 of a long form (R69). -/
def vOk (long : Bool) (r : Reg) : Bool := !long || lvOk r

/-- MEMX (R80): KIND 13–15 are unassigned; LQ and SQ name a pair. -/
def memxOk (kind : BitVec 4) (rd : Reg) : Bool :=
  decide (kind.toNat ≤ 12) && (!(kind.toNat == 7 || kind.toNat == 12) || pairOk rd)

/-- ATOM size and hint (R82): size 3 and hint 3 are reserved; size 2 only for SWAP and CAS, on pairs. An RD of E0 discards the old value (R83) and is allocated for every size below 16 bytes. -/
def atomOk (wide : Bool) (size hint : BitVec 2) (rd rb : Reg) : Bool :=
  hint != 3 && (if size = 2 then wide && pairOk rd && pairOk rb else size != 3)

/-- LOOP (R85): OFF16 of 0 or an Ec of E0 is unallocated. -/
def loopOk (ra : Reg) (off : BitVec 16) : Bool := ra != 0 && off != 0

/-- CMO.RANGE (R89): RA and RB must name different registers. -/
def rangeOk (ra rb : Reg) : Bool := ra != rb

/-- FMT of an FPS arithmetic encoding: bfloat16 is allocated only for FMADD, FMSUB and FCVT (R91). -/
def fmtArithOk (f : BitVec 2) : Bool := f != 3

/-- Types column of R92. -/
inductive VTypes where
  | int | intFp | fp | fmaTypes | all | sad
  deriving DecidableEq, Repr

/-- Is ETYPE allocated for an operation of these types (R92)? -/
def vtypeOk (k : VTypes) (et : BitVec 3) : Bool :=
  let t := ETypeOf et
  match k with
  | .int => t.isInt
  | .intFp => t.isInt || t.isFp
  | .fp => t.isFp
  | .fmaTypes => t.isFp || t == .bf16
  | .all => true
  | .sad => t == .i8 || t == .i16

/-- A gather or scatter encoding (R96): HINT 3 is reserved in a gather only; a gather whose VD equals VIDX is unallocated; SV and LV fields per R69. -/
def gatherOk (long : Bool) (vd vidx : Reg) (hint : BitVec 2) : Bool :=
  hint != 3 && vd != vidx && vOk long vd && vOk long vidx

end Sys2Proof.Machine
end

