-- ==== Sys2Proof/Machine/Encode.lean ====
section
/-! DEFINITION. The 32-bit encodings of spec/03_instruction_set.md R68 and R73, needed for XSYN.INFO of UNDEF_ENC and PRIV_INSTR (02 R59). -/
namespace Sys2Proof.Machine

/-- Format R (R68). -/
def encR (op : Nat) (rd ra rb : Reg) (fn : Nat) : BitVec 32 :=
  BitVec.ofNat 6 op ++ rd ++ ra ++ rb ++ BitVec.ofNat 11 fn
/-- Format I. -/
def encI (op : Nat) (rd ra : Reg) (imm : BitVec 16) : BitVec 32 := BitVec.ofNat 6 op ++ rd ++ ra ++ imm
/-- Format B. -/
def encB (op : Nat) (ra rb : Reg) (off : BitVec 16) : BitVec 32 := BitVec.ofNat 6 op ++ ra ++ rb ++ off
/-- Format J. -/
def encJ (op : Nat) (off : BitVec 26) : BitVec 32 := BitVec.ofNat 6 op ++ off
/-- Format U. -/
def encU (op : Nat) (rd : Reg) (imm : BitVec 21) : BitVec 32 := BitVec.ofNat 6 op ++ rd ++ imm
/-- Format SH. -/
def encSH (op : Nat) (rd ra : Reg) (sh : BitVec 6) (fn : Nat) : BitVec 32 :=
  BitVec.ofNat 6 op ++ rd ++ ra ++ sh ++ BitVec.ofNat 10 fn
/-- Format S. -/
def encS (op : Nat) (rd : Reg) (num : BitVec 12) : BitVec 32 := BitVec.ofNat 6 op ++ rd ++ 0#9 ++ num
/-- Format FL. -/
def encFL (op : Nat) (sd ra : Reg) (size : BitVec 2) (st : Bool) (off : BitVec 13) : BitVec 32 :=
  BitVec.ofNat 6 op ++ sd ++ ra ++ size ++ BitVec.ofBool st ++ off
/-- Format A. -/
def encA (rd ra rb : Reg) (atop : Nat) (ord hint size : BitVec 2) : BitVec 32 :=
  BitVec.ofNat 6 0x1F ++ rd ++ ra ++ rb ++ BitVec.ofNat 4 atop ++ ord ++ hint ++ size ++ 0#1
/-- Format V. -/
def encV (long : Bool) (vd va vb : Reg) (mask et : BitVec 3) (vop : Nat) : BitVec 32 :=
  BitVec.ofNat 6 (if long then 0x3B else 0x3A) ++ vd ++ va ++ vb ++ mask ++ et ++ BitVec.ofNat 5 vop
/-- Format VM. -/
def encVM (vd ra rb : Reg) (mask : BitVec 3) (esize : BitVec 2) (st long : Bool) : BitVec 32 :=
  BitVec.ofNat 6 0x3C ++ vd ++ ra ++ rb ++ mask ++ esize ++ BitVec.ofBool st ++ BitVec.ofBool long ++ 0#4
/-- Format VG. -/
def encVG (long : Bool) (vd ra vidx : Reg) (mask : BitVec 3) (scale hint esize : BitVec 2) (idx64 st : Bool) : BitVec 32 :=
  BitVec.ofNat 6 (if long then 0x3E else 0x3D) ++ vd ++ ra ++ vidx ++ mask ++ scale ++ hint ++ esize ++ BitVec.ofBool idx64 ++ BitVec.ofBool st
/-- FPS encodings (R91): FN[10:6] is FOP, FN[5:4] is FMT. -/
def encFPS (fop : Nat) (fmt : BitVec 2) (rd ra rb : Reg) : BitVec 32 := encR 0x38 rd ra rb (fop * 64 + fmt.toNat * 16)

end Sys2Proof.Machine
end

