-- ==== Sys2Proof/Machine/EltorDecode.lean ====
section
/-! DEFINITION. The Eltor decoder and encoder: which instruction a 32-bit word is, and the word of an instruction (spec/03_instruction_set.md R68–R96). A word that is no allocated encoding decodes to nothing and raises UNDEF_ENC (R70). -/
namespace Sys2Proof.Machine

/-- An instruction that a condition allocates. -/
def allocIf (ok : Bool) (i : Instr) : Option Instr := if ok then some i else none

/-- INT (R76): format R; RB is 0 in the unary rows. -/
def decInt (t : Nat) (rd ra rb : Reg) : Nat → Option Instr
  | 0x000 => some (.add t rd ra rb) | 0x001 => some (.sub t rd ra rb) | 0x002 => some (.iand t rd ra rb) | 0x003 => some (.ior t rd ra rb)
  | 0x004 => some (.ixor t rd ra rb) | 0x005 => some (.andn t rd ra rb) | 0x006 => some (.sll t rd ra rb) | 0x007 => some (.srl t rd ra rb)
  | 0x008 => some (.sra t rd ra rb) | 0x009 => some (.ror t rd ra rb) | 0x00A => some (.addw t rd ra rb) | 0x00B => some (.subw t rd ra rb)
  | 0x010 => some (.seq t rd ra rb) | 0x011 => some (.sne t rd ra rb) | 0x012 => some (.slt t rd ra rb) | 0x013 => some (.sltu t rd ra rb)
  | 0x014 => some (.sge t rd ra rb) | 0x015 => some (.sgeu t rd ra rb) | 0x018 => some (.imin t rd ra rb) | 0x019 => some (.imax t rd ra rb)
  | 0x01A => some (.minu t rd ra rb) | 0x01B => some (.maxu t rd ra rb) | 0x020 => some (.addc t rd ra rb) | 0x021 => some (.subb t rd ra rb)
  | 0x028 => some (.selnz t rd ra rb)
  | 0x030 => allocIf (rb == 0) (.clz t rd ra) | 0x031 => allocIf (rb == 0) (.ctz t rd ra) | 0x032 => allocIf (rb == 0) (.pop t rd ra)
  | 0x033 => allocIf (rb == 0) (.bswap t rd ra) | 0x034 => allocIf (rb == 0) (.sextB t rd ra) | 0x035 => allocIf (rb == 0) (.sextH t rd ra)
  | 0x036 => allocIf (rb == 0) (.sextW t rd ra) | 0x037 => allocIf (rb == 0) (.zextW t rd ra)
  | _ => none

/-- MULDIV (R77). -/
def decMulDiv (t : Nat) (rd ra rb : Reg) : Nat → Option Instr
  | 0x000 => some (.mul t rd ra rb) | 0x001 => some (.mulh t rd ra rb) | 0x002 => some (.mulhu t rd ra rb) | 0x003 => some (.mulhsu t rd ra rb)
  | 0x004 => allocIf (pairOk rd) (.mulwu t rd ra rb) | 0x005 => allocIf (pairOk rd) (.mulws t rd ra rb)
  | 0x008 => some (.div t rd ra rb) | 0x009 => some (.divu t rd ra rb) | 0x00A => some (.rem t rd ra rb) | 0x00B => some (.remu t rd ra rb)
  | 0x00C => some (.divw t rd ra rb) | 0x00D => some (.divwu t rd ra rb)
  | _ => none

/-- SHI (R78): FN[9:0] selects the shift. -/
def decShi (t : Nat) (rd ra : Reg) (sh : BitVec 6) : Nat → Option Instr
  | 0 => some (.slli t rd ra sh) | 1 => some (.srli t rd ra sh) | 2 => some (.srai t rd ra sh) | 3 => some (.rori t rd ra sh)
  | _ => none

/-- FLS (R81), by ST and SIZE. -/
def decFls (t : Nat) (sd ra : Reg) (off : BitVec 13) (size : BitVec 2) : Bool → Option Instr
  | false => some (if size = 0 then .flh t sd ra off else if size = 1 then .flw t sd ra off else if size = 2 then .fld t sd ra off else .svl t sd ra off)
  | true => some (if size = 0 then .fsh t sd ra off else if size = 1 then .fsw t sd ra off else if size = 2 then .fsd t sd ra off else .svs t sd ra off)

/-- ATOM (R82), by ATOP. -/
def decAtom (t : Nat) (rd ra rb : Reg) (ord hint size : BitVec 2) : Nat → Option Instr
  | 0 => allocIf (atomOk false size hint rd rb) (.atomAdd t rd ra rb ord hint size)
  | 1 => allocIf (atomOk false size hint rd rb) (.atomAnd t rd ra rb ord hint size)
  | 2 => allocIf (atomOk false size hint rd rb) (.atomOr t rd ra rb ord hint size)
  | 3 => allocIf (atomOk false size hint rd rb) (.atomXor t rd ra rb ord hint size)
  | 4 => allocIf (atomOk false size hint rd rb) (.atomSmin t rd ra rb ord hint size)
  | 5 => allocIf (atomOk false size hint rd rb) (.atomSmax t rd ra rb ord hint size)
  | 6 => allocIf (atomOk false size hint rd rb) (.atomUmin t rd ra rb ord hint size)
  | 7 => allocIf (atomOk false size hint rd rb) (.atomUmax t rd ra rb ord hint size)
  | 8 => allocIf (atomOk true size hint rd rb) (.atomSwap t rd ra rb ord hint size)
  | 9 => allocIf (atomOk true size hint rd rb) (.atomCas t rd ra rb ord hint size)
  | 10 => allocIf (atomOk false size hint rd rb) (.atomFadd t rd ra rb ord hint size)
  | _ => none

/-- SYS (R87): register fields are 0 except the operands of SEND. -/
def decSys (t : Nat) (rd ra rb : Reg) : Nat → Option Instr
  | 0x000 => allocIf (rd == 0 && ra == 0 && rb == 0) (.syncs t) | 0x001 => allocIf (rd == 0 && ra == 0 && rb == 0) (.xret t)
  | 0x002 => allocIf (rd == 0 && ra == 0 && rb == 0) (.wait t) | 0x010 => allocIf (rd == 0 && ra == 0 && rb == 0) (.fenceLl t)
  | 0x011 => allocIf (rd == 0 && ra == 0 && rb == 0) (.fenceLs t) | 0x012 => allocIf (rd == 0 && ra == 0 && rb == 0) (.fenceSl t)
  | 0x013 => allocIf (rd == 0 && ra == 0 && rb == 0) (.fenceSs t) | 0x014 => allocIf (rd == 0 && ra == 0 && rb == 0) (.fenceFull t)
  | 0x015 => allocIf (rd == 0 && ra == 0 && rb == 0) (.fenceIo t) | 0x016 => allocIf (rd == 0 && ra == 0 && rb == 0) (.fenceFetch t)
  | 0x020 => allocIf (rd == 0) (.isend t ra rb)
  | _ => none

/-- TRAP (R88): RD selects the kind. -/
def decTrap (t : Nat) (imm : BitVec 16) : Nat → Option Instr
  | 0 => some (.syscall t imm) | 1 => some (.hypcall t imm) | 2 => some (.moncall t imm) | 3 => some (.ibreak t imm)
  | _ => none

/-- CMO (R89). -/
def decCmo (t : Nat) (rd ra rb : Reg) : Nat → Option Instr
  | 0x000 => allocIf (rd == 0 && rb == 0) (.cmoC t ra) | 0x001 => allocIf (rd == 0 && rb == 0) (.cmoI t ra) | 0x002 => allocIf (rd == 0 && rb == 0) (.cmoCi t ra)
  | 0x010 => allocIf (rd == 0 && rangeOk ra rb) (.cmoRangeC t ra rb none) | 0x011 => allocIf (rd == 0 && rangeOk ra rb) (.cmoRangeI t ra rb none)
  | 0x012 => allocIf (rd == 0 && rangeOk ra rb) (.cmoRangeCi t ra rb none)
  | 0x020 => allocIf (rd == 0 && rb == 0) (.cmoSwC t ra) | 0x021 => allocIf (rd == 0 && rb == 0) (.cmoSwI t ra) | 0x022 => allocIf (rd == 0 && rb == 0) (.cmoSwCi t ra)
  | _ => none

/-- TLBI (R90). -/
def decTlbi (t : Nat) (rd ra rb : Reg) : Nat → Option Instr
  | 0x000 => allocIf (rd == 0) (.tlbiVa t ra rb) | 0x001 => allocIf (rd == 0 && ra == 0) (.tlbiAsid t rb)
  | 0x002 => allocIf (rd == 0 && ra == 0) (.tlbiVmid t rb) | 0x003 => allocIf (rd == 0 && ra == 0 && rb == 0) (.tlbiAll t)
  | _ => none

/-- FPS (R91), by FOP. -/
def decFps (t : Nat) (fmt : BitVec 2) (rd ra rb : Reg) : Nat → Option Instr
  | 0 => allocIf (fmtArithOk fmt) (.fadd t fmt rd ra rb) | 1 => allocIf (fmtArithOk fmt) (.fsub t fmt rd ra rb)
  | 2 => allocIf (fmtArithOk fmt) (.fmul t fmt rd ra rb) | 3 => allocIf (fmtArithOk fmt) (.fdiv t fmt rd ra rb)
  | 4 => allocIf (fmtArithOk fmt && rb == 0) (.fsqrt t fmt rd ra) | 5 => some (.fmadd t fmt rd ra rb) | 6 => some (.fmsub t fmt rd ra rb)
  | 7 => allocIf (fmtArithOk fmt) (.fmin t fmt rd ra rb) | 8 => allocIf (fmtArithOk fmt) (.fmax t fmt rd ra rb)
  | 9 => allocIf (fmtArithOk fmt && rb == 0) (.fabs t fmt rd ra) | 10 => allocIf (fmtArithOk fmt && rb == 0) (.fneg t fmt rd ra)
  | 11 => allocIf (fmtArithOk fmt) (.fcmpeq t fmt rd ra rb) | 12 => allocIf (fmtArithOk fmt) (.fcmplt t fmt rd ra rb)
  | 13 => allocIf (fmtArithOk fmt) (.fcmple t fmt rd ra rb) | 14 => allocIf (fmtArithOk fmt && rb == 0) (.fclass t fmt rd ra)
  | 15 => allocIf (rb.extractLsb' 2 3 == 0) (.fcvt t fmt rd ra (rb.extractLsb' 0 2))
  | 16 => allocIf (fmtArithOk fmt && rb == 0) (.fcvti t fmt rd ra) | 17 => allocIf (fmtArithOk fmt && rb == 0) (.fcvtiu t fmt rd ra)
  | 18 => allocIf (fmtArithOk fmt && rb == 0) (.fcvtf t fmt rd ra) | 19 => allocIf (fmtArithOk fmt && rb == 0) (.fcvtfu t fmt rd ra)
  | 20 => allocIf (fmt == 2 && rb == 0) (.fmve t fmt rd ra) | 21 => allocIf (fmt == 2 && rb == 0) (.fmvs t fmt rd ra)
  | _ => none

/-- Register fields of a vector operation with three vector operands (R69). -/
def vvvOk (long : Bool) (vd va vb : Reg) : Bool := vOk long vd && vOk long va && vOk long vb

/-- Register fields of a vector operation with two vector operands; RB is 0. -/
def vvOk (long : Bool) (vd va vb : Reg) : Bool := vOk long vd && vOk long va && vb == 0

/-- Register fields of a vector compare, whose VD names an M register. -/
def vcmpOk (long : Bool) (vd va vb : Reg) : Bool := mOk vd && vOk long va && vOk long vb

/-- SVOP and LVOP (R92), by VOP. -/
def decVop (t : Nat) (long : Bool) (vd va vb : Reg) (mask et : BitVec 3) : Nat → Option Instr
  | 0 => allocIf (vtypeOk .intFp et && vvvOk long vd va vb) (.vadd t long vd va vb mask et)
  | 1 => allocIf (vtypeOk .intFp et && vvvOk long vd va vb) (.vsub t long vd va vb mask et)
  | 2 => allocIf (vtypeOk .intFp et && vvvOk long vd va vb) (.vmul t long vd va vb mask et)
  | 3 => allocIf (vtypeOk .int et && vvvOk long vd va vb) (.vmulh t long vd va vb mask et)
  | 4 => allocIf (vtypeOk .intFp et && vvvOk long vd va vb) (.vmin t long vd va vb mask et)
  | 5 => allocIf (vtypeOk .intFp et && vvvOk long vd va vb) (.vmax t long vd va vb mask et)
  | 6 => allocIf (vtypeOk .int et && vvvOk long vd va vb) (.vminu t long vd va vb mask et)
  | 7 => allocIf (vtypeOk .int et && vvvOk long vd va vb) (.vmaxu t long vd va vb mask et)
  | 8 => allocIf (vtypeOk .int et && vvvOk long vd va vb) (.vand t long vd va vb mask et)
  | 9 => allocIf (vtypeOk .int et && vvvOk long vd va vb) (.vor t long vd va vb mask et)
  | 10 => allocIf (vtypeOk .int et && vvvOk long vd va vb) (.vxor t long vd va vb mask et)
  | 11 => allocIf (vtypeOk .int et && vvvOk long vd va vb) (.vsll t long vd va vb mask et)
  | 12 => allocIf (vtypeOk .int et && vvvOk long vd va vb) (.vsrl t long vd va vb mask et)
  | 13 => allocIf (vtypeOk .int et && vvvOk long vd va vb) (.vsra t long vd va vb mask et)
  | 14 => allocIf (vtypeOk .fmaTypes et && vvvOk long vd va vb) (.vfma t long vd va vb mask et)
  | 15 => allocIf (vtypeOk .fmaTypes et && vvvOk long vd va vb) (.vfms t long vd va vb mask et)
  | 16 => allocIf (vtypeOk .fp et && vvvOk long vd va vb) (.vdiv t long vd va vb mask et)
  | 17 => allocIf (vtypeOk .fp et && vvOk long vd va vb) (.vsqrt t long vd va mask et)
  | 18 => allocIf (vtypeOk .intFp et && vcmpOk long vd va vb) (.vcmpeq t long vd va vb mask et)
  | 19 => allocIf (vtypeOk .intFp et && vcmpOk long vd va vb) (.vcmplt t long vd va vb mask et)
  | 20 => allocIf (vtypeOk .intFp et && vcmpOk long vd va vb) (.vcmple t long vd va vb mask et)
  | 21 => allocIf (vtypeOk .int et && vcmpOk long vd va vb) (.vcmpltu t long vd va vb mask et)
  | 22 => allocIf (vtypeOk .intFp et && vvOk long vd va vb) (.vredsum t long vd va mask et)
  | 23 => allocIf (vtypeOk .intFp et && vvOk long vd va vb) (.vredmin t long vd va mask et)
  | 24 => allocIf (vtypeOk .intFp et && vvOk long vd va vb) (.vredmax t long vd va mask et)
  | 25 => allocIf (vtypeOk .sad et && vvvOk long vd va vb) (.vsad t long vd va vb mask et)
  | 26 => allocIf (vtypeOk .sad et && vvvOk long vd va vb) (.vsada t long vd va vb mask et)
  | 27 => allocIf (vOk long vd && vOk long va && vb.extractLsb' 3 2 == 0) (.vcvt t long vd va mask et (vb.extractLsb' 0 3))
  | 28 => allocIf (vtypeOk .intFp et && vOk long vd && vb == 0) (.vbcast t long vd va mask et)
  | 29 => allocIf (vvvOk long vd va vb) (.vsel t long vd va vb mask et)
  | 30 => allocIf (vvvOk long vd va vb) (.vperm t long vd va vb mask et)
  | 31 => allocIf (vtypeOk .intFp et && vOk long va) (.vext t long vd va vb mask et)
  | _ => none

/-- MASK (R94), by FN[7:0]; PART is 0 except in MGET and MSET. -/
def decMask (t : Nat) (rd ra rb : Reg) (part : BitVec 2) : Nat → Option Instr
  | 0 => allocIf (part == 0 && mOk rd && mOk ra && mOk rb) (.mand t rd ra rb) | 1 => allocIf (part == 0 && mOk rd && mOk ra && mOk rb) (.mor t rd ra rb)
  | 2 => allocIf (part == 0 && mOk rd && mOk ra && mOk rb) (.mxor t rd ra rb) | 3 => allocIf (part == 0 && mOk rd && mOk ra && mOk rb) (.mandn t rd ra rb)
  | 4 => allocIf (part == 0 && mOk rd && mOk ra && rb == 0) (.mnot t rd ra) | 5 => allocIf (part == 0 && mOk ra && rb == 0) (.mpop t rd ra)
  | 6 => allocIf (part == 0 && mOk ra && rb == 0) (.mfirst t rd ra) | 7 => allocIf (mOk ra && rb == 0) (.mget t rd ra part)
  | 8 => allocIf (mOk rd && rb == 0) (.mset t rd ra part)
  | _ => none

/-- The instruction a word is for thread t (R68–R96), if it is an allocated encoding. -/
def decodeEltor (t : Nat) (w : BitVec 32) : Option Instr :=
  let rd : Reg := w.extractLsb' 21 5
  let ra : Reg := w.extractLsb' 16 5
  let rb : Reg := w.extractLsb' 11 5
  let imm : BitVec 16 := w.extractLsb' 0 16
  let fn := (w.extractLsb' 0 11).toNat
  let mask : BitVec 3 := w.extractLsb' 8 3
  match (w.extractLsb' 26 6).toNat with
  | 0x01 => decInt t rd ra rb fn
  | 0x02 => decMulDiv t rd ra rb fn
  | 0x03 => some (.addi t rd ra imm) | 0x04 => some (.andi t rd ra imm) | 0x05 => some (.ori t rd ra imm) | 0x06 => some (.xori t rd ra imm)
  | 0x07 => some (.slti t rd ra imm) | 0x08 => some (.sltiu t rd ra imm)
  | 0x09 => allocIf (ra == 0) (.lui t rd imm)
  | 0x0A => allocIf (ra.extractLsb' 2 3 == 0) (.insi t rd (ra.extractLsb' 0 2) imm)
  | 0x0B => some (.addpc t rd (w.extractLsb' 0 21))
  | 0x0C => decShi t rd ra (w.extractLsb' 10 6) (w.extractLsb' 0 10).toNat
  | 0x10 => some (.lb t rd ra imm) | 0x11 => some (.lbu t rd ra imm) | 0x12 => some (.lh t rd ra imm) | 0x13 => some (.lhu t rd ra imm)
  | 0x14 => some (.lw t rd ra imm) | 0x15 => some (.lwu t rd ra imm) | 0x16 => some (.ld t rd ra imm) | 0x17 => allocIf (pairOk rd) (.lq t rd ra imm)
  | 0x18 => some (.sb t rd ra imm) | 0x19 => some (.sh t rd ra imm) | 0x1A => some (.sw t rd ra imm) | 0x1B => some (.sd t rd ra imm)
  | 0x1C => allocIf (pairOk rd) (.sq t rd ra imm)
  | 0x1D => decFls t rd ra (w.extractLsb' 0 13) (w.extractLsb' 14 2) (w.getLsbD 13)
  | 0x1E => allocIf (memxOk (w.extractLsb' 7 4) rd && w.extractLsb' 0 4 == 0) (.memx t rd ra rb (w.extractLsb' 7 4) (w.extractLsb' 5 2) (w.getLsbD 4))
  | 0x1F => if w.getLsbD 0 then none else decAtom t rd ra rb (w.extractLsb' 5 2) (w.extractLsb' 3 2) (w.extractLsb' 1 2) (w.extractLsb' 7 4).toNat
  | 0x20 => some (.beq t rd ra imm) | 0x21 => some (.bne t rd ra imm) | 0x22 => some (.blt t rd ra imm) | 0x23 => some (.bge t rd ra imm)
  | 0x24 => some (.bltu t rd ra imm) | 0x25 => some (.bgeu t rd ra imm)
  | 0x26 => allocIf (ra == 0 && loopOk rd imm) (.loop t rd imm)
  | 0x27 => some (.jmp t (w.extractLsb' 0 26)) | 0x28 => some (.jal t (w.extractLsb' 0 26)) | 0x29 => some (.jalr t rd ra imm)
  | 0x30 => allocIf (w.extractLsb' 12 9 == 0) (.mfs t rd (w.extractLsb' 0 12))
  | 0x31 => allocIf (w.extractLsb' 12 9 == 0) (.mts t (w.extractLsb' 0 12) rd)
  | 0x32 => decSys t rd ra rb fn
  | 0x33 => if ra = 0 then decTrap t imm rd.toNat else none
  | 0x34 => decCmo t rd ra rb fn
  | 0x35 => decTlbi t rd ra rb fn
  | 0x38 => if w.extractLsb' 0 4 = 0 then decFps t (w.extractLsb' 4 2) rd ra rb (w.extractLsb' 6 5).toNat else none
  | 0x39 => if w.getLsbD 10 then none else decMask t rd ra rb (w.extractLsb' 8 2) (w.extractLsb' 0 8).toNat
  | 0x3A => decVop t false rd ra rb mask (w.extractLsb' 5 3) (w.extractLsb' 0 5).toNat
  | 0x3B => decVop t true rd ra rb mask (w.extractLsb' 5 3) (w.extractLsb' 0 5).toNat
  | 0x3C =>
    if w.extractLsb' 0 4 = 0 && vOk (w.getLsbD 4) rd then
      some (if w.getLsbD 5 then .vlsStore t (w.getLsbD 4) rd ra rb mask (w.extractLsb' 6 2) none else .vlsLoad t (w.getLsbD 4) rd ra rb mask (w.extractLsb' 6 2) none)
    else none
  | 0x3D => decVg t false rd ra rb mask w
  | 0x3E => decVg t true rd ra rb mask w
  | _ => none
where
  /-- SVGS and LVGS (R96). -/
  decVg (t : Nat) (long : Bool) (vd ra vidx : Reg) (mask : BitVec 3) (w : BitVec 32) : Option Instr :=
    if w.getLsbD 0 then
      allocIf (vOk long vd && vOk long vidx) (.vscatter t long vd ra vidx mask (w.extractLsb' 6 2) (w.extractLsb' 4 2) (w.extractLsb' 2 2) (w.getLsbD 1) none)
    else allocIf (gatherOk long vd vidx (w.extractLsb' 4 2)) (.vgather t long vd ra vidx mask (w.extractLsb' 6 2) (w.extractLsb' 4 2) (w.extractLsb' 2 2) (w.getLsbD 1) none)

/-- The word of an instruction (R68–R96); a command that is no instruction has none. The part-way operand of an interruptible instruction is no part of its word. -/
def encodeEltor : Instr → Option (BitVec 32)
  | .add _ rd ra rb => some (encR 1 rd ra rb 0)
  | .sub _ rd ra rb => some (encR 1 rd ra rb 1)
  | .iand _ rd ra rb => some (encR 1 rd ra rb 2)
  | .ior _ rd ra rb => some (encR 1 rd ra rb 3)
  | .ixor _ rd ra rb => some (encR 1 rd ra rb 4)
  | .andn _ rd ra rb => some (encR 1 rd ra rb 5)
  | .sll _ rd ra rb => some (encR 1 rd ra rb 6)
  | .srl _ rd ra rb => some (encR 1 rd ra rb 7)
  | .sra _ rd ra rb => some (encR 1 rd ra rb 8)
  | .ror _ rd ra rb => some (encR 1 rd ra rb 9)
  | .addw _ rd ra rb => some (encR 1 rd ra rb 10)
  | .subw _ rd ra rb => some (encR 1 rd ra rb 11)
  | .seq _ rd ra rb => some (encR 1 rd ra rb 0x10)
  | .sne _ rd ra rb => some (encR 1 rd ra rb 0x11)
  | .slt _ rd ra rb => some (encR 1 rd ra rb 0x12)
  | .sltu _ rd ra rb => some (encR 1 rd ra rb 0x13)
  | .sge _ rd ra rb => some (encR 1 rd ra rb 0x14)
  | .sgeu _ rd ra rb => some (encR 1 rd ra rb 0x15)
  | .imin _ rd ra rb => some (encR 1 rd ra rb 0x18)
  | .imax _ rd ra rb => some (encR 1 rd ra rb 0x19)
  | .minu _ rd ra rb => some (encR 1 rd ra rb 0x1a)
  | .maxu _ rd ra rb => some (encR 1 rd ra rb 0x1b)
  | .addc _ rd ra rb => some (encR 1 rd ra rb 0x20)
  | .subb _ rd ra rb => some (encR 1 rd ra rb 0x21)
  | .selnz _ rd ra rb => some (encR 1 rd ra rb 0x28)
  | .clz _ rd ra => some (encR 1 rd ra 0 0x30)
  | .ctz _ rd ra => some (encR 1 rd ra 0 0x31)
  | .pop _ rd ra => some (encR 1 rd ra 0 0x32)
  | .bswap _ rd ra => some (encR 1 rd ra 0 0x33)
  | .sextB _ rd ra => some (encR 1 rd ra 0 0x34)
  | .sextH _ rd ra => some (encR 1 rd ra 0 0x35)
  | .sextW _ rd ra => some (encR 1 rd ra 0 0x36)
  | .zextW _ rd ra => some (encR 1 rd ra 0 0x37)
  | .mul _ rd ra rb => some (encR 2 rd ra rb 0)
  | .mulh _ rd ra rb => some (encR 2 rd ra rb 1)
  | .mulhu _ rd ra rb => some (encR 2 rd ra rb 2)
  | .mulhsu _ rd ra rb => some (encR 2 rd ra rb 3)
  | .mulwu _ rd ra rb => some (encR 2 rd ra rb 4)
  | .mulws _ rd ra rb => some (encR 2 rd ra rb 5)
  | .div _ rd ra rb => some (encR 2 rd ra rb 8)
  | .divu _ rd ra rb => some (encR 2 rd ra rb 9)
  | .rem _ rd ra rb => some (encR 2 rd ra rb 10)
  | .remu _ rd ra rb => some (encR 2 rd ra rb 11)
  | .divw _ rd ra rb => some (encR 2 rd ra rb 12)
  | .divwu _ rd ra rb => some (encR 2 rd ra rb 13)
  | .addi _ rd ra imm => some (encI 3 rd ra imm)
  | .andi _ rd ra imm => some (encI 4 rd ra imm)
  | .ori _ rd ra imm => some (encI 5 rd ra imm)
  | .xori _ rd ra imm => some (encI 6 rd ra imm)
  | .slti _ rd ra imm => some (encI 7 rd ra imm)
  | .sltiu _ rd ra imm => some (encI 8 rd ra imm)
  | .lui _ rd imm => some (encI 0x09 rd 0 imm)
  | .insi _ rd h imm => some (encI 0x0A rd (h.setWidth 5) imm)
  | .addpc _ rd imm => some (encU 0x0B rd imm)
  | .slli _ rd ra sh => some (encSH 0x0C rd ra sh 0)
  | .srli _ rd ra sh => some (encSH 0x0C rd ra sh 1)
  | .srai _ rd ra sh => some (encSH 0x0C rd ra sh 2)
  | .rori _ rd ra sh => some (encSH 0x0C rd ra sh 3)
  | .lb _ rd ra imm => some (encI 0x10 rd ra imm)
  | .lbu _ rd ra imm => some (encI 0x11 rd ra imm)
  | .lh _ rd ra imm => some (encI 0x12 rd ra imm)
  | .lhu _ rd ra imm => some (encI 0x13 rd ra imm)
  | .lw _ rd ra imm => some (encI 0x14 rd ra imm)
  | .lwu _ rd ra imm => some (encI 0x15 rd ra imm)
  | .ld _ rd ra imm => some (encI 0x16 rd ra imm)
  | .lq _ rd ra imm => some (encI 0x17 rd ra imm)
  | .sb _ rd ra imm => some (encI 0x18 rd ra imm)
  | .sh _ rd ra imm => some (encI 0x19 rd ra imm)
  | .sw _ rd ra imm => some (encI 0x1a rd ra imm)
  | .sd _ rd ra imm => some (encI 0x1b rd ra imm)
  | .sq _ rd ra imm => some (encI 0x1c rd ra imm)
  | .memx _ rd ra rb kind scale ord => some (encR 0x1E rd ra rb (kind.toNat * 128 + scale.toNat * 32 + ord.toNat * 16))
  | .flh _ sd ra off => some (encFL 0x1D sd ra 0 false off)
  | .flw _ sd ra off => some (encFL 0x1D sd ra 1 false off)
  | .fld _ sd ra off => some (encFL 0x1D sd ra 2 false off)
  | .svl _ sd ra off => some (encFL 0x1D sd ra 3 false off)
  | .fsh _ sd ra off => some (encFL 0x1D sd ra 0 true off)
  | .fsw _ sd ra off => some (encFL 0x1D sd ra 1 true off)
  | .fsd _ sd ra off => some (encFL 0x1D sd ra 2 true off)
  | .svs _ sd ra off => some (encFL 0x1D sd ra 3 true off)
  | .atomAdd _ rd ra rb ord hint size => some (encA rd ra rb 0 ord hint size)
  | .atomAnd _ rd ra rb ord hint size => some (encA rd ra rb 1 ord hint size)
  | .atomOr _ rd ra rb ord hint size => some (encA rd ra rb 2 ord hint size)
  | .atomXor _ rd ra rb ord hint size => some (encA rd ra rb 3 ord hint size)
  | .atomSmin _ rd ra rb ord hint size => some (encA rd ra rb 4 ord hint size)
  | .atomSmax _ rd ra rb ord hint size => some (encA rd ra rb 5 ord hint size)
  | .atomUmin _ rd ra rb ord hint size => some (encA rd ra rb 6 ord hint size)
  | .atomUmax _ rd ra rb ord hint size => some (encA rd ra rb 7 ord hint size)
  | .atomSwap _ rd ra rb ord hint size => some (encA rd ra rb 8 ord hint size)
  | .atomCas _ rd ra rb ord hint size => some (encA rd ra rb 9 ord hint size)
  | .atomFadd _ rd ra rb ord hint size => some (encA rd ra rb 10 ord hint size)
  | .beq _ ra rb off => some (encB 0x20 ra rb off)
  | .bne _ ra rb off => some (encB 0x21 ra rb off)
  | .blt _ ra rb off => some (encB 0x22 ra rb off)
  | .bge _ ra rb off => some (encB 0x23 ra rb off)
  | .bltu _ ra rb off => some (encB 0x24 ra rb off)
  | .bgeu _ ra rb off => some (encB 0x25 ra rb off)
  | .loop _ ra off => some (encB 0x26 ra 0 off)
  | .jmp _ off => some (encJ 0x27 off)
  | .jal _ off => some (encJ 0x28 off)
  | .jalr _ rd ra imm => some (encI 0x29 rd ra imm)
  | .mfs _ rd num => some (encS 0x30 rd num)
  | .mts _ num rs => some (encS 0x31 rs num)
  | .syncs _ => some (encR 0x32 0 0 0 0x0)
  | .xret _ => some (encR 0x32 0 0 0 0x1)
  | .wait _ => some (encR 0x32 0 0 0 0x2)
  | .fenceLl _ => some (encR 0x32 0 0 0 0x10)
  | .fenceLs _ => some (encR 0x32 0 0 0 0x11)
  | .fenceSl _ => some (encR 0x32 0 0 0 0x12)
  | .fenceSs _ => some (encR 0x32 0 0 0 0x13)
  | .fenceFull _ => some (encR 0x32 0 0 0 0x14)
  | .fenceIo _ => some (encR 0x32 0 0 0 0x15)
  | .fenceFetch _ => some (encR 0x32 0 0 0 0x16)
  | .isend _ ra rb => some (encR 0x32 0 ra rb 0x20)
  | .syscall _ imm => some (encI 0x33 0 0 imm)
  | .hypcall _ imm => some (encI 0x33 1 0 imm)
  | .moncall _ imm => some (encI 0x33 2 0 imm)
  | .ibreak _ imm => some (encI 0x33 3 0 imm)
  | .cmoC _ ra => some (encR 0x34 0 ra 0 0)
  | .cmoI _ ra => some (encR 0x34 0 ra 0 1)
  | .cmoCi _ ra => some (encR 0x34 0 ra 0 2)
  | .cmoRangeC _ ra rb _ => some (encR 0x34 0 ra rb 0x10)
  | .cmoRangeI _ ra rb _ => some (encR 0x34 0 ra rb 0x11)
  | .cmoRangeCi _ ra rb _ => some (encR 0x34 0 ra rb 0x12)
  | .cmoSwC _ ra => some (encR 0x34 0 ra 0 0x20)
  | .cmoSwI _ ra => some (encR 0x34 0 ra 0 0x21)
  | .cmoSwCi _ ra => some (encR 0x34 0 ra 0 0x22)
  | .tlbiVa _ ra rb => some (encR 0x35 0 ra rb 0)
  | .tlbiAsid _ rb => some (encR 0x35 0 0 rb 1)
  | .tlbiVmid _ rb => some (encR 0x35 0 0 rb 2)
  | .tlbiAll _ => some (encR 0x35 0 0 0 3)
  | .fadd _ fmt rd ra rb => some (encFPS 0 fmt rd ra rb)
  | .fsub _ fmt rd ra rb => some (encFPS 1 fmt rd ra rb)
  | .fmul _ fmt rd ra rb => some (encFPS 2 fmt rd ra rb)
  | .fdiv _ fmt rd ra rb => some (encFPS 3 fmt rd ra rb)
  | .fmadd _ fmt rd ra rb => some (encFPS 5 fmt rd ra rb)
  | .fmsub _ fmt rd ra rb => some (encFPS 6 fmt rd ra rb)
  | .fmin _ fmt rd ra rb => some (encFPS 7 fmt rd ra rb)
  | .fmax _ fmt rd ra rb => some (encFPS 8 fmt rd ra rb)
  | .fcmpeq _ fmt rd ra rb => some (encFPS 11 fmt rd ra rb)
  | .fcmplt _ fmt rd ra rb => some (encFPS 12 fmt rd ra rb)
  | .fcmple _ fmt rd ra rb => some (encFPS 13 fmt rd ra rb)
  | .fsqrt _ fmt rd ra => some (encFPS 4 fmt rd ra 0)
  | .fabs _ fmt rd ra => some (encFPS 9 fmt rd ra 0)
  | .fneg _ fmt rd ra => some (encFPS 10 fmt rd ra 0)
  | .fclass _ fmt rd ra => some (encFPS 14 fmt rd ra 0)
  | .fcvti _ fmt rd ra => some (encFPS 16 fmt rd ra 0)
  | .fcvtiu _ fmt rd ra => some (encFPS 17 fmt rd ra 0)
  | .fcvtf _ fmt rd ra => some (encFPS 18 fmt rd ra 0)
  | .fcvtfu _ fmt rd ra => some (encFPS 19 fmt rd ra 0)
  | .fmve _ fmt rd ra => some (encFPS 20 fmt rd ra 0)
  | .fmvs _ fmt rd ra => some (encFPS 21 fmt rd ra 0)
  | .fcvt _ fmt rd ra dst => some (encFPS 15 fmt rd ra (dst.setWidth 5))
  | .vadd _ long vd va vb mask et => some (encV long vd va vb mask et 0)
  | .vsub _ long vd va vb mask et => some (encV long vd va vb mask et 1)
  | .vmul _ long vd va vb mask et => some (encV long vd va vb mask et 2)
  | .vmulh _ long vd va vb mask et => some (encV long vd va vb mask et 3)
  | .vmin _ long vd va vb mask et => some (encV long vd va vb mask et 4)
  | .vmax _ long vd va vb mask et => some (encV long vd va vb mask et 5)
  | .vminu _ long vd va vb mask et => some (encV long vd va vb mask et 6)
  | .vmaxu _ long vd va vb mask et => some (encV long vd va vb mask et 7)
  | .vand _ long vd va vb mask et => some (encV long vd va vb mask et 8)
  | .vor _ long vd va vb mask et => some (encV long vd va vb mask et 9)
  | .vxor _ long vd va vb mask et => some (encV long vd va vb mask et 10)
  | .vsll _ long vd va vb mask et => some (encV long vd va vb mask et 11)
  | .vsrl _ long vd va vb mask et => some (encV long vd va vb mask et 12)
  | .vsra _ long vd va vb mask et => some (encV long vd va vb mask et 13)
  | .vfma _ long vd va vb mask et => some (encV long vd va vb mask et 14)
  | .vfms _ long vd va vb mask et => some (encV long vd va vb mask et 15)
  | .vdiv _ long vd va vb mask et => some (encV long vd va vb mask et 16)
  | .vsqrt _ long vd va mask et => some (encV long vd va 0 mask et 17)
  | .vcmpeq _ long vd va vb mask et => some (encV long vd va vb mask et 18)
  | .vcmplt _ long vd va vb mask et => some (encV long vd va vb mask et 19)
  | .vcmple _ long vd va vb mask et => some (encV long vd va vb mask et 20)
  | .vcmpltu _ long vd va vb mask et => some (encV long vd va vb mask et 21)
  | .vredsum _ long vd va mask et => some (encV long vd va 0 mask et 22)
  | .vredmin _ long vd va mask et => some (encV long vd va 0 mask et 23)
  | .vredmax _ long vd va mask et => some (encV long vd va 0 mask et 24)
  | .vsad _ long vd va vb mask et => some (encV long vd va vb mask et 25)
  | .vsada _ long vd va vb mask et => some (encV long vd va vb mask et 26)
  | .vcvt _ long vd va mask et dst => some (encV long vd va (dst.setWidth 5) mask et 27)
  | .vbcast _ long vd va mask et => some (encV long vd va 0 mask et 28)
  | .vsel _ long vd va vb mask et => some (encV long vd va vb mask et 29)
  | .vperm _ long vd va vb mask et => some (encV long vd va vb mask et 30)
  | .vext _ long vd va vb mask et => some (encV long vd va vb mask et 31)
  | .mand _ md ma mb => some (encR 0x39 md ma mb 0)
  | .mor _ md ma mb => some (encR 0x39 md ma mb 1)
  | .mxor _ md ma mb => some (encR 0x39 md ma mb 2)
  | .mandn _ md ma mb => some (encR 0x39 md ma mb 3)
  | .mnot _ md ma => some (encR 0x39 md ma 0 4)
  | .mpop _ rd ma => some (encR 0x39 rd ma 0 5)
  | .mfirst _ rd ma => some (encR 0x39 rd ma 0 6)
  | .mget _ rd ma part => some (encR 0x39 rd ma 0 (7 + 256 * part.toNat))
  | .mset _ md ra part => some (encR 0x39 md ra 0 (8 + 256 * part.toNat))
  | .vlsLoad _ long vd ra rb mask esize _ => some (encVM vd ra rb mask esize false long)
  | .vlsStore _ long vd ra rb mask esize _ => some (encVM vd ra rb mask esize true long)
  | .vgather _ long vd ra vidx mask scale hint esize idx64 _ => some (encVG long vd ra vidx mask scale hint esize idx64 false)
  | .vscatter _ long vd ra vidx mask scale hint esize idx64 _ => some (encVG long vd ra vidx mask scale hint esize idx64 true)
  | .registerWrite .. => none
  | .towpathClockSourceFail .. => none
  | .waitWake .. => none
  | .irqPhys .. => none
  | .irqVirt .. => none
  | .loopCountWait .. => none
  | .stagingRead .. => none
  | .storeBufferDrain .. => none
  | .lineFill .. => none
  | .wayDisableComplete .. => none
  | .rdshared .. => none
  | .rdcode .. => none
  | .rdown .. => none
  | .upgrade .. => none
  | .rdcur .. => none
  | .gatherreq .. => none
  | .wrline .. => none
  | .wrpart .. => none
  | .atomfar .. => none
  | .wbreq .. => none
  | .evictclean .. => none
  | .cmoreq .. => none
  | .snpshared .. => none
  | .snpown .. => none
  | .snpinv .. => none
  | .snpcur .. => none
  | .snprecall .. => none
  | .wbpull .. => none
  | .snpresp .. => none
  | .cmp .. => none
  | .compack .. => none
  | .wbcancel .. => none
  | .atomresp .. => none
  | .cmodone .. => none
  | .data .. => none
  | .fwddata .. => none
  | .snpdata .. => none
  | .wbdata .. => none
  | .gatherdata .. => none
  | .holdWindowEnd .. => none
  | .flitCrcError .. => none
  | .linkRetrainEnd .. => none
  | .meshLinkFailed .. => none
  | .aqueductIdleTimeout .. => none
  | .memoryRequest .. => none
  | .dramAccessComplete .. => none
  | .refreshDue .. => none
  | .selfRefreshEntry .. => none
  | .selfRefreshExit .. => none
  | .periodicRetrain .. => none
  | .substWalkEnd .. => none
  | .channelFailure .. => none
  | .ddrFailover .. => none
  | .patrolScrub .. => none
  | .hbmRowRepair .. => none
  | .deviceRequest .. => none
  | .msiWrite .. => none
  | .atsTranslationRequest .. => none
  | .atsInvTimeout .. => none
  | .iotInvStream .. => none
  | .iotInvAll .. => none
  | .internalInterrupt .. => none
  | .doorbell .. => none
  | .take .. => none
  | .takeReply .. => none
  | .recordLoad .. => none
  | .recordUnload .. => none
  | .irtTcmdInvalidateSource .. => none
  | .irtTcmdInvalidateAll .. => none
  | .irtTcmdPin .. => none
  | .irtTcmdUnpin .. => none
  | .irtAckN .. => none
  | .irtAckS .. => none
  | .irqDeadline .. => none
  | .bandwidthWindow => none
  | .tenantReset .. => none
  | .tenantResetDone .. => none
  | .resetTimeout .. => none
  | .tenantRelease .. => none
  | .qosTrstReset .. => none
  | .qosTrstRelease .. => none
  | .mtCodeFrame .. => none
  | .mtEpoch => none
  | .referenceLost => none
  | .ptpWaitExpiry => none
  | .ptpSync .. => none
  | .slewEnd => none
  | .passagePresent .. => none
  | .raise .. => none
  | .release .. => none
  | .snapshot .. => none
  | .pulse .. => none
  | .pulseEnd .. => none
  | .vote .. => none
  | .snapshotComplete => none
  | .berthQuotaSet .. => none
  | .berthAlloc .. => none
  | .berthFree .. => none
  | .berthArm .. => none
  | .berthDisarm .. => none
  | .berthQuery .. => none
  | .timeStatus .. => none
  | .timePtp .. => none
  | .syncGate .. => none
  | .lkpBerthCfgWrite .. => none
  | .lkpSecResWrite .. => none
  | .lkpSyncCtlArm .. => none
  | .lkpSyncCtlDisarm .. => none
  | .syncInRise => none
  | .syncInFall => none
  | .syncTimeout => none
  | .brgChTail .. => none
  | .manifestTake .. => none
  | .manifestStart .. => none
  | .manifestEnd .. => none
  | .statusWriteAccepted .. => none
  | .dmaDeadline .. => none
  | .brgChEnable .. => none
  | .brgChDisable .. => none
  | .brgChRestart .. => none
  | .brgChAbort .. => none
  | .channelStopComplete .. => none
  | .disableTimeout .. => none
  | .shadowArm .. => none
  | .handOver .. => none
  | .engineDepRelease .. => none
  | .inboundWrite .. => none
  | .inboundRead .. => none
  | .inboundAtomicop .. => none
  | .completion .. => none
  | .completionTimeout .. => none
  | .quarantineEnd .. => none
  | .linkDown .. => none
  | .linkUp .. => none
  | .portHotReset .. => none
  | .rptHdmWrite .. => none
  | .peerWindowAccess .. => none
  | .whfPwCommit .. => none
  | .flr .. => none
  | .busMasterClear .. => none
  | .vfDisable .. => none
  | .whfVfCtlReset .. => none
  | .funcReset .. => none
  | .funcDisableTimeout .. => none
  | .whfIrqGo .. => none
  | .hostPerst .. => none
  | .tolSmrWrite .. => none
  | .mapLock .. => none
  | .random .. => none
  | .sha384 .. => none
  | .ecdsaVerify .. => none
  | .mldsaVerify .. => none
  | .seal .. => none
  | .unseal .. => none
  | .mailboxComplete => none
  | .debugChallenge .. => none
  | .debugUnlock .. => none
  | .debugStatus .. => none
  | .debugLock .. => none
  | .debugTokenPart .. => none
  | .debugGrantNormal .. => none
  | .debugEnableExpiry => none
  | .extest .. => none
  | .samplePreload .. => none
  | .idcode .. => none
  | .bypass .. => none
  | .bootstat => none
  | .debugAddr .. => none
  | .debugRead .. => none
  | .debugWrite .. => none
  | .debugHaltControl .. => none
  | .watchdogStart .. => none
  | .tolWdogKick .. => none
  | .wdogWarning => none
  | .wdogExpiry => none
  | .pvcHypVote .. => none
  | .pvcSecVote .. => none
  | .pvcClk .. => none
  | .domainDrained .. => none
  | .powerGood .. => none
  | .wakeTimeout .. => none
  | .pllLock .. => none
  | .pllLockFailed .. => none
  | .clockRefLost => none
  | .clockRefRestored => none
  | .switchToken => none
  | .wearCopy => none
  | .powerStatus .. => none
  | .hostDirectEnter .. => none
  | .hostDirectExit .. => none
  | .domainSet .. => none
  | .powerCapSet .. => none
  | .powerCapStatus .. => none
  | .frequencyRecompute => none
  | .powerCapLoop .. => none
  | .galTail .. => none
  | .galleyTake .. => none
  | .galStatErrClear .. => none
  | .nop .. => none
  | .netConfig .. => none
  | .coreStatus .. => none
  | .coreReset .. => none
  | .coreRetire .. => none
  | .chipReset .. => none
  | .memStatus .. => none
  | .memRetrain .. => none
  | .errInject .. => none
  | .telemetryRead .. => none
  | .logbookInfo .. => none
  | .logbookRead .. => none
  | .fwStageBegin .. => none
  | .fwStageData .. => none
  | .fwStageCommit .. => none
  | .fwVerifyDone .. => none
  | .fwStatus .. => none
  | .snapshotNow .. => none
  | .counterRead .. => none
  | .galleyDatagram .. => none
  | .arpRequest .. => none
  | .icmpEcho .. => none
  | .mgmtLinkUp => none
  | .lengthsmanFault .. => none
  | .lenRestart => none
  | .towpathBreak .. => none
  | .evqCons .. => none
  | .evqCtlWrite .. => none
  | .rasReport .. => none
  | .coreArrayUe .. => none
  | .coreSpared .. => none
  | .sparingFlushEnd .. => none
  | .sampleRecord .. => none
  | .bandwidthWindowEnd .. => none
  | .uncBwCtlWrite .. => none
  | .resetNRelease .. => none
  | .resetNAssert => none
  | .tollhouseFwVerified => none
  | .lengthsmanStart => none
  | .referencePresent => none
  | .railsInTolerance => none
  | .railEnableTimeout .. => none
  | .fabricReady => none
  | .memoryTrained .. => none
  | .clearComplete => none
  | .bootDone => none
  | .warmChipReset => none
  | .coldResetCommand => none
  | .railFault .. => none
  | .thermalControlTick .. => none
  | .thermalTrip .. => none
  | .mtRefclkReturn => none
  | .epochMissing => none
  | .longVectorIdleTimeout .. => none
  | .atsInvCompletion .. => none
  | .vfEnable .. => none
  | .busMasterEnable .. => none
  | .pf0Enable => none

end Sys2Proof.Machine
end

