-- ==== Sys2Proof/Machine/Request.lean ====
section
/-! DEFINITION. How a thread's accesses meet the memory system: a hit or a whole transaction at once, or a request that waits at its home (spec/07_caches.md R173, R174, R189; spec/08_mesh_coherence.md R216–R225, R228). -/
namespace Sys2Proof.Machine

/-- The home slice of a line, as a message's end. -/
def State.homeOf (s : State) (line : Nat) : Nat := (s.homeLoc line).elim 0 (·.slice)

/-- An empty request of a kind. -/
def mkReq (k : ReqKind) (req line : Nat) (sec : Bool) (cls thread : Nat) : HomeReq := ⟨k, req, line, sec, cls, 0, 0, ⟨0, 0, 0, 0, 0⟩, thread, [], false, 0⟩

/-- A request reaches its home, which serves or queues it. It is not sent while a message cannot cross or memory cannot serve. -/
def State.sendReq (s : State) (rq : HomeReq) (flits : Nat) (q : Rqr) (a : AccCls) : State :=
  let c := (s.coh.hop rq.req (s.homeOf rq.line) flits).homeArrive s.env rq
  (s.tryCoh c q a).getD (s.askCoh c)

/-- L2 entries in use at a stop (07 R174): misses, and lines in the victim buffer. -/
def State.missCount (s : State) (stop : Nat) : Nat :=
  (s.coh.misses.filter (fun x => x.1 / 2 ^ 46 == stop)).length + (s.coh.priv.filter (fun x => x.1 / 2 ^ 46 == stop && x.2.any (·.victim))).length
/-- L1D entries in use at a stop: misses of its loads and stores. -/
def State.l1dMisses (s : State) (stop : Nat) : Nat :=
  (s.coh.misses.filter (fun x => x.1 / 2 ^ 46 == stop && x.2.any (fun m => m.kind != .rdCode && !m.pf))).length
/-- Has a stop an entry for one more miss (07 R174)? A hardware prefetch is dropped when fewer than 8 entries are free. -/
def State.missRoom (s : State) (stop : Nat) (k : ReqKind) (pf : Bool) : Bool :=
  if pf then decide (s.missCount stop + 8 ≤ 64) else decide (s.missCount stop < 64) && (k == .rdCode || decide (s.l1dMisses stop < 24))

/-- Does a request of a kind fit what the stop holds of the line: nothing, or for an Upgrade a shared copy? A line that a snoop took from the victim buffer waits for its WbCancel (08 R234). -/
def State.reqFits (s : State) (stop line : Nat) (k : ReqKind) : Bool :=
  !s.coh.gone.contains (privKey stop line) &&
    (match s.coh.pl stop line with
     | some p => k == .upgrade && (p.st == .s || p.st == .o) && !p.victim
     | none => k != .upgrade)

/-- A core's read or ownership request (08 R206): its private cache opens a miss. A Normal request for a Secure line is refused at the home slice (15 R457). -/
def State.coreReq (s : State) (t line : Nat) (sec : Bool) (k : ReqKind) (a : AccCls) (pf : Bool) : State :=
  let stop := s.stopOf t
  if !s.coreUp (t / 4) || !s.isMem (64 * line) || !s.reqFits stop line k || (s.coh.miss stop line).isSome || !s.missRoom stop k pf then s
  else if !sec && s.lineSec line then s.coreViol t (if k = .rdCode then 3 else if k.own then 2 else 1) (64 * line)
  else
    let pc := (s.thr t).pc
    let x : Miss := ⟨k, s.clsOf t, false, none, false, false, t, pc, [], pf⟩
    let rq : HomeReq := { mkReq k stop line sec (s.clsOf t) t with pc := pc }
    let c := ((s.coh.setMiss stop line (some x)).hop stop (s.homeOf line) 1).homeArrive s.env rq
    (s.tryCoh c (s.rqrOf t) a).getD (s.askCoh c)

/-- An access that cannot be performed now waits: it joins the outstanding miss of its line (07 R174), or sends its request to the home, whose input or retry queue keeps it (08 R216, R217, R228). -/
def State.waitLine (s : State) (t line : Nat) (k : ReqKind) (a : AccCls) : State :=
  let stop := s.stopOf t
  let pc := (s.thr t).pc
  match s.coh.miss stop line with
  | some x =>
    if k.own || (x.thread = t && x.pc = pc && !x.pf) then s
    else { s with coh := s.coh.setMiss stop line (some { x with joined := x.joined.filter (fun j => j.1 != t) ++ [(t, pc)] }) }
  | none => s.coreReq t line true (if k.own && (s.coh.pl stop line).isSome then .upgrade else k) a false

/-- What a read of a line answers: the state after it and the copy read, or that it has to wait. -/
inductive LineR where
  | got (s : State) (p : PLine)
  | wait (s : State)

/-- Has an access that misses its L1 to wait for an entry (07 R174)? One whose line is outstanding joins that entry. -/
def State.noEntry (s : State) (stop line : Nat) (hit : Bool) (k : ReqKind) : Bool := !hit && (s.coh.miss stop line).isNone && !s.missRoom stop k false

/-- Read a line into L1D, or L1I for a fetch (08 R222): the bytes of a stale fill that the access waited for (07 R189), which a gather's elements in the line share (06 R158), or the core's copy, obtained at once where that is possible. -/
def State.readLine (s : State) (t line : Nat) (code : Bool) : LineR :=
  let stop := s.stopOf t
  let a : AccCls := if code then .ifetch else .read
  match s.coh.givenTo stop line t (s.thr t).pc with
  | some g => .got (if code then { s with coh := s.coh.dropGiven g } else s) (freshLine s.env .s g.data g.poison false 0)
  | none =>
    if s.noEntry stop line ((s.coh.pl stop line).any (fun p => if code then p.l1i.isSome else p.l1d.isSome)) (if code then .rdCode else .rdShared) then .wait s
    else match s.coh.acquireRead s.env stop line code (s.clsOf t) with
    | none => .wait (s.waitLine t line (if code then .rdCode else .rdShared) a)
    | some c =>
      match c.pl stop line, s.tryCoh (c.performBy s.env stop line t) (s.rqrOf t) a with
      | some p, some s1 => .got s1 p
      | _, _ => .wait (s.askCoh (c.performBy s.env stop line t))

/-- What taking a line in E or M answers: the state after it, the copy as it was before `f`, and how it was had; or that it has to wait. -/
inductive OwnR where
  | got (s : State) (p : PLine) (how : OwnHow)
  | wait (s : State)

/-- Take a line in E or M and operate on it with `f`, which sees the copy (08 R222, R230): the access that the line was requested for is then performed (R224). An access whose own request brought the line is no hit (R231). -/
def State.ownLine (s : State) (t line cls : Nat) (a : AccCls) (f : PLine → Coh → Coh) : OwnR :=
  let stop := s.stopOf t
  if s.noEntry stop line ((s.coh.pl stop line).any (fun p => p.l1d.isSome && (p.st == .m || p.st == .e))) .rdOwn then .wait s
  else match s.coh.acquireOwn s.env stop line cls with
  | none => .wait (s.waitLine t line .rdOwn a)
  | some (c, how0) =>
    let how : OwnHow := match (s.coh.pl stop line).filter (fun p => p.fresh.any (fun f => f.1 == t)) with
      | some p => if how0 = .hit then (if p.fwd then .forwarded else .other) else how0
      | none => how0
    match c.pl stop line with
    | none => .wait s
    | some p =>
      let c1 := (f p c).performBy s.env stop line t
      match s.tryCoh c1 (s.rqrOf t) a with
      | some s1 => .got s1 p how
      | none => .wait (s.askCoh c1)

/-- An uncached read of a line for a thread (08 R222 RdCur): its value and poison mark, or that it has to wait: for an open transaction or an older request of the line (R216, R237), a message or the memory. -/
def State.curLine (s : State) (t line : Nat) : LineR :=
  if s.coh.queued line then .wait s
  else if s.curUp (s.stopOf t) line (s.clsOf t) then
    let x := s.coh.current s.env line
    .got (s.countCur (s.stopOf t) line (s.clsOf t) (s.rqrOf t)) (freshLine s.env .s x.1 x.2 false 0)
  else .wait (s.askCur (s.stopOf t) line (s.clsOf t))

/-- Bytes of a stale fill that a thread waited for are not used by another access (07 R189). -/
def State.dropGiven (s : State) (t : Nat) : State :=
  if s.coh.given.any (fun g => g.thread == t && g.pc != (s.thr t).pc) then { s with coh := { s.coh with given := s.coh.given.filter (fun g => g.thread != t || g.pc == (s.thr t).pc) } } else s

end Sys2Proof.Machine
end

