-- ==== Sys2Proof/Machine/Run.lean ====
section
/-! DEFINITION. One instruction of a thread: fetch, allocation and privilege checks, breakpoints, the effect, retirement and stepping (spec/02_programmers_model.md R60, R61; spec/04_core_pipeline.md R107, R108, R119; spec/15_security.md R469–R476). -/
namespace Sys2Proof.Machine

/-- A debug enable in force (15 R469, R487): SI 0, SN 1, NI 2, NN 3. An invasive enable grants the non-invasive one of its world. -/
def State.dbgEnabled (s : State) (n : Nat) : Bool :=
  let e := s.rf a_TOL_DBG_STAT f_TOL_DBG_STAT_ENABLED
  e.testBit n || (n == 1 && e.testBit 0) || (n == 3 && e.testBit 2)
/-- The invasive enable of a thread's world. -/
def State.invasive (s : State) (t : Nat) : Bool := s.dbgEnabled (if (s.thr t).secure then 0 else 2)

/-- The breakpoint comparator that matches an address, if one is in use (15 R475, R476). -/
def State.breakAt (s : State) (t : Nat) (pc : Word) : Option Nat :=
  if bit (s.view t 0x460) 0 && s.invasive t then
    [0, 1, 2, 3].find? (fun k =>
      let c := s.reg (a_STP_DBG_CMP (s.stopOf t) (t % 4) k)
      bit c 0 && fld c 3 54 == fld pc 3 54)
  else none

/-- The watchpoint comparator that an access of `n` bytes overlaps (15 R476). -/
def State.watchAt (s : State) (t : Nat) (va : Word) (n : Nat) (rd wr : Bool) : Option Nat :=
  if bit (s.view t 0x460) 1 && s.invasive t then
    [4, 5, 6, 7].find? (fun k =>
      let c := s.reg (a_STP_DBG_CMP (s.stopOf t) (t % 4) k)
      bit c 0 && ((rd && bit c 1) || (wr && bit c 2)) &&
        decide (fld va 0 57 / 8 ≤ fld c 3 54) && decide (fld c 3 54 ≤ (fld va 0 57 + n - 1) / 8))
  else none

/-- A block staged and discarded unused is counted (04 R109). -/
def State.dropStaged (s : State) (t : Nat) : State :=
  match (s.thr t).staged with
  | none => s
  | some _ => (s.updThr t (fun th => { th with staged := none })).countThr t 0x006 .none none 1

/-- A single-stepped thread halts again at the boundary it has reached, or, in a world whose invasive enable is not in force, at the next one where it is (15 R470, R474). -/
def State.haltStep (s : State) (t : Nat) : State :=
  if (s.thr t).stepOne && s.invasive t then s.updThr t (fun th => { th with halted := true, stepOne := false }) else s

/-- Raise a synchronous exception on a thread (02 R53, R56): counted by EXC_TAKEN. `trap2` marks guest-trapped system state (R49). -/
def State.raise (s : State) (t : Nat) (e : Exc) (trap2 : Bool) : State :=
  let s1 := (s.dropStaged t).countThr t 0x01B .none none 1
  (s1.enterExc t (s1.excLevel t .sync e trap2) .sync e).haltStep t

/-- What fetching an instruction answers: the state after it with the word fetched (none where the spec does not give the contents of the boot ROM), an exception, or that the fetch has to wait. -/
inductive FetchR where
  | ok (s : State) (w : Option (BitVec 32))
  | exc (s : State) (e : Exc)
  | wait (s : State)

/-- Does the thread replay the loop body that holds its PC from its loop buffer (04 R107)? -/
def Thread.replays (th : Thread) : Bool :=
  match th.loopBuf with
  | some b => b.replay && decide (b.first.toNat ≤ th.pc.toNat) && decide (th.pc.toNat ≤ b.last.toNat)
  | none => false

/-- The captured word of the instruction at the PC (04 R107). -/
def Thread.replayWord (th : Thread) : Option (BitVec 32) :=
  match th.loopBuf with
  | some b => smGet (fun _ => none) b.body ((th.pc.toNat - b.first.toNat) / 4)
  | none => none

/-- The word at an address of a line's data. -/
def wordAt (d : Line) (a : Nat) : BitVec 32 := BitVec.ofNat 32 (leVal ((List.range 4).map (fun k => byteAt d (a % 64 + k))))

/-- The word at an address of the boot ROM alias; the spec does not give the image (notes/assumptions/3.md). -/
def State.romWord (s : State) (a : Nat) : Option (BitVec 32) :=
  if s.memx.rom.isEmpty then none
  else some (BitVec.ofNat 32 (leVal ((List.range 4).map (fun k => smGet (fun _ => 0#8) s.memx.rom (a - romBase + k)))))

/-- A demand fetch of one line into L1I (04 R106, 07 R170); L1I_MISS counts where it was not there. -/
def State.fetchLine (s : State) (t line a : Nat) : LineR :=
  let miss := match s.coh.pl (s.stopOf t) line with | some p => p.l1i.isNone | none => true
  match s.readLine t line true with
  | .got s1 p => .got (if miss then s1.countThr t 0x00A .ifetch (some a) 1 else s1) p
  | .wait s1 => .wait s1

/-- Does the thread decode from a staged block that was poisoned (04 R106)? -/
def Thread.stagedPoison (th : Thread) : Bool := th.fqPoison == some (th.pc.toNat / 128)

/-- The fetch at a thread's PC (02 R59, R60, R62; 15 R458, R459): aborts, then the word, then POISON_FETCH. A fetch that answers POISON_FETCH has passed every check and sets A (10 R291). -/
def State.fetch (s : State) (t : Nat) : FetchR :=
  let th := s.thr t
  if th.replays then .ok s th.replayWord
  else
    match s.translate t th.pc .fetch with
    | .error (f, w) => .exc (s.walkLeft t w) (f.exc .fetch th.pc 2 0)
    | .ok (x, w) =>
      let s1 := s.walkLeft t w
      let ex (c : Nat) : Exc := { code := c, addrValid := true, addr := th.pc, size := 2 }
      let kind := s.paKind x.pa
      let ty := s.memType x
      let tgtSec := (kind == .mem || kind == .cxl) && s.lineSec (x.pa / 64)
      let poison : Exc := { code := 0x31, size := 2 }
      let done (s : State) (bad : Bool) (w : Option (BitVec 32)) : FetchR :=
        let s := s.commitXl t .fetch x
        if bad || th.stagedPoison then .exc s poison else .ok s w
      if th.secure && bit (s.view t 0xC10) 0 && !tgtSec && kind != .rom && kind != .unmapped && ty != 2 then .exc s1 (ex 0x11)
      else if ty = 2 then .exc s1 (ex 0x12)
      else if kind = .unmapped then .exc s1 (ex 0x13)
      else if kind = .rom then done s1 false (s.romWord x.pa)
      else if !x.sec && tgtSec then done (s1.coreViol t 3 x.pa) false (some 0)
      else
        match (if ty = 1 then s1.curLine t (x.pa / 64) else s1.fetchLine t (x.pa / 64) x.pa) with
        | .wait s2 => .wait s2
        | .got s2 p => done s2 p.poison (some (wordAt p.data x.pa))

/-- The instruction at a thread's PC: one that was decoded there and has waited since keeps the word, and the translation, it was fetched under (10 R296); otherwise it is fetched. -/
def State.fetchNow (s : State) (t : Nat) : FetchR :=
  match (s.thr t).held with
  | some (pc, w) => if pc = (s.thr t).pc then .ok s w else s.fetch t
  | none => s.fetch t

/-- What an instruction's effect answers: it completes at the next address or at a target, it raises an exception, it cannot be performed yet, or it stops part-way with its progress kept (02 R57). -/
inductive Eff where
  | next (s : State)
  | goto (s : State) (pc : Word)
  | trap (s : State) (e : Exc) (trap2 : Bool)
  | wait (s : State)
  | stop (s : State)

/-- What decoding gives an instruction: its encoding, whether it is allocated, whether it belongs to the long-vector unit, whether the thread's level and world permit it, whether it ends the capture of a loop body (04 R107), and the register that XSYN.REG names (02 R58): the first register field, which holds the destination or the source, unless the instruction says otherwise. -/
structure Dec where
  enc : BitVec 32
  alloc : Bool := true
  lv : Bool := false
  priv : Bool := true
  ends : Bool := false
  reg : Nat := (enc.extractLsb' 21 5).toNat

/-- An instruction that ends loop capture, or lies outside the captured body, discards the loop buffer (04 R107, R108); another instruction of the body is written into it as it is decoded. -/
def Thread.leaveLoop (th : Thread) (ends : Bool) (w : Option (BitVec 32)) : Thread :=
  match th.loopBuf with
  | some b =>
    if ends || decide (th.pc.toNat < b.first.toNat) || decide (b.last.toNat < th.pc.toNat) then { th with loopBuf := none }
    else if b.replay then th
    else { th with loopBuf := some { b with body := smSet (fun _ => none) b.body ((th.pc.toNat - b.first.toNat) / 4) w } }
  | none => th

/-- Decoding an instruction at the PC: the loop buffer follows, and a poisoned block staged for another address is no longer used (04 R106). -/
def Thread.decoded (th : Thread) (ends : Bool) (w : Option (BitVec 32)) : Thread := { th.leaveLoop ends w with fqPoison := none }

/-- What a fetched word is to a command: the command's own instruction, no allocated encoding (R70), or another instruction, so that the command cannot be delivered (notes/assumptions/3.md). -/
inductive Deliver where
  | here
  | undef (info : Nat)
  | other
  deriving DecidableEq, Repr

/-- Decode the fetched word for an instruction with encoding `enc` (03 R68, R70, R73). -/
def deliver (enc : BitVec 32) (w : Option (BitVec 32)) : Deliver :=
  match w with
  | none => .here
  | some v => if (decodeEltor 0 v).isNone then .undef v.toNat else if v = enc then .here else .other

/-- Retirement (04 R119): the PC moves, the instruction is counted, a single-stepped thread halts again, and a STEP exception is taken when TSTAT.STEP was 1 for the instruction (02 R59), after a WAIT only once the thread leaves it (03 R87). -/
def State.retire (s : State) (t : Nat) (pc0 pc : Word) (step lv : Bool) : State :=
  let s1 := ((s.updThr t (fun th => { th with pc := pc, held := none })).retired t pc0 lv).haltStep t
  if step && !(s1.thr t).waiting then s1.raise t { code := 0x0F } false else s1

/-- One instruction of thread t. One that waits, or stops part-way, stays decoded (`keep`). A thread that cannot execute, or whose PC holds another instruction, leaves the state unchanged; a halt request that its world's invasive enable permits is taken at the instruction boundary (15 R470). The exceptions rank as in 02 R60. -/
def runInstr (t : Nat) (d : State → Dec) (eff : State → Eff) (s : State) : State :=
  if !s.canRun t then s
  else if (s.thr t).haltReq && !(s.thr t).midVec && bit (s.view t 0x460) 2 && s.invasive t then
    s.updThr t (fun th => { th with halted := true, haltReq := false, held := none })
  else
    let s0 := s.tick.dropGiven t
    match s0.fetchNow t with
    | .wait s1 => s1
    | .exc s1 e => s1.raise t e false
    | .ok s1 w =>
      let i := d s1
      let pc := (s1.thr t).pc
      let step := (s1.thr t).step
      let info := i.enc.toNat
      match deliver i.enc w with
      | .undef v => s1.raise t { code := 0x01, info := v } false
      | .other => s
      | .here =>
      if !i.alloc then s1.raise t { code := 0x01, info := info } false
      else if i.lv && s1.lvAbsent (s1.stopOf t) then s1.raise t { code := 0x02, reg := i.reg, info := 2 } false
      else if !i.priv then s1.raise t { code := 0x03, reg := i.reg, info := info } false
      else
        let s1 := if i.lv then s1.lvRequest (s1.stopOf t) else s1
        let s2 := s1.updThr t (Thread.decoded · i.ends w)
        let brk := s2.breakAt t pc
        let hw : Exc := { code := 0x0D, info := brk.getD 0 }
        let keep (s : State) : State := s.updThr t (fun th => { th with held := some (pc, w) })
        if i.lv && !s1.lvReady (s1.stopOf t) && brk.isNone then keep s1
        else
          match eff s2 with
          | .trap s3 e tr =>
            if e.code ≤ 0x05 then s3.raise t e tr
            else if brk.isSome then s2.raise t hw false
            else s3.raise t e tr
          | .wait s3 => if brk.isSome then s2.raise t hw false else keep s3
          | .stop s3 => if brk.isSome then s2.raise t hw false else keep s3
          | .next s3 => if brk.isSome then s2.raise t hw false else s3.retire t pc (pc + 4) step i.lv
          | .goto s3 tgt => if brk.isSome then s2.raise t hw false else s3.retire t pc tgt step i.lv

end Sys2Proof.Machine
end

