-- ==== Sys2Proof/Machine/Galley.lean ====
section
/-! DEFINITION. Galley rings: proofs and the performance of a command handed to an executor (spec/17_lengthsman_galley.md R522–R532). -/
namespace Sys2Proof.Machine

/-- Paired Event Queue of a ring (R522). -/
def ringQueue (r : Nat) : Nat := if r = 0 then 0 else if r = 2 then 2 else 1
/-- Executor of an opcode (R524): 0 the Lengthsman, 1 the Lock-Keeper, 2 the Tollhouse. -/
def executorOf (op : Nat) : Nat := if op / 256 = 4 then 1 else if op / 256 = 9 then 2 else 0
/-- Word k (1–7) of a command. -/
def GalCmd.word (c : GalCmd) (k : Nat) : Word := c.w.getD (k - 1) 0
/-- A field of a parameter word. -/
def GalCmd.par (c : GalCmd) (k lo w : Nat) : Nat := fld (c.word k) lo w

/-- Result codes (R530). -/
def gDone : GalRes := ⟨0x00, 0, 0⟩
/-- ACCEPTED. -/
def gAccepted : GalRes := ⟨0x01, 0, 0⟩
/-- BAD_OPCODE. -/
def gBadOp : GalRes := ⟨0x10, 0, 0⟩
/-- BAD_PARAM. -/
def gBadParam : GalRes := ⟨0x11, 0, 0⟩
/-- DENIED. -/
def gDenied : GalRes := ⟨0x12, 0, 0⟩
/-- ABSENT. -/
def gAbsent : GalRes := ⟨0x13, 0, 0⟩
/-- BUSY. -/
def gBusy : GalRes := ⟨0x14, 0, 0⟩
/-- NO_RESOURCE. -/
def gNoRes : GalRes := ⟨0x15, 0, 0⟩
/-- FAILED. -/
def gFailed : GalRes := ⟨0x20, 0, 0⟩
/-- TIMEOUT. -/
def gTimeout : GalRes := ⟨0x21, 0, 0⟩
/-- DEADLINE_MISSED. -/
def gLate : GalRes := ⟨0x22, 0, 0⟩

/-- Bytes of a proof (R528). -/
def proofBytes (c : GalCmd) (r : GalRes) (replace : Bool) (mt : Nat) : List Byte :=
  leBytes 8 (c.tag + r.status * 2 ^ 16 + replace.toNat * 2 ^ 24 + c.op * 2 ^ 32) ++ leBytes 8 mt ++ leBytes 8 r.w2.toNat ++ leBytes 8 r.w3.toNat

/-- Change the rings' own state. -/
def State.updGal (s : State) (f : GalSt → GalSt) : State := { s with gal := f s.gal }

/-- GAL_STAT.INFLIGHT: commands taken from the ring and not proved. -/
def State.galCount (s : State) (ring : Nat) : State :=
  s.wf (a_GAL_STAT ring) f_GAL_STAT_INFLIGHT (s.gal.taken.filter (fun c => c.ring == ring && c.net.isNone)).length

/-- log2 of a ring's size: 12 for SERVICE (R544). -/
def State.galLog (s : State) (r : Nat) : Nat := if r = 2 then 12 else s.rf (a_GAL_CTL r) f_GAL_CTL_SIZE_LOG2
/-- SEC of a ring's reads and writes (R522). -/
def ringSec (r : Nat) : Bool := r == 0

/-- GALLEY_FAULT (R542): cause 1 packet read, 2 proof write; that of the SECURE ring, whose requester is Secure, goes to the Secure Event Queue (R536). -/
def State.galFault (s : State) (r cause index pa : Nat) : State :=
  s.post (if r = 0 then 0 else 1) ⟨0x0007, 0, 1001, 0, s.time.mt, BitVec.ofNat 64 (r + cause * 2 ^ 4 + index * 2 ^ 16), BitVec.ofNat 64 pa⟩

/-- A memory write of the Lengthsman for a ring: false when it fails; a Normal write to a Secure line changes nothing and is a violation. -/
def State.galWrite (s : State) (r a : Nat) (bs : List Byte) : State × Bool :=
  if !s.isMem a || s.memFailed (a / 64) then (s, false)
  else if !ringSec r && s.lineSec (a / 64) then (s.secViol (448 + (s.homeLoc (a / 64)).elim 0 (·.slice)) 0 2 r 2 a, true)
  else (s.writeBytes a bs 0, true)

/-- The proof of a command (R523, R526, R528, R535): into the ring's proof ring, with PROOF_READY under NOTIFY, or PF0 MSI-X vector 1; or as a datagram to its sender, kept for repeats (R518). -/
def State.galProve (s : State) (c : GalCmd) (r : GalRes) : State :=
  let bs := proofBytes c r (s.rf a_GAL_HEALTH f_GAL_HEALTH_REPLACE == 1) s.time.mt
  let s0 := s.updGal (fun g => { g with taken := g.taken.erase c })
  match c.net with
  | some p => s0.updGal (fun g => { g with sent := g.sent ++ [.udp p.addr p.port bs], kept := g.kept ++ [⟨p, c.tag, c.since, bs⟩] })
  | none =>
    let prod := s0.rf (a_GAL_STAT c.ring) f_GAL_STAT_PPROD
    let s1 := (s0.wf (a_GAL_STAT c.ring) f_GAL_STAT_PPROD ((prod + 1) % 2 ^ s0.galLog c.ring)).galCount c.ring
    if c.ring = 2 then
      ({ s1 with ev := { s1.ev with svc := putBytes s1.ev.svc (0x80000 + 32 * prod) bs } }).msixRaise 0 1
    else
      let a := s1.rf (a_GAL_PBASE c.ring) f_GAL_PBASE_BASE * 4096 + 32 * prod
      let (s2, ok) := s1.galWrite c.ring a bs
      let s3 := if ok then s2 else s2.galFault c.ring 2 prod a
      if c.flags.testBit 0 then
        s3.post (ringQueue c.ring) ⟨0x0009, 0, 1001, 0, s3.time.mt, BitVec.ofNat 64 (c.ring + c.tag * 2 ^ 16 + r.status * 2 ^ 32), 0⟩
      else s3

/-- GALLEY_RESULT of a command proved ACCEPTED (R529), on its ring's paired queue. -/
def State.galResult (s : State) (ring op tag status result : Nat) : State :=
  s.post (ringQueue ring) ⟨0x0008, 0, 1001, 0, s.time.mt, BitVec.ofNat 64 (ring + op * 2 ^ 16 + tag * 2 ^ 32 + status * 2 ^ 48), BitVec.ofNat 64 result⟩

/-! ### The checks of a command (R527, R532) -/

/-- What a command uses TARGET for: nothing, a core entry, or a memory controller entry. -/
inductive GalTarget where
  | none | core | mem
  deriving DecidableEq, Repr

/-- The assigned opcodes (R532, R372, R373, 15 R472, 16 R505, 11 R338, R340): rings, highest parameter word, TARGET. -/
def galSpec (op : Nat) : Option (List Nat × Nat × GalTarget) :=
  if op = 0x0001 then some ([0, 1, 2, 3], 2, .none)
  else if op = 0x0002 then some ([0, 2], 3, .none)
  else if op = 0x0101 then some ([0, 1, 2, 3], 1, .none)
  else if op = 0x0102 then some ([0, 1, 3], 0, .none)
  else if op = 0x0103 then some ([0, 1, 3], 0, .none)
  else if op = 0x0104 then some ([0, 1, 3], 1, .none)
  else if op = 0x0110 then some ([0, 1, 2], 1, .none)
  else if op = 0x0111 then some ([0, 1, 2], 0, .none)
  else if op = 0x0201 then some ([0, 1, 2], 0, .core)
  else if op = 0x0202 then some ([0, 1], 0, .core)
  else if op = 0x0203 then some ([0, 1, 2], 0, .core)
  else if op = 0x0210 then some ([0, 2], 1, .none)
  else if op = 0x0305 then some ([0, 1], 1, .none)
  else if op = 0x0306 then some ([0, 1], 1, .none)
  else if op = 0x0401 then some ([1], 1, .none)
  else if op = 0x0402 then some ([0, 1], 2, .none)
  else if op = 0x0403 then some ([0, 1], 1, .none)
  else if op = 0x0404 then some ([0, 1], 4, .none)
  else if op = 0x0405 then some ([0, 1], 1, .none)
  else if op = 0x0406 then some ([0, 1], 1, .none)
  else if op = 0x0410 then some ([0, 1, 2], 0, .none)
  else if op = 0x0411 then some ([0, 1], 1, .none)
  else if op = 0x0420 then some ([1], 1, .none)
  else if op = 0x0501 then some ([0, 1, 2], 0, .mem)
  else if op = 0x0502 then some ([0, 1, 3], 0, .mem)
  else if op = 0x0503 then some ([3], 2, .none)
  else if op = 0x0601 then some ([0, 1, 2], 1, .none)
  else if op = 0x0701 then some ([0, 1, 2], 0, .none)
  else if op = 0x0702 then some ([0, 1, 2], 1, .none)
  else if op = 0x0801 then some ([0, 2], 1, .none)
  else if op = 0x0802 then some ([0, 2], 7, .none)
  else if op = 0x0803 then some ([0, 2], 0, .none)
  else if op = 0x0804 then some ([0, 1, 2], 0, .none)
  else if op = 0x0901 then some ([0, 1, 2], 0, .none)
  else if op = 0x0902 then some ([0, 1, 2], 1, .none)
  else if op = 0x0903 then some ([0, 1, 2], 0, .none)
  else if op = 0x0904 then some ([0, 1, 2], 1, .none)
  else if op = 0x0905 then some ([0, 1, 2], 7, .none)
  else if op = 0x0906 then some ([0], 2, .none)
  else if op = 0x0A01 then some ([0, 1, 2], 1, .none)
  else if op = 0x0A02 then some ([0, 1, 2], 1, .none)
  else none

/-- Is TARGET an entry of the kind a command names? -/
def GalTarget.ok (k : GalTarget) (t : Nat) : Bool :=
  match k with
  | .none => t == 0xFFFF
  | .core => decide (t < 224)
  | .mem => (decide (710 ≤ t) && decide (t < 726)) || (decide (742 ≤ t) && decide (t < 746))

/-- The generic checks of R527 on a command, in order: unassigned opcode, ring not listed (DIAG only in DEVELOPMENT or under an invasive enable, R522; FW_STAGE_DATA and FW_STAGE_COMMIT only on the ring that began the staging; DOMAIN_SET and HOST_DIRECT_EXIT on the ring that entered HOST_DIRECT, the latter on SECURE too, 16 R505), FLAGS, LEN (above 7 is out of range) and TARGET, absence of the unit TARGET names. -/
def State.galCheck (s : State) (c : GalCmd) : Option GalRes :=
  match galSpec c.op with
  | none => some gBadOp
  | some (rings, need, kind) =>
    let diagOk := s.rf a_TOL_CTL f_TOL_CTL_LIFECYCLE == 0 || s.dbgEnabled 0 || s.dbgEnabled 2
    let entered := s.rf a_PVC_STAT f_PVC_STAT_RING
    let other := ((c.op == 0x0802 || c.op == 0x0803) && s.gal.stage.any (fun x => x.ring != c.ring)) ||
      (s.rf a_PVC_STAT f_PVC_STAT_HOST_DIRECT == 1 && c.ring != entered && (c.op == 0x0104 || c.op == 0x0103 && c.ring != 0))
    if !rings.contains c.ring || (c.ring == 3 && !diagOk) || other then some gDenied
    else if decide (4 ≤ c.flags) || decide (c.len < need) || decide (7 < c.len) || !kind.ok c.target then some gBadParam
    else if kind != .none && domAbsent s.variant c.target then some gAbsent
    else none

/-- Commands performed while a boot is halted (20 R600). -/
def haltOps : List Nat := [0x0001, 0x0002, 0x0210, 0x0801, 0x0802, 0x0803, 0x0804, 0x0701, 0x0702, 0x0601, 0x0101, 0x0901, 0x0902, 0x0903, 0x0904, 0x0905, 0x0906]

/-- The oldest command of a ring at an executor (R524). -/
def State.galFirst (s : State) (ring ex : Nat) : Option GalCmd := s.gal.taken.find? (fun c => c.ring == ring && executorOf c.op == ex)

/-- Can the executor perform the command now: the Lengthsman runs its firmware and is not restarting (R516; 20 R595); the Lock-Keeper performs 100 reference cycles after taking (12 R372)? -/
def State.galReady (s : State) (c : GalCmd) : Bool :=
  if executorOf c.op = 0 then s.gal.restart.isNone && decide (2 ≤ s.rf a_GAL_BOOT_STAT f_GAL_BOOT_STAT_STAGE) else if executorOf c.op = 1 then decide (c.since + 1000 ≤ s.time.ticks) else true

/-- Does a FENCE of a datagram wait (R526): has an earlier command of its ring not been proved? A ring's own packet waits before it is taken. -/
def State.galFenced (s : State) (c : GalCmd) : Bool :=
  c.net.isSome && c.flags.testBit 1 && (s.gal.taken.takeWhile (fun x => x != c)).any (fun x => x.ring == c.ring)

/-- Is it a ring's turn at the Lengthsman (R524): does no ring before it in the rotation SECURE, HOST, SERVICE, DIAG have a command that could be performed? The Lock-Keeper and the Tollhouse serve no rotation. -/
def State.galTurn (s : State) (c : GalCmd) : Bool :=
  executorOf c.op != 0 ||
    ((List.range ((c.ring + 4 - s.gal.turn) % 4)).all (fun k =>
      match s.galFirst ((s.gal.turn + k) % 4) 0 with
      | some x => x.begun || s.galFenced x
      | none => true))

/-- The rotation after a command of the Lengthsman: the next ring's turn (R524). -/
def State.galTurned (s : State) (c : GalCmd) : State := if executorOf c.op = 0 then s.updGal (fun g => { g with turn := (c.ring + 1) % 4 }) else s

/-- What performing a command answers: its result now, or that it has begun and its result follows. -/
inductive GalOut where
  | res (s : State) (r : GalRes)
  | later (s : State)

/-- A refusal of R527's checks; a DOMAIN_SET of the HOST ring for a domain that holds the SEC vote, refused because another ring entered HOST_DIRECT, is a violation of KIND 6 as well (15 R479; 16 R505). -/
def State.galRefuse (s : State) (c : GalCmd) (r : GalRes) : State :=
  if c.op = 0x0104 && c.ring = 1 && r = gDenied && decide (c.par 1 0 12 < 788) && (s.votes (c.par 1 0 12)).testBit 0 then s.secViol 1000 0 2 1 6 (c.par 1 0 12) else s

/-- Perform the oldest command of a ring at its executor when it is `op`: an opcode's own command. The checks of R527 come first. While the boot is halted only some are performed, and the others answer BUSY. The Lengthsman performs a ring's command in the ring's turn. -/
def State.galDo (s : State) (ring op : Nat) (f : State → GalCmd → GalOut) : State :=
  match s.galFirst ring (executorOf op) with
  | none => s
  | some c =>
    if c.op != op || c.begun || !s.galReady c || s.galFenced c || !s.galTurn c then s
    else match s.galCheck c with
    | some r => ((s.galTurned c).galRefuse c r).galProve c r
    | none =>
      if s.rf a_GAL_BOOT_STAT f_GAL_BOOT_STAT_HALT != 0 && !haltOps.contains op then (s.galTurned c).galProve c gBusy
      else match f (s.galTurned c) c with
      | .res s1 r => s1.galProve c r
      | .later s1 => s1.updGal (fun g => { g with taken := g.taken.map (fun x => if x == c then { x with begun := true } else x) })

/-- As `galDo`, for a command that answers at once. -/
def State.galNow (s : State) (ring op : Nat) (f : State → GalCmd → State × GalRes) : State :=
  s.galDo ring op (fun s c => let x := f s c; .res x.1 x.2)

/-- Finish the begun command of a ring with opcode `op`, if one is. -/
def State.galFinish (s : State) (ring op : Nat) (f : State → GalCmd → Option (State × GalRes)) : State :=
  match s.gal.taken.find? (fun c => c.ring == ring && c.op == op && c.begun) with
  | none => s
  | some c =>
    match f s c with
    | none => s
    | some (s1, r) => s1.galProve { c with begun := true } r

/-! ### Taking (R523–R526) -/

/-- The command in a 64-byte packet (R525): words above LEN are taken as zero. -/
def galParse (bs : List Byte) (ring since mt : Nat) (net : Option NetPeer) : GalCmd :=
  let w (k : Nat) : Nat := leVal ((bs.drop (8 * k)).take 8)
  let len := natField (w 0) 24 8
  { ring := ring, op := natField (w 0) 0 16, flags := natField (w 0) 16 8, len := len, tag := natField (w 0) 32 16, target := natField (w 0) 48 16,
     w := (List.range 7).map (fun k => if k + 1 ≤ len then BitVec.ofNat 64 (w (k + 1)) else 0), since := since, mt := mt, net := net, begun := false }

/-- A packet is taken: it joins its executor's commands; an unassigned opcode, which no executor has a command for, is answered at once (R527), but for those of the Lock-Keeper's group, which it answers in order, 100 cycles after taking them (12 R372). -/
def State.galAccept (s : State) (c : GalCmd) : State :=
  let s1 := s.updGal (fun g => { g with taken := g.taken ++ [c] })
  let s2 := if c.net.isNone then s1.galCount c.ring else s1
  if (galSpec c.op).isNone && executorOf c.op != 1 then s2.galProve c gBadOp else if executorOf c.op = 1 then { s2 with lkp := { s2.lkp with takenAt := some (s.time.ticks / 10) } } else s2

/-- Is the ring enabled and running: SERVICE by PF0 (R522), the others by EN; ERR stops it (R535)? -/
def State.galOn (s : State) (r : Nat) : Bool := decide (r < 4) && s.rf (a_GAL_CTL r) f_GAL_CTL_EN == 1 && s.rf (a_GAL_STAT r) f_GAL_STAT_ERR == 0

/-- May the ring take a packet (R523): one is posted, and a proof slot is free that no taken command has reserved? A FENCE packet waits for every earlier proof (R526). -/
def State.galRoom (s : State) (r : Nat) : Bool :=
  let size := 2 ^ s.galLog r
  let used := (s.rf (a_GAL_STAT r) f_GAL_STAT_PPROD + size - s.rf (a_GAL_PCONS r) f_GAL_PCONS_PCONS % size) % size
  s.rf (a_GAL_STAT r) f_GAL_STAT_HEAD != s.rf (a_GAL_TAIL r) f_GAL_TAIL_TAIL &&
    decide (used + (s.gal.taken.filter (fun c => c.ring == r && c.net.isNone)).length < size - 1)

/-- Address of packet i of a memory ring. -/
def State.galPacket (s : State) (r i : Nat) : Nat := s.rf (a_GAL_CBASE r) f_GAL_CBASE_BASE * 4096 + 64 * i

/-- Read the packet at HEAD: poison or an unmapped address fails; a Normal read of a Secure line returns zeros and is a violation. -/
def State.galRead (s : State) (r i : Nat) : State × Option (List Byte) :=
  if r = 2 then (s, some ((List.range 64).map (fun k => smGet (fun _ => 0#8) s.ev.svc (0x40000 + 64 * i + k))))
  else
    let a := s.galPacket r i
    if !s.isMem a then (s, none)
    else if !ringSec r && s.lineSec (a / 64) then (s.secViol (448 + (s.homeLoc (a / 64)).elim 0 (·.slice)) 0 2 r 1 a, some (leBytes 64 0))
    else
      let (bs, p) := s.readBytes a 64
      (if s.cxlLost a then s.cxlError a 3 else s, if p then none else some bs)

/-- GALLEY_TAKE (R523–R527, R535). The Lock-Keeper takes one packet in a cycle (12 R372). -/
def execGalleyTake (r : Nat) (s : State) : Host.Outcome State Fault Refusal :=
  if !s.galOn r || !s.galRoom r || s.gal.restart.isSome then .next s
  else
    let head := s.rf (a_GAL_STAT r) f_GAL_STAT_HEAD
    match s.galRead r head with
    | (s1, none) => .next ((s1.wf (a_GAL_STAT r) f_GAL_STAT_ERR 1).galFault r 1 head (s1.galPacket r head))
    | (s1, some bs) =>
      let x := galParse bs r s1.time.ticks s1.time.mt none
      if x.flags.testBit 1 && s1.gal.taken.any (fun c => c.ring == r) then .next s1
      else if executorOf x.op = 1 && s1.lkp.takenAt == some (s1.time.ticks / 10) then .next s1
      else .next ((s1.wf (a_GAL_STAT r) f_GAL_STAT_HEAD ((head + 1) % 2 ^ s1.galLog r)).galAccept x)

/-! ### Register writes (R535, R544) -/

/-- A write to GAL_TAIL: a TAIL beyond the ring is ignored. -/
def State.galTailWrite (s : State) (r : Nat) (v : Word) : State := if fld v 0 16 < 2 ^ s.galLog r then s.setReg (a_GAL_TAIL r) v else s

/-- A write to GAL_CTL (R544): SIZE_LOG2 only while EN = 0 and within 2–12; EN = 1 only with a size in range; HEAD and TAIL read 0 from an enabling write. -/
def State.galCtlWrite (s : State) (r : Nat) (v : Word) : State :=
  let old := s.reg (a_GAL_CTL r)
  let en0 := bit old 0
  let sz := fld v 1 4
  let size := if en0 || sz < 2 || 12 < sz then fld old 1 4 else sz
  let en := bit v 0 && decide (2 ≤ size) && decide (size ≤ 12)
  let s1 := s.setReg (a_GAL_CTL r) (setFld (setBit 0 0 en) 1 4 size)
  if en && !en0 then (s1.wf (a_GAL_STAT r) f_GAL_STAT_HEAD 0).wf (a_GAL_TAIL r) f_GAL_TAIL_TAIL 0 else s1

/-- A write to GAL_CBASE or GAL_PBASE: ignored while EN = 1. -/
def State.galBaseWrite (s : State) (r off : Nat) (v : Word) : State := if bit (s.reg (a_GAL_CTL r)) 0 then s else s.setReg off v

/-- A write to EVQ_CTL (R539, R546, 20 R598): EN of the Service queue ignores it; a first enable of the Host queue writes the held records. -/
def State.evqCtlWrite (s : State) (q : Nat) (v : Word) : State :=
  let old := s.reg (a_EVQ_CTL q)
  let en0 := bit old 0
  let sz := fld v 2 5
  let size := if q = 2 then 0 else if en0 || sz < 6 || 16 < sz then fld old 2 5 else sz
  let en := if q = 2 then en0 else bit v 0 && decide (6 ≤ size) && decide (size ≤ 16)
  let s1 := s.setReg (a_EVQ_CTL q) (setFld (setBit v 0 en) 2 5 size)
  let s2 := if q = 1 && en && !(s1.evq 1).everEnabled then
      let held := (s1.evq 1).held
      held.foldl (fun s r => s.offer 1 r) (s1.setEvq 1 { s1.evq 1 with held := [], everEnabled := true })
    else s1
  s2.evqTest q

/-- A write to EVQ_CONS (R539, R541): beyond PROD it is ignored; the interrupt may be raised again. -/
def State.evqConsWrite (s : State) (q : Nat) (v : Word) : State :=
  let c := fld v 0 16
  let size := s.evqSize q
  let cons := s.rf (a_EVQ_CONS q) f_EVQ_CONS_CONS
  if size ≤ c || s.evqCount q < (c + size - cons) % size then s
  else
    let s1 := s.wf (a_EVQ_CONS q) f_EVQ_CONS_CONS c
    (s1.setEvq q { s1.evq q with quiet := false }).evqTest q

/-- A write to EVQ_BASE: ignored while EN = 1. -/
def State.evqBaseWrite (s : State) (q : Nat) (v : Word) : State := if bit (s.reg (a_EVQ_CTL q)) 0 || q == 2 then s else s.setReg (a_EVQ_BASE q) v

end Sys2Proof.Machine
end

