-- ==== Sys2Proof/Machine/Outbound.lean ====
section
/-! DEFINITION. MMIO loads and stores of cores, and what their completions answer (spec/14_expansion_ports.md R422, R423, R430–R432, R440). -/
namespace Sys2Proof.Machine

/-- Has a configuration write to wait for a tag of its link (R431)? -/
def State.noTag (s : State) (t a n : Nat) : Bool :=
  s.inEcam a && (match s.mmioTo a n with | .link l => (s.freeTag (slotOf a) l).isNone || !s.tagTurn (slotOf a) l 1 t | _ => false)
/-- It takes its place among the requests that wait. -/
def State.waitTag (s : State) (t a n : Nat) : State := match s.mmioTo a n with | .link l => s.queueTag (slotOf a) l 1 t | _ => s

/-- All ones of n bytes. -/
def onesOf (n : Nat) : Nat := 2 ^ (8 * n) - 1

/-- What a load from an MMIO slot answers: it has to wait for its completion, it has data, it times out with DEV_TIMEOUT naming the port, or its completion carried poison (02 R59). -/
inductive MmioR where
  | wait (s : State)
  | data (s : State) (v : Nat)
  | timeout (s : State) (port : Nat)
  | poison (s : State)

/-- The outstanding load of a thread; a thread waits for it and has no other. -/
def State.loadOut (s : State) (t : Nat) : Option OutReq := s.port.out.find? (fun o => o.kind == 0 && o.owner == t)
/-- What a load of n bytes answers for its outstanding request (R430, R432). -/
def State.mmioEnd (s : State) (o : OutReq) (n : Nat) : MmioR :=
  match o.res with
  | none => .wait s
  | some (0, v) => .data (s.endOut o) v
  | some (1, _) => .data (s.endOut o) (onesOf n)
  | some (3, _) => .poison (s.endOut o)
  | some (_, _) =>
    if bit (s.reg (portBase o.port + 0x10)) 16 then .timeout (s.endOut o) o.port else .data (s.endOut o) (onesOf n)

/-- A core load of n bytes from an MMIO slot (R421–R423, R430, R432, R440). -/
def State.mmioLoad (s : State) (t a n : Nat) : MmioR :=
  match s.outOf 0 t a n with
  | some o => s.mmioEnd o n
  | none =>
    match s.mmioTo a n with
    | .closed => .data s (onesOf n)
    | .own l r => .data s (s.rootRead (slotOf a) l r n)
    | .link l => .wait (s.issue (slotOf a) l 0 t a (s.mmioBus a) n 0)
    | .unclaimed => .data (s.unclaimed (slotOf a) true) (onesOf n)

/-- A posted write that leaves for an MMIO slot; on a link that is down it is dropped, and so is one that no bridge window claims, which is reported (R423, R432). -/
def State.mmioPost (s : State) (a n v : Nat) (ep : Bool) : State :=
  match s.mmioTo a n with
  | .link _ => s.transmit ⟨slotOf a, if ep then 9 else 0, s.mmioBus a, n, v⟩
  | .unclaimed => s.unclaimed (slotOf a) false
  | _ => s

/-- A core store to an MMIO slot: a configuration write is non-posted, or changes a root-port function's own register; any other store is posted. -/
def State.mmioStore (s : State) (t a n v : Nat) : State :=
  match s.inEcam a, s.mmioTo a n with
  | true, .own l r => s.rootWrite (slotOf a) l r n v
  | true, .link l => s.issue (slotOf a) l 1 t a (s.mmioBus a) n v
  | true, _ => s
  | false, _ => s.mmioPost a n v false

end Sys2Proof.Machine
end

