-- ==== Sys2Proof/Machine/MemCtl.lean ====
section
/-! DEFINITION. Commands of the memory controllers: the request queues, refresh, self-refresh, training, patrol, failover and repair (spec/09_memory.md R251–R268), the memory Galley commands (spec/17_lengthsman_galley.md R532), and register writes of a controller. -/
namespace Sys2Proof.Machine

/-! ### Units -/

/-- Is the unit present with memory to serve? -/
def State.memHere (s : State) (u : Nat) : Bool := if u < 16 then s.chTrained u else decide (u < 20) && Config.hasHbm s.variant

/-! ### Request queues (R242, R243, R251–R254) -/

/-- Read and write entries of a scheduler. -/
def queueSize (u : Nat) (wr : Bool) : Nat := if u < 16 then (if wr then 48 else 64) else (if wr then 24 else 32)
/-- Does a scheduler have room for a read or a write? -/
def State.queueRoom (s : State) (m : MemAt) (wr : Bool) : Bool :=
  decide ((s.memx.reqs.filter (fun r => r.loc.sch == m.sch && r.wr == wr)).length < queueSize m.unit wr)
/-- Does a read of a scheduler wait on a write (R252)? -/
def State.rawWait (s : State) (sch : Nat) : Bool := s.memx.reqs.any (fun r => r.loc.sch == sch && !r.wr && s.queuedWrite sch r.line)
/-- Draining begins at WR_HI queued writes, or when a read waits on a write, and ends at WR_LO with no read waiting (R251). -/
def State.redrain (s : State) (m : MemAt) : State :=
  let n := (s.memx.reqs.filter (fun r => r.loc.sch == m.sch && r.wr)).length
  let w := s.rawWait m.sch
  let rest := s.memx.drain.filter (fun x => x != m.sch)
  if w || decide (s.rf (memReg m.unit 0x08) f_DMC_SCHED_WR_HI ≤ n) then s.updMem (fun x => { x with drain := rest ++ [m.sch] })
  else if n ≤ s.rf (memReg m.unit 0x08) f_DMC_SCHED_WR_LO then s.updMem (fun x => { x with drain := rest })
  else s

/-- A scheduler takes a request: a second write to a queued line merges into its entry, which keeps its place and stays partial only if both are (R254); MEM_RAW_WAIT counts each read that meets a queued write (R252). -/
def State.enqueue (s : State) (w : MemWant) (m : MemAt) : State :=
  let s1 :=
    if w.wr && s.queuedWrite m.sch w.line then
      s.updMem (fun x => { x with reqs := x.reqs.map (fun r => if r.loc.sch = m.sch && r.wr && r.line = w.line then { r with part := r.part && w.part } else r) })
    else s.updMem (fun x => { x with reqs := x.reqs ++ [⟨m, w.line, w.wr, w.part, w.cls, s.time.mt, s.epochOf m.unit, false⟩] })
  let raw := if w.wr then (if s.queuedWrite m.sch w.line then 0 else (s.memx.reqs.filter (fun r => r.loc.sch == m.sch && !r.wr && r.line == w.line)).length) else (s.queuedWrite m.sch w.line).toNat
  let s2 := if raw = 0 then s1 else s1.countUnc (memBlk m.unit) 8 none 0x043 {} .read (some (64 * w.line)) raw
  (s2.touchUnit m.unit).redrain m

/-- Can every scheduler that a request goes to take it? A mirrored write is accepted when both write queues hold it (R263). -/
def State.canQueue (s : State) (w : MemWant) : Bool := (s.servedAt w.line w.wr).all (fun m => (w.wr && s.queuedWrite m.sch w.line) || s.queueRoom m w.wr)

/-- A home offers a request: it holds one while an earlier write to the line is held (R253) or a queue it goes to is full (R254). -/
def State.sendMem (s : State) (w : MemWant) : State :=
  if s.memx.held.any (fun x => x.wr && x.line == w.line) || !s.canQueue w then s.updMem (fun x => { x with held := x.held ++ [w] })
  else (s.servedAt w.line w.wr).foldl (fun s m => s.enqueue w m) s

/-- The homes offer what they hold again, in order. -/
def State.sendHeld (s : State) : State := s.memx.held.foldl State.sendMem (s.updMem (fun x => { x with held := [] }))

/-- MEMORY_REQUEST: a home sends a read or write of a line, of 64 bytes or fewer, to its controller. A request to a CXL.mem line is issued at its root port, a write with its poison mark; a read waits in order for a tag (14 R426–R428, R431). -/
def execMemoryRequest (line : Nat) (wr : Bool) (cls : Nat) (s : State) (part : Bool := false) : Host.Outcome State Fault Refusal :=
  .next (
    match s.hdmOf (64 * line) with
    | some (p, _) =>
      if s.cxlDown (64 * line) then s.cxlError (64 * line) 3
      else if wr then s.transmit ⟨p, if (s.coh.memLine s.env line).2 then 9 else 0, 64 * line, 64, (s.coh.memLine s.env line).1.toNat⟩
      else s.issue p 0 3 line (64 * line) (64 * line) 64 0
    | none => if (s.servedAt line wr).isEmpty then s else s.sendMem ⟨line, wr, part && wr, cls⟩)

/-- Reads of CXL.mem that wait for a tag of their link are sent as their turn comes (14 R431), and dropped as failures if the link has gone down meanwhile (14 R428). -/
def State.tagTick (s : State) : State :=
  (s.port.waits.filter (fun w => w.2.1 == 3)).foldl (fun s w =>
    if s.cxlDown (64 * w.2.2) then (s.unqueue 3 w.2.2).cxlError (64 * w.2.2) 3
    else if (s.freeTag (w.1 / 4) (w.1 % 4)).isSome && s.tagTurn (w.1 / 4) (w.1 % 4) 3 w.2.2 then s.issue (w.1 / 4) (w.1 % 4) 3 w.2.2 (64 * w.2.2) (64 * w.2.2) 64 0
    else s) s

/-! ### Scheduling (R251, R252) -/

/-- The request a scheduler picks next: the lowest score, the oldest among equals. -/
def State.pickReq (s : State) (sch : Nat) : Option Nat :=
  ((s.memx.reqs.zipIdx.filter (fun x => x.1.loc.sch == sch && s.pickable x.1)).foldl
    (fun b x => match b with | some y => if s.score x.1 < s.score y.1 then some x else b | none => some x) none).map (·.2)

/-- DRAM_ACCESS_COMPLETE of the k-th queued request, if its scheduler has picked it: it is issued to DRAM, and what a read, or the read of a partial write, finds is handled (R260, R268), an injected error first; `e` is what it finds. The line of a read then reaches its home with LINE_FILL. In cached mode a read that misses, and a dirty victim, use the line's DDR channel (R250). -/
def execDramAccessComplete (k : Nat) (e : MemErr) (s : State) : Host.Outcome State Fault Refusal :=
  .next (match s.memx.reqs[k]? with
    | none => s
    | some r =>
      if s.pickReq r.loc.sch != some k then s
      else
        let s0 := s.tick.updMem (fun x => { x with reqs := x.reqs.eraseIdx k })
        let home := (s.homeLoc r.line).elim 0 (·.slice)
        let rd := !r.wr || r.part
        let find := fun (u : Nat) (s : State) => if rd && s.memx.inject.any (fun x => x.1 == r.line) then s.injFound u r.line false else s.memErr u (some r.line) e false
        let s2 := if s.hbmCached then s0.hbmAccess home (64 * r.line) r.wr r.part r.cls {} find
          else
            let s1 := (s0.countHop home r.loc r.wr).dramIssue r.loc (64 * r.line) r.wr r.cls {}
            if rd || e.kind = 4 || e.kind = 5 then find r.loc.unit s1 else s1
        let s3 := if r.wr || r.stale || s2.memx.fetched.contains r.line then s2 else s2.updMem (fun x => { x with fetched := x.fetched ++ [r.line] })
        (s3.redrain r.loc).sendHeld)

/-! ### Refresh (R255, R256, R274) -/

/-- Ranks of a DDR5 channel, or pseudo-channels of a stack: what refreshes fall due for. -/
def State.refRanks (s : State) (u : Nat) : Nat := if u < 16 then s.rf (a_DMC_CFG u) f_DMC_CFG_RANKS else 32

/-- REFRESH_DUE for a rank or pseudo-channel: issued, or postponed. Once the debt has reached URGENT a running controller issues every owed one at once (R255); one whose domain is off can only postpone. A ninth that falls due with eight owed blocks the rank until the debt is zero, and REFRESH_DEBT is written (R256). -/
def execRefreshDue (u r : Nat) (postpone : Bool) (s : State) : Host.Outcome State Fault Refusal :=
  .next (if !s.memHere u || s.inSr u || s.refRanks u ≤ r then s
    else
      let n := s.debtOf u r
      let can := s.domState (memDom u) == 2
      if n < 8 then (if can && decide (s.urgent u ≤ n) then s.setDebt u r 0 else if postpone || !can then s.setDebt u r (n + 1) else s)
      else
        let w2 := (if u < 16 then u else u - 16) + (if u < 16 then 0 else r) * 2 ^ 8 + (if u < 16 then r % 4 else 0) * 2 ^ 16 + 9 * 2 ^ 24
        (s.tick.setDebt u r 0).hostEv 0x0502 5 (memEntry u) 0 w2 (Config.freeWord s.freeCtr 0x502).toNat)

/-! ### Self-refresh (R258) and retraining (R259) -/

/-- SELF_REFRESH_ENTRY: SR_EN, no queued request for SR_IDLE µs; owed refreshes are paid back, the controller's DEP vote ends and the PHY holds its own. -/
def execSelfRefreshEntry (u : Nat) (s : State) : Host.Outcome State Fault Refusal :=
  let ctl := s.reg (memReg u 0x20)
  .next (if !s.memHere u || s.inSr u || !bit ctl 0 || s.memx.reqs.any (fun r => r.loc.unit == u) ||
      decide (s.time.mt < smGet (fun _ => 0) s.memx.busy u + 1000 * fld ctl 16 16) then s
    else
      let s1 := (List.range 32).foldl (fun s r => s.setDebt u r 0) (s.updMem (fun x => { x with wants := x.wants.filter (fun y => y.loc.unit != u) }))
      ((s1.setReg (memReg u 0x20) (setBit ctl 32 true)).setVote (memPhy u) 4 true).setVote (memDom u) 4 false)

/-- A retraining of a unit ends: a failed one is a channel or pseudo-channel failure. -/
def State.retrained (s : State) (u pc : Nat) (ok : Bool) : State :=
  if ok then s else if u < 16 then s.chFail u 2 else s.pcFail (u - 16) pc 2

/-- SELF_REFRESH_EXIT: a request is queued, or an access waits, and the controller's domain is on; retraining that fell due runs first. -/
def execSelfRefreshExit (u pc : Nat) (ok : Bool) (s : State) : Host.Outcome State Fault Refusal :=
  .next (if !s.memHere u || !s.inSr u || !(s.memx.reqs.any (fun r => r.loc.unit == u) || s.memx.wants.any (fun x => x.loc.unit == u)) || s.domState (memDom u) != 2 then s
    else
      let s1 := (s.wakeSr u).touchUnit u
      if s.memx.retrainDue.contains u then (s1.updMem (fun x => { x with retrainDue := x.retrainDue.filter (fun y => y != u) })).retrained u pc ok else s1)

/-- PERIODIC_RETRAIN of a unit: channel c at multiples of 100 ms plus c ms, stack s plus 16 + s ms, once each; in self-refresh it falls due at the exit. -/
def execPeriodicRetrain (u pc : Nat) (ok : Bool) (s : State) : Host.Outcome State Fault Refusal :=
  let k := s.time.mt / 100000000
  .next (if !s.memHere u || s.time.mt % 100000000 < u * 1000000 || k < smGet (fun _ => 0) s.memx.retrained u then s
    else
      let s1 := s.updMem (fun x => { x with retrained := smSet (fun _ => 0) x.retrained u (k + 1) })
      if s.inSr u then (if s.memx.retrainDue.contains u then s1 else s1.updMem (fun x => { x with retrainDue := x.retrainDue ++ [u] }))
      else s1.retrained u pc ok)

/-! ### Recoveries (R262, R263, R267) -/

/-- SUBST_WALK_END of a rank: SUBST_BUSY clears with the channel's last walk. -/
def execSubstWalkEnd (c r : Nat) (s : State) : Host.Outcome State Fault Refusal :=
  .next (if s.memx.walks.contains (c, r) then
      let s1 := s.updMem (fun x => { x with walks := x.walks.erase (c, r) })
      if s1.memx.walks.any (fun w => w.1 == c) then s1 else s1.wf (a_DMC_RAS_STAT c) f_DMC_RAS_STAT_SUBST_BUSY 0
    else s)

/-- CHANNEL_FAILURE. -/
def execChannelFailure (c cause : Nat) (s : State) : Host.Outcome State Fault Refusal :=
  .next (if cause = 0 || 4 < cause then s else s.chFail c cause)

/-- Requests queued at a channel that has failed over: its reads are sent again, ahead of what the homes hold, under the new epoch; its writes are held by the survivor (R263, R264). -/
def State.resend (s : State) (c : Nat) : State :=
  let mine := s.memx.reqs.filter (fun r => r.loc.unit == c)
  (s.updMem (fun x => { x with
    reqs := x.reqs.filter (fun r => r.loc.unit != c)
    held := (mine.filter (fun r => !r.wr)).map (fun r => ⟨r.line, false, false, r.cls⟩) ++ x.held
    drain := x.drain.filter (fun y => y / 32 != c) })).sendHeld

/-- DDR_FAILOVER: the pair runs on its other member under a new epoch, the outstanding reads are sent again, and the event is written (R263). FAILED_OVER, and with it DEGRADED (01 R37), is set at both members: the spec does not say whether the survivor's entry reads DEGRADED (DESIGN CHOICE, notes/assumptions/110.md). -/
def execDdrFailover (c : Nat) (s : State) : Host.Outcome State Fault Refusal :=
  match s.memx.failovers.find? (fun f => f.ch == c), s.partner c with
  | some f, some p =>
    let ep := (smGet (fun _ => 0) s.memx.epoch (min c p) + 1) % 256
    let s1 := (s.updMem (fun x => { x with failovers := x.failovers.erase f, epoch := smSet (fun _ => 0) x.epoch (min c p) ep })).resend c
    let s2 := (s1.wf (a_DMC_RAS_STAT c) f_DMC_RAS_STAT_FAILED_OVER 1).wf (a_DMC_RAS_STAT p) f_DMC_RAS_STAT_FAILED_OVER 1
    .next (s2.logArea.hostEv 0x0509 2 (710 + c) 0 (c + p * 2 ^ 8 + f.cause * 2 ^ 16 + ep * 2 ^ 24) (s.time.mt - f.start))
  | _, _ => .next s

/-- HBM_ROW_REPAIR of a row that needs it: a spare row of the bank's two is used, or none is left and replacement is requested. For the log of a repair the spec names no LINE, and does not say whether PATROL tells what found the errors: free values (DESIGN CHOICE, notes/assumptions/105.md). -/
def execHbmRowRepair (st pc bank row : Nat) (s : State) : Host.Outcome State Fault Refusal :=
  let r : HbmRow := ⟨st, pc, bank, row⟩
  .next (if !s.memx.repairDue.contains r then s
    else
      let s1 := s.updMem (fun x => { x with repairDue := x.repairDue.erase r })
      let used := s.rf (a_HMC_RAS_STAT st) f_HMC_RAS_STAT_REPAIRS
      let w2 := st + pc * 2 ^ 8 + bank % 32 * 2 ^ 16 + row % 2 ^ 18 * 2 ^ 24
      if (s.memx.repairs.filter (fun x => x.stack == st && x.pc == pc && x.bank == bank)).length < 2 then
        let s2 := (s1.tick.updMem (fun x => { x with repairs := x.repairs ++ [r] })).addSat (a_HMC_RAS_STAT st) f_HMC_RAS_STAT_REPAIRS 1 |>.logArea
        (s2.hmcLog st 4 none ⟨0, 0, 0, 0, row, bank, pc⟩ (s1.freePatrol == 1)).1.hostEv 0x050C 2 (742 + st) 0 w2 (used + 1)
      else (s1.wf (a_HMC_RAS_STAT st) f_HMC_RAS_STAT_EXHAUSTED 1).replaceReq 2 0x050D (742 + st) w2 used)

/-! ### Patrol scrub (R266) -/

/-- Inverse of the placement function: the block whose index and quotient are (i, q) among n targets (R248). -/
def unplace (i q n : Nat) : Nat := q * n + (i + n * (q + 1) - q % n - q / n % n) % n

/-- Lines a unit holds, and the physical line at a patrol position, if the position is in a node. In cached mode a stack's positions are its cache entries. -/
def State.patrolLines (s : State) (u : Nat) : Nat × (Nat → Option Nat) :=
  if u < 16 then
    let c := match s.partner u with | some p => min u p | none => u
    match (List.range 8).find? (fun n => s.rf (a_MSH_NODE n) f_MSH_NODE_VALID == 1 && s.rf (a_MSH_NODE n) f_MSH_NODE_KIND == 1 && (s.ddrTargets n).contains c) with
    | none => (0, fun _ => none)
    | some n =>
      let ts := s.ddrTargets n
      (s.rf (a_MSH_NODE n) f_MSH_NODE_SIZE * 2 ^ 24 / ts.length,
       fun k => some (s.nodeBase n / 64 + 4 * unplace (ts.findIdx (fun x => x == c)) (k / 4) ts.length + k % 4))
  else if s.hbmCached then (805306368, fun k => (s.hbmEnt (hbmKey (u - 16) k)).map (·.line))
  else
    match (List.range 8).find? (fun n => s.rf (a_MSH_NODE n) f_MSH_NODE_VALID == 1 && s.rf (a_MSH_NODE n) f_MSH_NODE_KIND == 0 && (s.rf (a_MSH_NODE n) f_MSH_NODE_MEMBERS).testBit (u - 16)) with
    | none => (0, fun _ => none)
    | some n =>
      let ss := membersOf (s.rf (a_MSH_NODE n) f_MSH_NODE_MEMBERS)
      let per := 805306368 / 32
      (805306368, fun k => some (s.nodeBase n / 64 +
        4 * unplace (32 * ss.findIdx (fun x => x == u - 16) + k / per) (k % per / 4) (32 * ss.length) + k % 4))

/-- A patrol read at a position of a unit: an injected error of its line is found there, another is handled under the error rules. An invalid entry of a cache holds no line, but its metadata, with the ECC of their halves, are read (R250, R267, R282). -/
def State.patrolRead (s : State) (u k : Nat) (line : Option Nat) (e : MemErr) : State :=
  match line with
  | some l => if s.memx.inject.any (fun x => x.1 == l) then s.injFound u l true else s.memErr u (some l) e true
  | none => if 16 ≤ u && s.hbmCached && (e.kind = 1 || e.kind = 6 || e.kind = 7) then s.hbmErr (u - 16) none (some k) e true else s

/-- Where a patrol read at a position of a unit is served. -/
def State.patrolAt (s : State) (u k : Nat) (line : Option Nat) : MemAt :=
  if 16 ≤ u && s.hbmCached then ⟨u, Config.cachePc (u - 16) k % 32, 64 * k⟩ else (line.bind (s.heldAt u)).getD ⟨u, 0, 0⟩

/-- A patrol read is issued to DRAM: counted as unclassed traffic (11 R334, 19 R584, R588), with its refreshes and its activate as of any access (R255, R257). -/
def State.patrolIssue (s : State) (u : Nat) (m : MemAt) (line : Option Nat) : State :=
  let pa := line.map (fun l => 64 * l)
  ((s.countUnc (memBlk u) 8 none 0x040 { unclassed := true } .read pa 64).accBw u 0 64).touchRow m { unclassed := true } .read pa

/-- PATROL_SCRUB: when no request waits to be picked, since patrol has the lowest priority, the next line is read and handled under the error rules; SCRUB_POS moves, and a complete pass is counted. A unit in self-refresh is not scrubbed: the spec does not say whether a patrol read would wake it (DESIGN CHOICE, notes/assumptions/115.md). -/
def execPatrolScrub (u : Nat) (e : MemErr) (s : State) : Host.Outcome State Fault Refusal :=
  .next (
    let (n, at') := s.patrolLines u
    if !s.memHere u || s.rf (memReg u 0x28) f_DMC_RAS_CTL_SCRUB_EN = 0 || n = 0 || s.inSr u then s
    else
      let k := smGet (fun _ => 0) s.memx.patrol u
      let m := s.patrolAt u k (at' k)
      if s.memx.reqs.any (fun r => r.loc.sch == m.sch && s.pickable r) then s
      else
      let s1 := (s.tick.patrolIssue u m (at' k)).patrolRead u k (at' k) e
      let k' := (k + 1) % n
      let s2 := (s1.updMem (fun x => { x with patrol := smSet (fun _ => 0) x.patrol u k' })).wf (memReg u 0x30) f_DMC_RAS_STAT_SCRUB_POS (65536 * k' / n)
      if k' = 0 then s2.countUnc (memBlk u) 8 none 0x045 { unclassed := true } .none none 1 else s2)

/-! ### Galley commands (17 R532) -/

/-- Unit of a memory TARGET. -/
def memTarget (t : Nat) : Nat := if t < 726 then t - 710 else t - 742 + 16

/-- MEM_STATUS. -/
def execMemStatus (r : Nat) (s : State) : Host.Outcome State Fault Refusal :=
  .next (s.galNow r 0x0501 (fun s c => let u := memTarget c.target; (s, ⟨0, s.reg (memReg u 0x30), s.reg (memReg u 0)⟩)))

/-- MEM_RETRAIN: the training's outcome comes with the command. -/
def execMemRetrain (r pc : Nat) (ok : Bool) (s : State) : Host.Outcome State Fault Refusal :=
  .next (s.galNow r 0x0502 (fun s c =>
    let u := memTarget c.target
    let dead := if u < 16 then !s.chTrained u || s.chFailed u else (List.range 32).all (fun p => s.memx.pcFailed.contains (32 * (u - 16) + p))
    if dead then (s, gBusy)
    else if ok then (s, gDone)
    else (s.retrained u pc false, gFailed)))

/-- ERR_INJECT: the line of a DRAM or HBM address is marked. -/
def execErrInject (r : Nat) (s : State) : Host.Outcome State Fault Refusal :=
  .next (s.galNow r 0x0503 (fun s c =>
    let k := c.par 1 0 2
    let a := (c.word 2).toNat
    if k = 0 || k = 3 || s.paKind a != .mem then (s, gBadParam)
    else (s.updMem (fun x => { x with inject := (x.inject.filter (fun y => y.1 != a / 64)) ++ [(a / 64, k)] }), gDone)))

/-! ### Register writes (R273–R277, R280) -/

/-- Value a controller register takes from the value its fields' access types give: a write outside a stated range leaves SCHED, URGENT, P_LOG2 and DEV_THRESH unchanged (R273–R275, R277). SR_IDLE has a range but no outcome for a write of 0: the field is kept (DESIGN CHOICE, notes/assumptions/105.md). -/
def memCtlValue (off unit : Nat) (old v : Word) : Word :=
  let hi := if unit < 16 then 48 else 24
  if off = 0x08 then
    (if fld v 0 6 < 2 || hi < fld v 0 6 || fld v 0 6 ≤ fld v 8 6 || fld v 16 16 = 0 then old else v)
  else if off = 0x10 then keepField old v (8, 4) (fld v 8 4 == 0 || decide (8 < fld v 8 4))
  else if off = 0x18 then keepField old v (0, 5) (decide (fld v 0 5 < 8) || decide (16 < fld v 0 5))
  else if off = 0x20 then keepField old v (16, 16) (fld v 16 16 == 0)
  else if off = 0x28 && decide (unit < 16) then keepField old v (8, 8) (fld v 8 8 == 0)
  else v

end Sys2Proof.Machine
end

