-- ==== Sys2Proof/Machine/Router.lean ====
section
/-! DEFINITION. The Interrupt Router: translation of inputs, posting records, TAKE, physical interrupts, Express (spec/11_tenancy.md R316–R333). -/
namespace Sys2Proof.Machine

/-- Number of logical threads in service. -/
def State.nThreads (s : State) : Nat := 4 * s.activeCores
/-- Change the router's state. -/
def State.updRtr (s : State) (f : RtrSt → RtrSt) : State := { s with rtr := f s.rtr }
/-- The record loaded on a thread. -/
def State.loadedOn (s : State) (t : Nat) : Option LoadedRec := smGet (fun _ => none) s.rtr.recs t
/-- Load, change or remove the record on a thread. -/
def State.setRec (s : State) (t : Nat) (r : Option LoadedRec) : State := s.updRtr (fun x => { x with recs := smSet (fun _ => none) x.recs t r })
/-- Pending physical INTIDs of a thread (R327). -/
def State.physOf (s : State) (t : Nat) : BitVec 256 := smGet (fun _ => 0) s.rtr.phys t
/-- Replace the pending physical INTIDs of a thread. -/
def State.setPhys (s : State) (t : Nat) (v : BitVec 256) : State := s.updRtr (fun x => { x with phys := smSet (fun _ => 0) x.phys t v })
/-- Make a physical INTID pending. -/
def State.raisePhys (s : State) (t id : Nat) : State := s.setPhys t (s.physOf t ||| (1#256 <<< id))
/-- A doorbell starts towards a thread's core (R323). -/
def State.ringBell (s : State) (t : Nat) : State := s.updRtr (fun x => { x with bells := x.bells ++ [t] })

/-- Is a VMID blocked from a step of its reset on (2 at the IOTU, 4 at the router) until it is released (R339, R340)? A second reset in a slot that was DONE leaves the block in force. -/
def State.vmidBlocked (s : State) (step vmid : Nat) : Bool :=
  (List.range 8).any (fun i =>
    let r := s.reg (a_QOS_TRST_SLOT i)
    bit r 16 && fld r 0 16 == vmid && (bit r 17 || decide (step ≤ fld r 19 3) || (smGet (fun _ => none) s.rtr.trst i).any (·.again)))

/-- Words read by the router as Normal write-back memory free of poison (R320). -/
def State.rtrRead (s : State) (a : Nat) : Option Word := (s.readVal a 8).map (BitVec.ofNat 64)
/-- A write by the router; false when it fails. -/
def State.rtrWrite (s : State) (a n v : Nat) : State × Bool :=
  if s.isMem a && !s.memFailed (a / 64) then (s.writeVal a n v 0, true) else (s, false)

/-- IRT_FAULT (R320): severity 0 to the Host queue, or the Secure queue when the failing entry lies in a Secure region; one record per source and ms. -/
def State.irtFault (s : State) (x : IrtSrc) (vmid cause entry : Nat) : State :=
  -- a read of the entry that fails in CXL.mem is an error of its own (14 R428)
  let s := if (cause == 1 || cause == 3) && s.cxlLost entry then s.cxlError entry 3 else s
  let key := x.num + x.internal.toNat * 2 ^ 20
  let last := smGet (fun _ => 0) s.ev.irtWin key
  if last != 0 && decide (s.time.mt + 1 < last + 1000000) then s
  else
    let s1 := { s with ev := { s.ev with irtWin := smSet (fun _ => 0) s.ev.irtWin key (s.time.mt + 1) } }
    let w2 := x.num % 2 ^ 20 + x.internal.toNat * 2 ^ 20 + (x.ev % 2 ^ 16) * 2 ^ 21 + cause * 2 ^ 37
    s1.post (if (s.smrOf entry).isSome then 0 else 1) ⟨0x0301, 0, 797, vmid, s.time.mt, BitVec.ofNat 64 w2, 0⟩

/-! ### Posting records (R321–R326) -/

/-- Address of the pending table that word 2 of a record names. -/
def ptableOf (w2 : Word) : Nat := fld w2 7 45 * 128

/-- The doorbell interrupt of a record that is not loaded (R323 step 4); false when it is refused under cause 3. -/
def State.dbRaise (s : State) (addr : Nat) (w0 : Word) : State × Bool :=
  if bit w0 11 then (s, true)
  else
    let id := fld w0 32 8
    let th := fld w0 16 10
    if 191 < id || s.nThreads ≤ th then (s, false)
    else
      let (s1, ok) := s.rtrWrite addr 8 (setBit w0 11 true).toNat
      if ok then (s1.raisePhys th id, true) else (s, false)

/-- Thread on which a record is loaded. -/
def State.threadOfRec (s : State) (addr : Nat) : Option Nat :=
  (s.rtr.recs.find? (fun e => match e.2 with | some r => r.addr == addr | none => false)).map (·.1)

/-- Count a coalesced post (R323 step 1). -/
def State.coalesced (s : State) : State :=
  s.wf a_IRT_CNT_COALESCED f_IRT_CNT_COALESCED_VALUE (s.rf a_IRT_CNT_COALESCED f_IRT_CNT_COALESCED_VALUE + 1)

/-- Write a loaded record's word 1 and pending table through to memory; false when a write fails. -/
def State.writeThrough (s : State) (r : LoadedRec) : State × Bool :=
  let (s1, a) := s.rtrWrite (r.addr + 8) 8 r.prio.toNat
  let (s2, b) := s1.rtrWrite r.ptable 128 r.pend.toNat
  (s2, a && b)

/-- Posting vINTID v to the record at an address for a VMID (R323). The Boolean is false for a fault of cause 3. -/
def State.postV (s : State) (addr vmid v : Nat) : State × Bool :=
  match s.threadOfRec addr with
  | some n =>
    match s.loadedOn n with
    | none => (s, false)
    | some r =>
      if r.vmid != vmid then (s, false)
      else if r.pend.getLsbD v then (s.coalesced, true)
      else
        let r1 := { r with pend := r.pend ||| (1#1024 <<< v), prio := r.prio ||| (1#32 <<< (v / 32)) }
        let (s1, ok) := (s.setRec n (some r1)).writeThrough r1
        (s1.ringBell n, ok)
  | none =>
    match s.rtrRead addr, s.rtrRead (addr + 8), s.rtrRead (addr + 16) with
    | some w0, some w1, some w2 =>
      if fld w0 48 16 != vmid then (s, false)
      else
        match s.readVal (ptableOf w2) 128 with
        | none => (s, false)
        | some p =>
          if p.testBit v then (s.coalesced, true)
          else
            let (s1, a) := s.rtrWrite (ptableOf w2 + v / 8) 1 ((p >>> (v / 8 * 8)) % 256 ||| 2 ^ (v % 8))
            if !a then (s1, false)
            else
              let (s2, b) := s1.rtrWrite (addr + 8) 8 (w1 ||| (1#64 <<< (v / 32))).toNat
              if !b then (s2, false) else s2.dbRaise addr w0
    | _, _, _ => (s, false)

/-- Unloading the record on a thread (R324): the on-chip copy is written, RESIDENT cleared, the PENDING flag withdrawn, and the doorbell interrupt raised when something is pending. A write that fails is reported and the record is unloaded nevertheless (R320). -/
def State.recUnload (s : State) (n : Nat) : State :=
  match s.loadedOn n with
  | none => s
  | some r =>
    let (s1, a) := s.writeThrough r
    let s2 := (s1.setRec n none).updThr n (fun th => { th with pendFlag := false })
    let x : IrtSrc := ⟨false, (Config.freeWord s.freeCtr 0x301).toNat % 2 ^ 20, 0⟩
    match s2.rtrRead r.addr with
    | none => s2.irtFault x r.vmid 3 r.addr
    | some w0 =>
      let w := setBit w0 0 false
      let (s3, b) := s2.rtrWrite r.addr 8 w.toNat
      let s4 := if a && b then s3 else s3.irtFault x r.vmid 3 r.addr
      if r.prio != 0 && !s.vmidBlocked 4 r.vmid then
        let (s5, c) := s4.dbRaise r.addr w
        if c then s5 else s5.irtFault x r.vmid 3 r.addr
      else s4

/-- Loading the record at an address on a thread (R324). Answers RESULT. -/
def State.recLoad (s : State) (n addr : Nat) : State × Nat :=
  let s0 := s.recUnload n
  match s0.rtrRead addr, s0.rtrRead (addr + 8), s0.rtrRead (addr + 16) with
  | some w0, some w1, some w2 =>
    if bit w0 0 then (s0, 1)
    else
      match s0.readVal (ptableOf w2) 128 with
      | none => (s0, 2)
      | some p =>
        let w := setFld (setBit (setBit w0 0 true) 11 false) 1 10 n
        let (s1, _) := s0.rtrWrite addr 8 w.toNat
        let r : LoadedRec := ⟨addr, fld w0 48 16, w1.setWidth 32, ptableOf w2, BitVec.ofNat 1024 p⟩
        let s2 := s1.setRec n (some r)
        (if r.prio != 0 then s2.ringBell n else s2, 0)
  | _, _, _ => (s0, 2)

/-- A write to IRT_THR_n (R347). -/
def State.irtThr (s : State) (n : Nat) (v : Word) : State :=
  let off := a_IRT_THR n
  if bit v 0 then
    let (s1, r) := s.recLoad n (fld v 7 45 * 128)
    s1.setReg off (setFld (setBit (v &&& 0x000FFFFFFFFFFF80#64) 0 (r == 0)) 2 2 r)
  else (s.recUnload n).setReg off (v &&& 0x000FFFFFFFFFFF80#64)

/-! ### Translation of inputs (R317–R320) -/

/-- Key of a device or internal table entry. -/
def IrtSrc.key (x : IrtSrc) : Nat := x.num + x.internal.toNat * 2 ^ 20

/-- Address of the table entry of a source, if the table has one. -/
def State.dtAddr (s : State) (x : IrtSrc) : Option Nat :=
  let r := s.reg (if x.internal then a_IRT_IT else a_IRT_DT)
  let n := if x.internal then 512 else 2 ^ fld r 52 5
  if bit r 0 && decide (x.num < n) then some (fld r 12 40 * 4096 + 16 * x.num) else none

/-- Read a 16-byte table entry if it is valid. -/
def State.entryAt (s : State) (a : Nat) : Option (Word × Word) :=
  match s.rtrRead a, s.rtrRead (a + 8) with
  | some w0, some w1 => if bit w0 0 then some (w0, w1) else none
  | _, _ => none

/-- Does the router still hold a cached copy it may use? Which copies it keeps is a free choice (notes/assumptions/5.md). -/
def State.keeps (s : State) (k : Nat) : Bool := Config.pick s.freeCtr (3000 + k) % 2 == 0

/-- The device or internal table entry of a source, from the cache or memory; valid entries are cached, and one found invalid is not: no copy of it stays (R319). -/
def State.dtEntry (s : State) (x : IrtSrc) : State × Option (Word × Word) :=
  match smGet (fun _ => none) s.rtr.dt x.key, s.keeps x.key with
  | some e, true => (s, some e)
  | _, _ =>
    let e := (s.dtAddr x).bind s.entryAt
    (s.updRtr (fun r => { r with dt := smSet (fun _ => none) r.dt x.key e }), e)

/-- Address of the ITT entry of an event under a table entry, if the ITT holds it (R318, R319). -/
def ittAddr (d : Word × Word) (ev : Nat) : Option Nat :=
  if ev < 2 ^ fld d.1 1 5 then some (fld d.1 8 44 * 256 + 16 * ev) else none

/-- The ITT entry of an event, cached in the same way. -/
def State.ittEntry (s : State) (x : IrtSrc) (d : Word × Word) : State × Option (Word × Word) :=
  let k := x.key * 2 ^ 16 + x.ev
  match smGet (fun _ => none) s.rtr.itt k, s.keeps k with
  | some e, true => (s, some e)
  | _, _ =>
    let e := (ittAddr d x.ev).bind s.entryAt
    (s.updRtr (fun r => { r with itt := smSet (fun _ => none) r.itt k e }), e)

/-- Follow an Express interrupt until it is taken (R333): one record for one interrupt. -/
def State.trackExpress (s : State) (e : Express) : State :=
  if s.rtr.express.any (fun y => y.virt == e.virt && y.id == e.id && y.tgt == e.tgt) then s else s.updRtr (fun r => { r with express := r.express ++ [e] })
/-- A thread's physical INTIDs that are acknowledged or discarded are followed no more. -/
def State.endExpress (s : State) (t : Nat) (p : Nat → Bool) : State :=
  s.updRtr (fun r => { r with express := r.express.filter (fun e => e.virt || e.tgt != t || !p e.id) })
/-- Does the on-chip copy of a loaded record hold a vINTID pending, whatever became of its write-through (R320)? -/
def State.pendsOnChip (s : State) (addr vmid v : Nat) : Bool :=
  match (s.threadOfRec addr).bind s.loadedOn with
  | some r => r.vmid == vmid && r.pend.getLsbD v
  | none => false

/-- Deliver a translated input (R319, R320, R323, R327). -/
def State.irtDeliver (s : State) (x : IrtSrc) (d it : Word × Word) (arrival : Nat) : State :=
  let vmid := fld d.2 0 16
  let id := fld it.1 8 10
  let ex (tgt : Nat) (s : State) : State := if bit it.1 2 then s.trackExpress ⟨x, arrival, bit it.1 1, id, tgt, vmid⟩ else s
  if bit it.1 1 then
    let addr := fld it.2 7 45 * 128
    let (s1, ok) := s.postV addr vmid id
    let s2 := if ok || s1.pendsOnChip addr vmid id then ex addr s1 else s1
    if ok then s2 else s2.irtFault x vmid 3 addr
  else
    let th := fld it.1 32 10
    ex th (s.raisePhys th id)

/-- The checks of an ITT entry that sends a physical interrupt (R319, R320): only for VMID 0, an INTID and a THREAD in range, the Secure bank only from a Secure region. -/
def State.physFault (s : State) (x : IrtSrc) (d it : Word × Word) : Option State :=
  let vmid := fld d.2 0 16
  let ia := (ittAddr d x.ev).getD 0
  let id := fld it.1 8 10
  if bit it.1 1 then none
  else if vmid != 0 then some (s.irtFault x vmid 2 ia)
  else if 255 < id || s.nThreads ≤ fld it.1 32 10 then some (s.irtFault x vmid 1 ia)
  else if 192 ≤ id && (s.smrOf ia).isNone then some (s.irtFault x vmid 4 ia)
  else none

/-- Translate an input: its device or internal table entry and its ITT entry, from a pinned slot before any table or cache; one that cannot be translated is reported (R316–R320, R330). -/
def State.irtTranslate (s : State) (x : IrtSrc) (ctxVmid : Option Nat) : State × Option ((Word × Word) × (Word × Word)) :=
  if !bit (s.reg a_IRT_CTL) 0 then (s.irtFault x (ctxVmid.getD 0) 1 ((s.dtAddr x).getD 0), none)
  else
    let go (s : State) (d : Word × Word) (it : State → State × Option (Word × Word)) : State × Option ((Word × Word) × (Word × Word)) :=
      let vmid := fld d.2 0 16
      let da := (s.dtAddr x).getD 0
      if (match ctxVmid with | some v => v != vmid | none => false) then (s.irtFault x vmid 2 da, none)
      else if s.vmidBlocked 4 vmid then (s.irtFault x vmid 5 da, none)
      else
        match it s with
        | (s1, none) => (s1.irtFault x vmid 1 ((ittAddr d x.ev).getD 0), none)
        | (s1, some e) =>
          match s1.physFault x d e with
          | some s2 => (s2, none)
          | none => (s1, some (d, e))
    match s.rtr.pins.find? (fun p => p.src == x) with
    | some p => go s p.dt (fun s => (s, some p.it))
    | none =>
      match s.dtEntry x with
      | (s1, none) => (s1.irtFault x (ctxVmid.getD 0) 1 ((s.dtAddr x).getD 0), none)
      | (s1, some d) => go s1 d (fun s => s.ittEntry x d)

/-- An input of the router: an MSI with the VMID of its context, or an internal interrupt (R316–R320). -/
def State.irtInput (s : State) (x : IrtSrc) (ctxVmid : Option Nat) (arrival : Nat) : State :=
  match s.irtTranslate x ctxVmid with
  | (s1, some (d, e)) => s1.irtDeliver x d e arrival
  | (s1, none) => s1

/-! ### IRT_TCMD (R346) -/

/-- Keep PINNED equal to the slots in use. -/
def State.countPins (s : State) : State := s.wf a_IRT_CTL f_IRT_CTL_PINNED s.rtr.pins.length

/-- Both table entries of an input read afresh from memory. -/
def State.freshEntries (s : State) (x : IrtSrc) : Option ((Word × Word) × (Word × Word)) :=
  match (s.dtAddr x).bind s.entryAt with
  | none => none
  | some d =>
    match (ittAddr d x.ev).bind s.entryAt with
    | none => none
    | some e => some (d, e)

/-- Reload pinned entries that an invalidation covers; one no longer valid or no longer Express is unpinned (R330). -/
def State.reloadPins (s : State) (cov : IrtSrc → Bool) : State :=
  (s.updRtr (fun r => { r with pins := r.pins.filterMap (fun p =>
    if cov p.src then
      match s.freshEntries p.src with
      | some (d, e) => if bit e.1 2 then some ⟨p.src, d, e⟩ else none
      | none => none
    else some p) })).countPins

/-- OP of IRT_TCMD: the new state and RESULT. -/
def State.irtOp (s : State) (op : Nat) (x : IrtSrc) : State × Nat :=
  if op = 1 then
    ((s.updRtr (fun r => { r with dt := smErase x.key r.dt, itt := r.itt.filter (fun e => e.1 / 2 ^ 16 != x.key) })).reloadPins
      (fun y => y.internal == x.internal && y.num == x.num), 0)
  else if op = 2 then ((s.updRtr (fun r => { r with dt := [], itt := [] })).reloadPins (fun _ => true), 0)
  else if op = 3 then
    if s.rtr.pins.any (fun p => p.src == x) then (s, 0)
    else
      match s.freshEntries x with
      | none => (s, 2)
      | some (d, e) =>
        if !bit e.1 2 then (s, 2)
        else if 256 ≤ s.rtr.pins.length then (s, 1)
        else ((s.updRtr (fun r => { r with pins := r.pins ++ [⟨x, d, e⟩] })).countPins, 0)
  else if op = 4 then ((s.updRtr (fun r => { r with pins := r.pins.filter (fun p => !(p.src == x)) })).countPins, 0)
  else (s, 3)

/-- A write to IRT_TCMD that starts its OP; it completes at once, so BUSY reads 0 again. -/
def State.irtTcmd (s : State) (v : Word) : State :=
  if bit v 63 then
    let (s1, r) := s.irtOp (fld v 0 4) ⟨bit v 4, fld v 5 20, fld v 25 16⟩
    s1.setReg a_IRT_TCMD (setBit (setFld v 41 3 r) 63 false)
  else s.setReg a_IRT_TCMD v

/-- A read of IRT_ACK_N_n or IRT_ACK_S_n (R327, R348): the lowest pending INTID of the bank, cleared by the read. -/
def State.irtAck (s : State) (n : Nat) (secure clear : Bool) : State × Word :=
  let p := s.physOf n
  let id := if secure then 192 + ctzAux (p.toNat / 2 ^ 192) 64 else ctzAux p.toNat 192
  let none' := if secure then p.toNat / 2 ^ 192 = 0 else p.toNat % 2 ^ 192 = 0
  if none' then (s, 0)
  else (if clear then (s.setPhys n (p &&& ~~~(1#256 <<< id))).endExpress n (fun i => i == id) else s, BitVec.ofNat 64 (id + 256))

/-! ### Virtual interrupts at the core (R325) -/

/-- Do the conditions of R325 hold for a thread and a record's VMID? -/
def State.virtOk (s : State) (t vmid : Nat) : Bool :=
  let th := s.thr t
  !th.secure && s.vmen t && s.vmid t == vmid && (th.pl == 0 || (th.pl == 1 && th.ie))

/-- A vINTID handed back: posted again under R323; nothing of a blocked VMID. -/
def State.handBack (s : State) (k : TakeSt) (v : Nat) : State :=
  if s.vmidBlocked 4 k.vmid then s
  else
    let (s1, ok) := s.postV k.recAddr k.vmid v
    if ok then s1 else s1.irtFault ⟨false, (Config.freeWord s.freeCtr 0x302).toNat % 2 ^ 20, v⟩ k.vmid 3 k.recAddr

/-- The TAKE outstanding for a thread. -/
def State.takeOf (s : State) (t : Nat) : Option TakeSt := smGet (fun _ => none) s.rtr.takes t
/-- Set or end a thread's TAKE. -/
def State.setTake (s : State) (t : Nat) (k : Option TakeSt) : State := s.updRtr (fun r => { r with takes := smSet (fun _ => none) r.takes t k })

/-- The TAKE outstanding for a thread ends; its vINTID goes back to the record (R325). -/
def State.returnTake (s : State) (t : Nat) : State :=
  match s.takeOf t with
  | none => s
  | some k => match k.reply with
    | none => s.setTake t none
    | some v => (s.setTake t none).handBack k v

/-- A frozen core's thread: a vINTID in transit goes back to the router, and PENDING is set when it was set or a TAKE was outstanding (R329). -/
def State.freezeTake (s : State) (t : Nat) : State :=
  let th := s.thr t
  if !th.pendFlag && (s.takeOf t).isNone then s
  else (s.returnTake t).updThr t (fun th => { th with pendFlag := true, takeOut := false, vint := none })

/-- Does a vINTID that a TAKE returned still meet R325: its record loaded on the thread, and the conditions on the thread met? -/
def State.takeOk (s : State) (t : Nat) (k : TakeSt) : Bool :=
  match s.loadedOn t with
  | some r => r.addr == k.recAddr && s.virtOk t r.vmid
  | none => false

/-- The router serves a TAKE (R325): the lowest pending vINTID is removed and returned; the flag is set again if others remain. -/
def State.serveTake (s : State) (t : Nat) (r : LoadedRec) : State :=
  if s.vmidBlocked 4 r.vmid || r.pend.toNat = 0 then s.setTake t (some ⟨r.addr, r.vmid, none⟩)
  else
    let v := ctzAux r.pend.toNat 1024
    let p := r.pend &&& ~~~(1#1024 <<< v)
    let left := (p.toNat >>> (v / 32 * 32)) % 2 ^ 32
    let r1 := { r with pend := p, prio := if left = 0 then r.prio &&& ~~~(1#32 <<< (v / 32)) else r.prio }
    let (s1, ok) := (s.setRec t (some r1)).writeThrough r1
    let s2 := if ok then s1 else s1.irtFault ⟨false, (Config.freeWord s.freeCtr 0x303).toNat % 2 ^ 20, v⟩ r.vmid 3 r.addr
    let s3 := if p.toNat = 0 then s2 else s2.updThr t (fun th => { th with pendFlag := true })
    s3.setTake t (some ⟨r.addr, r.vmid, some v⟩)

/-- An interrupt taken by a thread to a level (02 R53, R57), counted by EXC_TAKEN. -/
def State.takeIrq (s : State) (t lvl : Nat) (e : Exc) : State :=
  ((s.dropStaged t).countThr t 0x01B .none none 1).enterExc t lvl .irq e

/-- Is the thread inside an instruction that no interrupt divides (R57): a TLBI that waits, or a load issued to a port whose completion is outstanding? -/
def State.midInstr (s : State) (t : Nat) : Bool := s.iot.tlbis.any (fun w => w.thread == t) || s.port.out.any (fun o => o.kind == 0 && o.owner == t)

/-- Where a pending physical interrupt of a thread would be taken now, with XSYN.INFO (R57, R327; 15 R460): the Secure bank first. -/
def State.physTarget (s : State) (t : Nat) : Option (Nat × Nat × Nat) :=
  let th := s.thr t
  let p := (s.physOf t).toNat
  let sec := p / 2 ^ 192
  let nor := p % 2 ^ 192
  if s.midInstr t then none
  else if sec != 0 && (decide (th.pl < 3) || th.ie) then some (3, 0, 192 + ctzAux sec 64)
  else if nor = 0 then none
  else if th.secure then (if th.pl ≤ 1 then some (3, 1, ctzAux nor 192) else none)
  else
    let l := if s.vmen t then 2 else 1
    if th.pl < l || (th.pl == l && th.ie) then some (l, 0, ctzAux nor 192) else none

/-- Is an interrupt for the thread pending, whether or not it can be taken (R87, R329)? -/
def State.irqPending (s : State) (t : Nat) : Bool :=
  (s.physOf t).toNat != 0 || (s.thr t).pendFlag || (s.thr t).vint.isSome || (s.takeOf t).isSome

/-! ### Commands -/

/-- INTERNAL_INTERRUPT (R317, R318): a raised internal interrupt is translated; one that nothing has raised has no effect. -/
def execInternalInterrupt (src ev : Nat) (s : State) : Host.Outcome State Fault Refusal :=
  .next (match s.ev.irqs.find? (fun e => e.src == src && e.ev == ev) with
    | none => s
    | some e => ({ s with ev := { s.ev with irqs := s.ev.irqs.erase e } }).tick.irtInput ⟨true, src, ev⟩ none e.mt)

/-- DOORBELL (R323 step 3): a doorbell in flight sets the PENDING flag of its thread. -/
def execDoorbell (t : Nat) (s : State) : Host.Outcome State Fault Refusal :=
  .next (if s.rtr.bells.contains t then
    let s1 := s.updRtr (fun r => { r with bells := r.bells.erase t })
    if (s.loadedOn t).isSome then s1.updThr t (fun th => { th with pendFlag := true }) else s1
  else s)

/-- TAKE (R325): sent at an instruction boundary at which the conditions hold. -/
def execTake (t : Nat) (s : State) : Host.Outcome State Fault Refusal :=
  .next (match s.loadedOn t with
    | none => s
    | some r =>
      let th := s.thr t
      if s.canRun t && th.pendFlag && !th.takeOut && th.vint.isNone && s.virtOk t r.vmid then
        (s.tick.updThr t (fun th => { th with pendFlag := false, takeOut := true })).serveTake t r
      else s)

/-- TAKE_REPLY (R325): a vINTID reaches the core, to be taken at the next boundary or handed back; NONE ends the TAKE. -/
def execTakeReply (t : Nat) (s : State) : Host.Outcome State Fault Refusal :=
  .next (match s.takeOf t with
    | none => s
    | some k =>
      if !(s.thr t).takeOut then s
      else
        let s1 := s.tick.updThr t (fun th => { th with takeOut := false })
        match k.reply with
        | none => s1.setTake t none
        | some v =>
          if s1.takeOk t k then s1.updThr t (fun th => { th with vint := some v })
          else (s1.setTake t none).handBack k v)

/-- IRQ_VIRT (R325): the returned vINTID is taken to level 1 while the conditions still hold, and handed back when they do not. -/
def execIrqVirt (t : Nat) (s : State) : Host.Outcome State Fault Refusal :=
  .next (match (s.thr t).vint, s.takeOf t with
    | some v, some k =>
      if !s.canRun t || s.midInstr t then s
      else
        let s1 := (s.tick.updThr t (fun th => { th with vint := none })).setTake t none
        if s1.takeOk t k then
          (s1.updRtr (fun r => { r with express := r.express.filter (fun e => !(e.virt && e.id == v && e.tgt == k.recAddr)) })).takeIrq t 1
            { code := 0x41, info := v, vec := (s.thr t).midVec }
        else s1.handBack k v
    | _, _ => s)

/-- IRQ_PHYS (R57, R327; 15 R460): a pending physical interrupt is taken at an instruction boundary when it may be. -/
def execIrqPhys (t : Nat) (s : State) : Host.Outcome State Fault Refusal :=
  .next (if s.canRun t then
    match s.tick.physTarget t with
    | none => s
    | some (lvl, info, id) =>
      (s.tick.updRtr (fun r => { r with express := r.express.filter (fun e => !(!e.virt && e.id == id && e.tgt == t)) })).takeIrq t lvl
        { code := 0x40, info := info, vec := (s.thr t).midVec }
  else s)

end Sys2Proof.Machine
end

