-- ==== Sys2Proof/Machine/Iotu.lean ====
section
/-! DEFINITION. The I/O translation unit: contexts, device translations, faults, MSIs, ATS, invalidation; and device accesses to memory (spec/10_translation.md R298–R304, spec/02_programmers_model.md R39). -/
namespace Sys2Proof.Machine

/-- Change the IOTU's state. -/
def State.updIot (s : State) (f : IotSt → IotSt) : State := { s with iot := f s.iot }

/-! ### Contexts (R299, R302) -/

/-- QoS class of a context. -/
def IotCtx.cls (c : IotCtx) : Nat := fld c.w0 8 6
/-- Tenant of a context. -/
def IotCtx.vmid (c : IotCtx) : Nat := fld c.w0 16 16
/-- VMID that tags a context's translations: Secure entries carry 0 (R295). -/
def IotCtx.tag (c : IotCtx) : Nat := if c.sec then 0 else c.vmid
/-- ASID of a context. -/
def IotCtx.asid (c : IotCtx) : Nat := fld c.w0 32 16
/-- Is ATS permitted? -/
def IotCtx.ats (c : IotCtx) : Bool := bit c.w0 3

/-- A device fault: cause, whether at stage 2, level (R300). -/
structure IoFault where
  cause : Nat
  s2 : Bool := false
  lvl : Nat := 0
  deriving DecidableEq, Repr

/-- Address of a stream's context (R299), or cause 1. -/
def State.ctxAddr (s : State) (stream : Nat) : Option Nat :=
  let r := s.reg (a_IOT_SRC (stream / 65536))
  if 10 ≤ stream / 65536 || !bit r 0 || decide (2 ^ fld r 52 5 ≤ stream % 65536) then none
  else some (fld r 12 40 * 4096 + 64 * (stream % 65536))

/-- Read a stream's context from memory (R299, R300 causes 1 and 4). -/
def State.ctxRead (s : State) (stream : Nat) : Except IoFault IotCtx :=
  match s.ctxAddr stream with
  | none => .error { cause := 1 }
  | some a =>
    match s.rtrRead a, s.rtrRead (a + 8), s.rtrRead (a + 16) with
    | some w0, some w1, some w2 =>
      if bit w0 0 then .ok ⟨w0, w1, w2, bit w0 5 && (s.smrOf a).isSome, false⟩ else .error { cause := 1 }
    | _, _, _ => .error { cause := 4 }

/-- Resident contexts (R302). -/
def IotSt.pinned (x : IotSt) : Nat := (x.ctxs.filter (fun e => match e.2 with | some c => c.pin | none => false)).length
/-- Keep IOT_INV_STAT.PINNED equal to the resident contexts. -/
def State.countCtx (s : State) : State := s.wf a_IOT_INV_STAT f_IOT_INV_STAT_PINNED s.iot.pinned

/-- Cache a context: PIN makes it resident while fewer than 256 are; a full cache of 512 loses one that is not resident. -/
def State.ctxPut (s : State) (stream : Nat) (c : IotCtx) : State :=
  let want := bit c.w0 4
  let room := decide (s.iot.pinned < 256)
  let loose := s.iot.ctxs.filter (fun e => match e.2 with | some c => !c.pin | none => false)
  let base := if s.iot.ctxs.length < 512 then s.iot.ctxs
    else match loose[Config.pick s.freeCtr 21 % loose.length]? with
      | some e => smErase e.1 s.iot.ctxs
      | none => s.iot.ctxs
  let s1 := s.updIot (fun x => { x with ctxs := smSet (fun _ => none) base stream (some { c with pin := want && room }) })
  (if want && !room then s1.wf a_IOT_INV_STAT f_IOT_INV_STAT_PIN_FAILED 1 else s1).countCtx

/-- The context of a stream: a resident one, a cached one unless it has been evicted meanwhile (a free choice), or from memory. -/
def State.ctxOf (s : State) (stream : Nat) : State × Except IoFault IotCtx :=
  if !bit (s.reg a_IOT_CTL) 0 then (s, .error { cause := 1 })
  else
    let load : State × Except IoFault IotCtx :=
      match s.ctxRead stream with
      | .error f => (s, .error f)
      | .ok c => (s.ctxPut stream c, .ok c)
    match smGet (fun _ => none) s.iot.ctxs stream with
    | some c => if c.pin || s.keeps (2 ^ 21 + stream) then (s, .ok c) else load
    | none => load

/-! ### Faults (R300) -/

/-- IO_FAULT: to the Host queue, or the Secure queue for a SEC context; one record per stream and ms, the rest counted. -/
def State.ioFault (s : State) (stream iova : Nat) (write : Bool) (c : Option IotCtx) (f : IoFault) : State :=
  -- a context read that fails in CXL.mem is an error of its own (14 R428)
  let s := if c.isNone && f.cause == 4 then (match s.ctxAddr stream with | some a => if s.cxlLost a then s.cxlError a 3 else s | none => s) else s
  let last := smGet (fun _ => 0) s.ev.ioWin stream
  if last != 0 && decide (s.time.mt + 1 < last + 1000000) then s.addSat a_IOT_FAULT_STAT f_IOT_FAULT_STAT_SUPPRESSED 1
  else
    let s1 := { s with ev := { s.ev with ioWin := smSet (fun _ => 0) s.ev.ioWin stream (s.time.mt + 1) } }
    let w3 := stream % 2 ^ 20 + f.cause * 2 ^ 20 + write.toNat * 2 ^ 24 + f.s2.toNat * 2 ^ 25 + (f.lvl % 8) * 2 ^ 26
    s1.post (if (match c with | some c => c.sec | none => false) then 0 else 1)
      ⟨0x0701, 0, 796, (c.map (·.vmid)).getD 0, s.time.mt, BitVec.ofNat 64 iova, BitVec.ofNat 64 w3⟩

/-! ### Translation (R299, R303, R287–R292) -/

/-- A translated device address: physical address and size of its page in bits, whether writes were granted with D set. -/
structure DevXl where
  pa : Nat
  szl : Nat
  wr : Bool
  deriving DecidableEq, Repr

/-- Fault of a table walk as a device fault. -/
def XFault.dev (f : XFault) : IoFault :=
  { cause := match f.kind with | .trans => 2 | .perm => 3 | .walk => 4 | .unmapped => 7, s2 := f.s2, lvl := f.info }

/-- Device permission: RD for reads, WR for writes, both for atomics; U is ignored (R299). -/
def devPermits (k : AccKind) (rd wr : Bool) : Bool := (!k.reads || rd) && (!k.writes || wr)

/-- Translation of an IOVA under a context. `ats` asks for a translation only: nothing is refused for its kind and D is not set. -/
def State.devWalk (s : State) (stream iova : Nat) (c : IotCtx) (k : AccKind) (ats : Bool) : Except (IoFault × List Nat) (DevXl × List AdUpd × List Nat × Option IoTlb) :=
  let s1en := bit c.w0 1
  let s2en := bit c.w0 2
  let g : XTag := ⟨1000, c.sec, 3, c.tag, c.asid⟩
  let root2 := fld c.w2 12 40 * 4096
  let wrk := k.writes && !ats
  if s1en && !(iova / 2 ^ 56 == 0 || iova / 2 ^ 56 == 0xFF) then .error ({ cause := 2, lvl := 5 }, [])
  else
    let st1 : Except (XFault × Wk) (Option (LeafAt × Option LeafAt × Nat) × Nat × Wk) :=
      if s1en then
        match s.s1Go g (if s2en then some root2 else none) (fld c.w1 12 40 * 4096) iova 5 4 (fld c.w1 12 40 * 4096) Wk.none with
        | .error x => .error x
        | .ok (l, l2, tbl, w) => .ok (some (l, l2, tbl), l.out, w)
      else .ok (none, iova, Wk.none)
    match st1 with
    | .error (f, w) => .error (f.dev, w.viol)
    | .ok (l1, out, w) =>
      let e1 : Word := match l1 with | some (l, _, _) => l.ent | none => 0x37F#64
      let sz1 := match l1 with | some (l, _, _) => 12 + 9 * l.lvl | none => 64
      if !ats && !devPermits k (bit e1 2) (bit e1 3) then .error ({ cause := 3 }, w.viol)
      else
        let upd1 := match l1 with | some (l, _, _) => adOf l wrk | none => []
        let fin (pa szl : Nat) (e2 : Word) (upd : List AdUpd) (w : Wk) : DevXl × List AdUpd × List Nat × Option IoTlb :=
          let dOk := (bit e1 9 || wrk) && (bit e2 9 || wrk)
          let wr := bit e1 3 && bit e2 3
          (⟨pa, szl, wr && dOk⟩, w.upd ++ upd, w.viol,
           some ⟨stream, iova / 2 ^ szl, szl, c.sec, c.tag, c.asid, s1en && bit e1 7, pa / 2 ^ szl * 2 ^ szl, bit e1 2, bit e1 3, bit e2 2, bit e2 3,
             max (if s1en then fld e1 10 2 else 0) (if s2en then fld e2 10 2 else 0), dOk⟩)
        if s2en then
          match s.s2Walk g root2 out false w with
          | .error (f, w2) => .error (f.dev, w2.viol)
          | .ok (l2, w2) =>
            if !ats && !devPermits k (bit l2.ent 2) (bit l2.ent 3) then .error ({ cause := 3, s2 := true }, w2.viol)
            else
              let tu : Except IoFault (List AdUpd) := match l1 with
                | some (_, some tl, _) => if upd1.isEmpty then .ok [] else if bit tl.ent 3 then .ok (adOf tl true) else .error { cause := 3, s2 := true }
                | _ => .ok []
              match tu with
              | .error f => .error (f, w2.viol)
              | .ok tu => .ok (fin l2.out (min sz1 (12 + 9 * l2.lvl)) l2.ent (adOf l2 wrk ++ upd1 ++ tu) w2)
        else if s1en then .ok (fin out sz1 0x37F#64 upd1 w)
        else .ok (⟨iova, 52, true⟩, [], [], none)

/-- A cached translation that serves the request. -/
def State.devHit (s : State) (stream iova : Nat) (c : IotCtx) (k : AccKind) : Option IoTlb :=
  s.iot.tlb.find? (fun e => e.stream == stream && e.vpage == iova / 2 ^ e.szl && e.sec == c.sec && e.vmid == c.tag && (e.glob || e.asid == c.asid) &&
    (!k.writes || e.dirty))

/-- A Normal device access to a Secure line is a violation (02 R39; 15 R457). -/
def State.devViol (s : State) (stream kind a : Nat) (c : IotCtx) : State :=
  s.secViol (448 + (s.homeLoc (a / 64)).elim 0 (·.slice)) c.vmid 1 stream kind a
/-- A table read of a device's walk that was refused, or failed in CXL.mem (14 R428). -/
def State.devWalkBad (s : State) (stream a : Nat) (c : IotCtx) : State := if !c.sec && s.lineSec (a / 64) then s.devViol stream 1 a c else s.cxlError a 3

/-- The MSI window (R301). -/
def State.inMsi (s : State) (iova : Nat) : Bool := iova / 65536 == s.rf a_IOT_MSI_BASE f_IOT_MSI_BASE_BASE

/-- Does the memory type refuse an access: an atomic outside Normal write-back memory (R291, R292; 02 R62)? -/
def State.devRefused (s : State) (k : AccKind) (pa attr : Nat) : Bool := k == .atomic && (s.paKind pa == .mmio || attr != 0)

/-- What a device request's translation answers: the state, and an address with its context and memory attribute, or a recorded fault. A read of the MSI window is faulted with cause 7 (R301), and so is an atomic, which reads (notes/assumptions/99.md). Of several conditions of R300 the one tested first gives CAUSE: 1, then 7 for the window, 5, 6, and what the translation finds; the spec gives no order (DESIGN CHOICE, notes/assumptions/117.md). A and D are set only for an access that goes ahead (R291). -/
def State.devXlate (s : State) (stream iova : Nat) (k : AccKind) (translated : Bool) : State × Option (Nat × IotCtx × Nat) :=
  match s.ctxOf stream with
  | (s1, .error f) => (s1.ioFault stream iova k.writes none f, none)
  | (s1, .ok c) =>
    let bad (s : State) (f : IoFault) : State × Option (Nat × IotCtx × Nat) := (s.ioFault stream iova k.writes (some c) f, none)
    let done (s : State) (pa attr : Nat) : State × Option (Nat × IotCtx × Nat) :=
      match s.paKind pa with
      | .unmapped | .ccs | .rom => bad s { cause := 7 }
      | _ => (s, some (pa, c, attr))
    if !translated && s1.inMsi iova && k.reads then bad s1 { cause := 7 }
    else if s1.vmidBlocked 2 c.vmid then bad s1 { cause := 5 }
    else if translated then
      if !c.ats || !bit (s1.reg a_IOT_CTL) 1 || s1.iot.dead.contains stream then bad s1 { cause := 6 } else done s1 iova 0
    else
      match s1.devHit stream iova c k with
      | some e =>
        if !devPermits k e.rd e.wr then bad s1 { cause := 3 }
        else if !devPermits k e.rd2 e.wr2 then bad s1 { cause := 3, s2 := true }
        else done s1 (e.pa + iova % 2 ^ e.szl) e.attr
      | none =>
        match s1.devWalk stream iova c k false with
        | .error (f, viol) => bad (viol.foldl (fun s a => s.devWalkBad stream a c) s1) f
        | .ok (x, upd, viol, ent) =>
          let s2 := viol.foldl (fun s a => s.devWalkBad stream a c) s1
          let attr := (ent.map (·.attr)).getD 0
          match done s2 x.pa attr with
          | (s3, none) => (s3, none)
          | (s3, some r) =>
            if s3.devRefused k x.pa attr then (s3, some r)
            else
            let s4 := upd.foldl State.setAd s3
            (match ent with
             | some e => s4.updIot (fun y => { y with tlb := putBounded 8192 s.freeCtr 22 (y.tlb.filter (fun z => !(z.stream == stream && z.vpage == e.vpage && z.szl == e.szl))) e })
             | none => s4, some r)

/-! ### Device accesses to memory -/

/-- Requester data of a device for counting. -/
def devRqr (stream : Nat) (c : IotCtx) : Rqr := { stream := some stream, vmid := c.vmid, sec := c.sec }

/-- QoS class of a stream's requests (11 R334): a Barge channel's own (13 R387), else its context's. -/
def State.reqCls (s : State) (stream : Nat) (c : IotCtx) : Nat :=
  if 0x90000 ≤ stream && decide (stream < 0x90080) then s.rf (a_BRG_CH_QOS ((stream - 0x90000) / 8) ((stream - 0x90000) % 8)) f_BRG_CH_QOS_CLASS else c.cls

/-- Read `n` bytes at a physical address for a device: the data, with whether any line was poisoned; a refused line reads zero. -/
def State.devReadPa (s : State) (stream : Nat) (c : IotCtx) (pa n : Nat) : State × List Byte × Bool :=
  (List.range ((pa + n - 1) / 64 + 1 - pa / 64)).foldl (fun (x : State × List Byte × Bool) i =>
    let line := pa / 64 + i
    let lo := max pa (64 * line)
    let k := min (pa + n) (64 * line + 64) - lo
    if !c.sec && x.1.lineSec line then (x.1.devViol stream 1 lo c, x.2.1 ++ leBytes k 0, x.2.2)
    else if !x.1.isMem lo then (x.1, x.2.1 ++ leBytes k 0, x.2.2)
    else
      let (bs, p) := x.1.readBytes lo k
      let s1 := (x.1.noteTry (.read line)).countCur 224 line (s.reqCls stream c) (devRqr stream c)
      (s1, x.2.1 ++ bs, x.2.2 || p)) (s, [], false)

/-- Write bytes at a physical address for a device; a refused line is unchanged; `ep` leaves the poison mark (14 R424). -/
def State.devWritePa (s : State) (stream : Nat) (c : IotCtx) (pa : Nat) (bs : List Byte) (ep : Bool := false) : State :=
  (List.range ((pa + bs.length - 1) / 64 + 1 - pa / 64)).foldl (fun s i =>
    let line := pa / 64 + i
    let lo := max pa (64 * line)
    let k := min (pa + bs.length) (64 * line + 64) - lo
    if !c.sec && s.lineSec line then s.devViol stream 2 lo c
    else
      (s.writeBytes lo ((bs.drop (lo - pa)).take k) (s.reqCls stream c) ep).drainEvs (devRqr stream c) .write) s

/-- Split [a, a + n) at 4 KiB boundaries of its address: first address and length of each part. -/
def pageParts : Nat → Nat → Nat → List (Nat × Nat)
  | 0, _, _ => []
  | f + 1, a, n => if n = 0 then [] else let k := min n (4096 - a % 4096); (a, k) :: pageParts f (a + k) (n - k)

/-- An MSI write (R301; 11 R317): not page-translated; the router has the stream and its context's VMID. A size other than 4 bytes is discarded with cause 1. Answers false when the IOTU faults it (R300). -/
def State.msiWrite (s : State) (stream iova n data : Nat) : State × Bool :=
  match s.ctxOf stream with
  | (s1, .error f) => (s1.ioFault stream iova true none f, false)
  | (s1, .ok c) =>
    let p := stream / 65536
    let s2 := if p < 9 then s1.countUnc (portBase p + 0x200) 8 none 0x052 (devRqr stream c) .write none 1 else s1
    (if n = 4 then s2.irtInput ⟨false, stream, data % 65536⟩ (some c.vmid) s.time.mt else s2.irtFault ⟨false, stream, data % 65536⟩ c.vmid 1 ((s2.dtAddr ⟨false, stream, 0⟩).getD 0), true)

/-- What a device request comes to: no completion (a posted write), data with the poison mark, an Unsupported Request, a Completer Abort, or nothing until another port's device has answered (14 R424). -/
inductive DevR where
  | none
  | data (bs : List Byte) (poison : Bool)
  | unsupported
  | abort
  | wait
  deriving DecidableEq, Repr

/-- What one part of a device read comes to: a fault, its data, or a request to another port's device. -/
inductive PartR where
  | fault
  | data (bs : List Byte) (poison : Bool)
  | sent

/-- One part, within a page, of a device read; `id` is the read's number. A part in a port's slot goes to the device there, under its own tag (14 R424, R430); all ones answer where no link carries it (14 R423, R432, R440). -/
def State.devReadPart (s : State) (stream iova n : Nat) (tr : Bool) (id : Nat) : State × PartR :=
  match s.devXlate stream iova .load tr with
  | (s1, none) => (s1, .fault)
  | (s1, some (pa, c, _)) =>
    if s1.paKind pa = .mmio then
      match s1.mmioTo pa n with
      | .closed => (s1, .data (leBytes n (onesOf n)) false)
      | .own l r => (s1, .data (leBytes n (s1.rootRead (slotOf pa) l r n)) false)
      | .unclaimed => (s1.unclaimed (slotOf pa) true, .data (leBytes n (onesOf n)) false)
      | .link l => ((s1.noteTry (.tag (slotOf pa) l)).issue (slotOf pa) l 4 id pa (s1.mmioBus pa) n 0 iova, .sent)
    else let (s2, bs, p) := s1.devReadPa stream c pa n; (s2, .data bs p)

/-- What a device read has so far: whether a part has faulted, and its parts. -/
structure ReadSoFar where
  fault : Bool
  parts : List (Nat × Option (List Byte × Bool))

/-- Data and poison mark of parts that have all been answered. -/
def partsData (l : List (Nat × Option (List Byte × Bool))) : DevR :=
  .data (l.flatMap (fun x => (x.2.map (·.1)).getD [])) (l.any (fun x => (x.2.map (·.2)).getD false))

/-- A device read (R299): parts in order; a fault in any part is the whole request's. One with parts at another port's device is completed when they have all been answered. -/
def State.devRead (s : State) (stream iova n : Nat) (tr : Bool) : State × DevR :=
  let id := s.port.peerSeq + 1
  let x := (pageParts (n / 4096 + 2) iova n).foldl (fun (x : State × ReadSoFar) p =>
    if x.2.fault then x
    else match x.1.devReadPart stream p.1 p.2 tr id with
      | (s1, .fault) => (s1, ⟨true, x.2.parts⟩)
      | (s1, .data cs q) => (s1, ⟨false, x.2.parts ++ [(p.1, some (cs, q))]⟩)
      | (s1, .sent) => (s1, ⟨false, x.2.parts ++ [(p.1, none)]⟩)) (s, ⟨false, []⟩)
  if x.2.parts.all (fun y => y.2.isSome) then (x.1, if x.2.fault then .unsupported else partsData x.2.parts)
  else
    let s1 : State := { x.1 with port := { x.1.port with peerSeq := id } }
    if x.2.fault then (s1.dropOuts (fun o => o.kind == 4 && o.owner == id), .unsupported)
    else ({ s1 with port := { s1.port with peers := s1.port.peers ++ [⟨id, stream, iova, x.2.parts⟩] } }, .wait)

/-- One part, within a page, of a device write (R299, R301); answers false when it faulted. -/
def State.devWritePart (s : State) (stream iova : Nat) (bs : List Byte) (tr ep : Bool) : State × Bool :=
  if s.inMsi iova && !tr then s.msiWrite stream iova bs.length (leVal bs)
  else
    match s.devXlate stream iova .store tr with
    | (s1, none) => (s1, false)
    | (s1, some (pa, c, _)) =>
      if s1.paKind pa = .mmio then (s1.mmioPost pa bs.length (leVal bs) ep, true)
      else (s1.devWritePa stream c pa bs ep, true)

/-- A device write (R299, R301). Answers false when any part faulted; a part that faulted is discarded. -/
def State.devWrite (s : State) (stream iova : Nat) (bs : List Byte) (tr : Bool) (ep : Bool := false) : State × Bool :=
  (pageParts (bs.length / 4096 + 2) iova bs.length).foldl (fun (x : State × Bool) p =>
    let (s1, ok) := x.1.devWritePart stream p.1 ((bs.drop (p.1 - iova)).take p.2) tr ep
    (s1, x.2 && ok)) (s, true)

/-- A device atomic (R292, 08 R232; 14 R424): performed at the home of its line; the old value is the completion. Only Normal write-back memory serves it. One refused at a Secure line changes nothing, returns zero, and is recorded once, as a write (15 R458). -/
def State.devAtomic (s : State) (stream iova n : Nat) (tr : Bool) (f : Nat → Nat) : State × DevR :=
  match s.devXlate stream iova .atomic tr with
  | (s1, none) => (s1, .unsupported)
  | (s1, some (pa, c, attr)) =>
    if s1.devRefused .atomic pa attr then (s1, .abort)
    else if !c.sec && s1.lineSec (pa / 64) then (s1.devViol stream 2 pa c, .data (leBytes n 0) false)
    else
      let (s2, bs, p) := s1.devReadPa stream c pa n
      if p then (s2, .data bs true)
      else (s2.devWritePa stream c pa (leBytes n (f (leVal bs))), .data bs false)

/-- Perform a device request. -/
def State.devDo (s : State) (stream iova : Nat) (op : DevOp) (tr : Bool) : State × DevR :=
  match op with
  | .read n => s.devRead stream iova n tr
  | .write bs => ((s.devWrite stream iova bs tr).1, .none)
  | .fetchAdd n v => s.devAtomic stream iova n tr (fun o => (o + v) % 2 ^ (8 * n))
  | .swap n v => s.devAtomic stream iova n tr (fun _ => v)
  | .cas n c v => s.devAtomic stream iova n tr (fun o => if o = c % 2 ^ (8 * n) then v else o)

/-- A request that may carry a PASID prefix: one that does is answered as an Unsupported Request, a posted write being discarded (R298). -/
def State.devPasid (s : State) (stream iova : Nat) (op : DevOp) (tr pasid : Bool) : State × DevR :=
  if pasid then (s, match op with | .write _ => .none | _ => .unsupported) else s.devDo stream iova op tr

/-- Port a stream's completions return through; Barge streams have none. -/
def portOfStream (stream : Nat) : Option Nat :=
  if stream / 65536 < 8 then some (stream / 65536) else if stream / 65536 = 8 then some 8 else none

/-- Send a completion to a device, or keep where to send it once its read has been answered: kind 3 with data, 4 an Unsupported Request, 8 a Completer Abort, 5 with the poison (EP) mark. -/
def State.complete (s : State) (stream iova : Nat) (r : DevR) : State :=
  match portOfStream stream, r with
  | _, .wait => { s with port := { s.port with peers := s.port.peers.map (fun x => if x.id = s.port.peerSeq then { x with stream := stream, addr := iova } else x) } }
  | some p, .data bs po => s.transmit ⟨p, if po then 5 else 3, iova, bs.length, leVal bs⟩
  | some p, .unsupported => s.transmit ⟨p, 4, iova, 0, 0⟩
  | some p, .abort => s.transmit ⟨p, 8, iova, 0, 0⟩
  | _, _ => s

/-! ### Invalidation (R294–R296, R303, R311) -/

/-- Send an ATS Invalidate to each device of the given streams that are affected. The spec gives no range for it: it covers the whole stream, which then holds no translation (DESIGN CHOICE, notes/assumptions/99.md). -/
def State.sendInv (s : State) (p : AtsGiven → Bool) (owner : Option Nat) : State :=
  let hit := ((s.iot.given.filter p).map (·.stream)).dedup
  let s1 := s.updIot (fun x => { x with given := x.given.filter (fun g => !hit.contains g.stream), inv := x.inv ++ hit.map (fun g => ⟨g, s.time.mt, owner⟩) })
  hit.foldl (fun s g => match portOfStream g with | some q => s.transmit ⟨q, 6, g, 0, 0⟩ | none => s) s1

/-- IOT_INV of one stream or of all: contexts and translations are removed; contexts that were resident and still have PIN are loaded again. -/
def State.iotInv (s : State) (stream : Nat) (all preload : Bool) : State :=
  let hits (k : Nat) : Bool := all || k == stream
  let pinned := (s.iot.ctxs.filter (fun e => hits e.1 && (match e.2 with | some c => c.pin | none => false))).map (·.1)
  let s1 := (s.updIot (fun x => { x with
    ctxs := x.ctxs.filter (fun e => !hits e.1), tlb := x.tlb.filter (fun e => !hits e.stream), dead := x.dead.filter (fun k => !hits k) })).countCtx
  let s2 := s1.sendInv (fun g => hits g.stream) none
  let again := pinned ++ (if preload && !pinned.contains stream then [stream] else [])
  again.foldl (fun s k => match s.ctxRead k with
    | .ok c => if pinned.contains k && k != stream && !bit c.w0 4 then s else if k == stream && !preload && !bit c.w0 4 then s else s.ctxPut k c
    | .error _ => s) s2

/-- IOT_INV's BUSY clears once no Invalidate it caused is outstanding (R303) and no request translated before it (R304). -/
def State.invBusy (s : State) : State :=
  if s.iot.invReqs.isEmpty && !bit (s.reg a_IOT_INV) 63 then s
  else if s.iot.inv.any (fun x => x.owner.isNone) || s.stillOut s.iot.invReqs then s else (s.updIot (fun x => { x with invReqs := [] })).wf a_IOT_INV f_IOT_INV_BUSY 0

/-- A write to IOT_INV with BUSY = 1 (R311). -/
def State.iotInvWrite (s : State) (v : Word) : State :=
  let s1 := s.setReg a_IOT_INV v
  if bit v 63 then ((s1.updIot (fun x => { x with invReqs := s.readsOut })).iotInv (fld v 0 20) (bit v 20) (bit v 21)).invBusy else s1

/-- A TLBI as the IOTU performs it (R294, R299). -/
def State.iotTlbi (s : State) (hit : Nat → Nat → Bool → Nat → Nat → Bool → Bool) (thread : Nat) : State :=
  -- hit: page number, page bits, Secure, VMID, ASID, global
  let s1 := s.updIot (fun x => { x with tlb := x.tlb.filter (fun e => !hit e.vpage e.szl e.sec e.vmid e.asid e.glob) })
  s1.sendInv (fun g => hit 0 64 g.sec g.vmid g.asid g.glob) (some thread)

/-! ### Commands -/

/-- DEVICE_REQUEST (R298–R300): a device's request is translated and performed; a read or atomic is completed. -/
def execDeviceRequest (stream iova : Nat) (op : DevOp) (tr : Bool) (s : State) (pasid : Bool := false) : Host.Outcome State Fault Refusal :=
  .next (s.tick.unlessHeld (fun s => let (s1, r) := s.devPasid stream iova op tr pasid; s1.complete stream iova r))

/-- MSI_WRITE (R301). A write outside the window is a device write. -/
def execMsiWrite (stream iova : Nat) (data : BitVec 32) (s : State) : Host.Outcome State Fault Refusal :=
  .next (s.tick.unlessHeld (fun s => (s.devWrite stream iova (leBytes 4 data.toNat) false).1))

/-- ATS_TRANSLATION_REQUEST (R303): one with a PASID prefix is an Unsupported Request (R298); else the combined translation, at most 1 GiB, the write right only with D = 1; a translation that would fault gives no right and records IO_FAULT. A valid page with neither right completes with none and records nothing: the spec does not call it a fault (DESIGN CHOICE, notes/assumptions/99.md). -/
def execAtsTranslationRequest (stream iova : Nat) (s : State) (pasid : Bool := false) : Host.Outcome State Fault Refusal :=
  .next (
    if pasid then s.tick.complete stream iova .unsupported
    else
    let s0 := s.tick
    let no (s : State) : State := match portOfStream stream with | some p => s.transmit ⟨p, 7, iova, 0, 0⟩ | none => s
    match s0.ctxOf stream with
    | (s1, .error f) => no (s1.ioFault stream iova false none f)
    | (s1, .ok c) =>
      if !c.ats || !bit (s1.reg a_IOT_CTL) 1 then no (s1.ioFault stream iova false (some c) { cause := 6 })
      else if s1.vmidBlocked 2 c.vmid then no (s1.ioFault stream iova false (some c) { cause := 5 })
      else
        match s1.devWalk stream iova c .load true with
        | .error (f, viol) => no ((viol.foldl (fun s a => s.devWalkBad stream a c) s1).ioFault stream iova false (some c) f)
        | .ok (x, upd, viol, ent) =>
          let s2 := viol.foldl (fun s a => s.devWalkBad stream a c) s1
          match s2.paKind x.pa with
          | .unmapped | .ccs | .rom => no (s2.ioFault stream iova false (some c) { cause := 7 })
          | _ =>
            let rd := match ent with | some e => e.rd && e.rd2 | none => true
            let szl := min x.szl 30
            let s3 := upd.foldl State.setAd s2
            let s4 := s3.updIot (fun y => { y with given := AtsGiven.mk stream c.sec c.tag c.asid ((ent.map (·.glob)).getD false) :: y.given.filter (· != AtsGiven.mk stream c.sec c.tag c.asid ((ent.map (·.glob)).getD false)) })
            match portOfStream stream with
            | some p => s4.transmit ⟨p, 7, x.pa / 2 ^ szl * 2 ^ szl, 2 ^ szl, rd.toNat + 2 * x.wr.toNat⟩
            | none => s4)

/-- ATS_INV_COMPLETION (R303): a device's completion of an Invalidate lets its TLBI or IOT_INV proceed. -/
def execAtsInvCompletion (stream : Nat) (s : State) : Host.Outcome State Fault Refusal :=
  .next (match s.iot.inv.find? (fun x => x.stream == stream) with
    | none => s
    | some v => (s.updIot (fun x => { x with inv := x.inv.erase v })).invBusy)

/-- ATS_INV_TIMEOUT (R303): an Invalidate not completed within TIMEOUT is recorded, and the device's translated requests fault until its context is invalidated. -/
def execAtsInvTimeout (stream : Nat) (s : State) : Host.Outcome State Fault Refusal :=
  .next (
    let tmo := s.rf a_IOT_ATS_CTL f_IOT_ATS_CTL_TIMEOUT
    match s.iot.inv.find? (fun x => x.stream == stream && decide (x.start + 1000 * tmo ≤ s.time.mt)) with
    | none => s
    | some v =>
      let s1 := s.hostEv 0x0702 3 796 0 (stream % 2 ^ 20) tmo
      (s1.updIot (fun x => { x with inv := x.inv.erase v, dead := if x.dead.contains stream then x.dead else stream :: x.dead })).invBusy)

end Sys2Proof.Machine
end

