-- ==== Sys2Proof/Machine/Sha.lean ====
section
/-! DEFINITION. SHA-384 (FIPS 180-4), which spec/15_security.md R468 names for the mailbox. Its constants are computed from the roots that define them. -/
namespace Sys2Proof.Machine

/-- The primes up to the eightieth, 409. -/
def shaPrimes : List Nat := (List.range 410).filter (fun p => decide (2 ≤ p) && (List.range p).all (fun d => d < 2 || p % d != 0))
/-- The whole n-th root of x above r, one bit at a time from bit b − 1 down. -/
def rootFrom (n x : Nat) : Nat → Nat → Nat
  | 0, r => r
  | b + 1, r => rootFrom n x b (if (r + 2 ^ b) ^ n ≤ x then r + 2 ^ b else r)
/-- The first 64 bits of the fraction of the n-th root of p. -/
def rootFraction (n p : Nat) : Word := BitVec.ofNat 64 (rootFrom n (p * 2 ^ (64 * n)) 68 0)

/-- Chaining value: eight words. -/
abbrev ShaSt := Vector Word 8
/-- The initial value of SHA-384: fractions of the square roots of the ninth to sixteenth primes. -/
def ShaSt.init : ShaSt := Vector.ofFn (fun i => rootFraction 2 (shaPrimes.getD (8 + i.val) 0))
/-- The exclusive or of a word rotated right by each amount. -/
def rotMix (x : Word) (by' : List Nat) : Word := by'.foldl (fun acc n => acc ^^^ x.rotateRight n) 0#64

/-- Word t of the message schedule: the block's own, then a mix of the words 2, 7, 15 and 16 before it. -/
def extendSchedule (w : List Word) : List Word :=
  let back (n : Nat) : Word := w.getD (w.length - n) 0#64
  w ++ [back 16 + back 7 + (rotMix (back 15) [1, 8] ^^^ back 15 >>> 7) + (rotMix (back 2) [19, 61] ^^^ back 2 >>> 6)]

/-- One round, with the sum of its constant and its schedule word. -/
def ShaSt.round (v : ShaSt) (kw : Word) : ShaSt :=
  let choose := (v[4] &&& v[5]) ||| (~~~v[4] &&& v[6])
  let most := (v[0] &&& v[1]) ||| (v[2] &&& (v[0] ||| v[1]))
  let fresh := v[7] + rotMix v[4] [14, 18, 41] + choose + kw
  Vector.ofFn (fun i => if i.val = 0 then fresh + rotMix v[0] [28, 34, 39] + most else if i.val = 4 then v[3] + fresh else v[i.val - 1]!)

/-- A big-endian number of bytes. -/
def ofBigEndian : List Byte → Nat
  | [] => 0
  | b :: r => b.toNat * 256 ^ r.length + ofBigEndian r

/-- The chaining value after the rest of a padded message, at most n blocks of 128 bytes. -/
def ShaSt.absorb (h : ShaSt) : Nat → List Byte → ShaSt
  | 0, _ => h
  | n + 1, msg =>
    let own := (List.range 16).map (fun i => BitVec.ofNat 64 (ofBigEndian ((msg.drop (8 * i)).take 8)))
    let sched := (List.range 64).foldl (fun w _ => extendSchedule w) own
    let out := (List.zipWith (fun p w => rootFraction 3 p + w) shaPrimes sched).foldl ShaSt.round h
    ShaSt.absorb (Vector.ofFn (fun i => h[i] + out[i])) n (msg.drop 128)

/-- The 48-byte digest of a message: it is padded with a 1 bit, zeros and its length in bits to whole blocks. -/
def sha384 (m : List Byte) : List Byte :=
  let blocks := m.length / 128 + (if m.length % 128 < 112 then 1 else 2)
  let msg := m ++ 0x80#8 :: List.replicate (128 * blocks - m.length - 17) 0#8 ++ (leBytes 16 (8 * m.length)).reverse
  let h := ShaSt.init.absorb blocks msg
  (h.toList.take 6).flatMap (fun w => (leBytes 8 w.toNat).reverse)

end Sys2Proof.Machine
end

