-- ==== Sys2Proof/Machine/Tollhouse.lean ====
section
/-! DEFINITION. The Tollhouse: mailbox, debug enables, the secure watchdog, secure memory regions, the CCS map (spec/15_security.md R461–R488). -/
namespace Sys2Proof.Machine

/-- Change the Tollhouse's own state. -/
def State.updTol (s : State) (f : TolSt → TolSt) : State := { s with tol := f s.tol }
/-- LIFECYCLE: 0 DEVELOPMENT, 1 PRODUCTION, 2 RETURNED (R465). -/
def State.lifecycle (s : State) : Nat := s.rf a_TOL_CTL f_TOL_CTL_LIFECYCLE
/-- DEVICE_ID: the fuse value of the chip (R465; notes/assumptions/6.md). -/
def deviceId : Nat := (Config.freeWord 0x465 0).toNat

/-! ### Secure memory regions and the CCS map (R461–R464, R481–R483) -/

/-- May an enabling write of a region succeed (R462)? -/
def State.smrOk (s : State) (n : Nat) (v : Word) : Bool :=
  let lo := fld v 21 31 * 2 ^ 21
  let hi := lo + fld v 2 19 * 2 ^ 21
  fld v 2 19 != 0 && s.lifecycle != 2 &&
    (decide (hi ≤ 0x000A000000000000) || (decide (0x000A000000000000 ≤ lo) && decide (hi ≤ 0x000E000000000000))) &&
    (List.range 64).all (fun m => m == n || s.rf (a_TOL_SMR m) f_TOL_SMR_EN == 0 ||
      decide (hi ≤ s.rf (a_TOL_SMR m) f_TOL_SMR_BASE * 2 ^ 21) ||
      decide ((s.rf (a_TOL_SMR m) f_TOL_SMR_BASE + s.rf (a_TOL_SMR m) f_TOL_SMR_SIZE) * 2 ^ 21 ≤ lo))

/-- A write to TOL_SMR_n (R462, R463): enabling draws a fresh key, disabling destroys it. -/
def State.smrWrite (s : State) (n : Nat) (v : Word) : State :=
  let off := a_TOL_SMR n
  let old := s.reg off
  let lock (x : Word) : Word := if bit v 52 then setBit x 52 true else x
  if bit old 52 then s
  else if bit old 0 then
    if bit v 0 then s.setReg off (lock old)
    else { s.setReg off (lock (setBit old 0 false)) with smrKey := smSet (fun _ => 0) s.smrKey n 0 }
  else
    let prog := lock (setFld (setFld (setFld 0 2 19 (fld v 2 19)) 21 31 (fld v 21 31)) 1 1 (fld old 1 1))
    if !bit v 0 then s.setReg off prog
    else if s.smrOk n v then
      { s.setReg off (setBit (setBit prog 0 true) 1 false) with smrKey := smSet (fun _ => 0) s.smrKey n (s.keyGen + 1), keyGen := s.keyGen + 1 }
    else s.setReg off (setBit prog 1 true)

/-- A write to TOL_CCS_MAP_i (R461, R482): nothing once MAP_LOCK is 1; the Colophon's bits stay 0. -/
def State.mapWrite (s : State) (i : Nat) (v : Word) : State :=
  if bit (s.reg a_TOL_CTL) 0 then s else s.setReg (a_TOL_CCS_MAP i) (if i = 0 then setFld v 0 16 0 else v)

/-! ### The mailbox (R468, R488) -/

/-- Does a buffer lie wholly in one enabled region? -/
def State.bufOk (s : State) (a n : Nat) : Bool :=
  match s.smrOf a with
  | some k => decide (a + n ≤ (s.rf (a_TOL_SMR k) f_TOL_SMR_BASE + s.rf (a_TOL_SMR k) f_TOL_SMR_SIZE) * 2 ^ 21)
  | none => false

/-- A write to TOL_MBX_CMD: OP is written, GO starts it; while GO is 1 a further GO is ignored. -/
def State.mbxWrite (s : State) (v : Word) : State :=
  if s.tol.mbx.isSome then s.setReg a_TOL_MBX_CMD v
  else
    let s1 := s.setReg a_TOL_MBX_CMD v
    if bit v 63 then s1.updTol (fun x => { x with mbx := some ⟨fld v 0 4, (List.range 4).map (fun i => (s.reg (a_TOL_MBX_ARG i)).toNat)⟩ }) else s1

/-- Bytes read by the Tollhouse. -/
def State.tolRead (s : State) (a n : Nat) : List Byte := (s.readBytes a n).1

/-- The device sealing key in force (R468). -/
def State.sealingKey (s : State) : BitVec 256 := Config.sealKey Config.rootKey s.tol.rollback
/-- AES-256-GCM's counter mode: adding the key stream encrypts, and adding it again decrypts (R468). -/
def gcmCrypt (key : BitVec 256) (nonce bs : List Byte) : List Byte := bs.mapIdx (fun i b => b ^^^ Config.gcmStream key nonce i)
/-- A sealed blob: nonce, cipher text and tag (R468). -/
def gcmSeal (key : BitVec 256) (nonce bs : List Byte) : List Byte :=
  let c := gcmCrypt key nonce bs
  nonce ++ c ++ leBytes 16 (Config.gcmTag key nonce c).toNat
/-- The plain text of a sealed blob, or none when its tag fails (R468). -/
def gcmOpen (key : BitVec 256) (blob : List Byte) : Option (List Byte) :=
  let nonce := blob.take 12
  let c := (blob.drop 12).take (blob.length - 28)
  if blob.drop (blob.length - 16) = leBytes 16 (Config.gcmTag key nonce c).toNat then some (gcmCrypt key nonce c) else none

/-- What a mailbox operation does: the state and RESULT. -/
def State.mbxRun (s : State) (m : Mbx) : State × Nat :=
  let a (i : Nat) : Nat := m.args.getD i 0
  if m.op = 1 then
    ((List.range 4).foldl (fun s' i => s'.setReg (a_TOL_MBX_ARG i) (Config.freeWord s.freeCtr (0x468 + i))) s, 0)
  else if m.op = 2 then
    if s.bufOk (a 0) (a 1) && s.bufOk (a 2) 48 then (s.writeBytes (a 2) (sha384 (s.tolRead (a 0) (a 1))) 0, 0) else (s, 2)
  else if m.op = 3 then
    if s.bufOk (a 0) 48 && s.bufOk (a 1) 96 && s.bufOk (a 2) 96 then
      (s, if Config.ecdsaValid (s.tolRead (a 0) 48) (s.tolRead (a 1) 96) (s.tolRead (a 2) 96) then 0 else 3)
    else (s, 2)
  else if m.op = 4 then
    if s.bufOk (a 0) (a 1) && s.bufOk (a 2) 2592 && s.bufOk (a 3) 4627 then
      (s, if Config.mldsaValid (s.tolRead (a 0) (a 1)) (s.tolRead (a 2) 2592) (s.tolRead (a 3) 4627) then 0 else 3)
    else (s, 2)
  else if m.op = 5 then
    if s.bufOk (a 0) (a 1) && s.bufOk (a 2) (a 1 + 28) then
      let nonce := leBytes 12 ((Config.freeWord s.freeCtr 0x46C).toNat + (Config.freeWord s.freeCtr 0x46D).toNat * 2 ^ 64)
      (s.writeBytes (a 2) (gcmSeal s.sealingKey nonce (s.tolRead (a 0) (a 1))) 0, 0)
    else (s, 2)
  else if m.op = 6 then
    if s.bufOk (a 0) (a 1) && s.bufOk (a 2) (a 1 - 28) then
      if a 1 < 28 || s.lifecycle = 2 then (s, 3)
      else
        match gcmOpen s.sealingKey (s.tolRead (a 0) (a 1)) with
        | some p => (s.writeBytes (a 2) p 0, 0)
        | none => (s, 3)
    else (s, 2)
  else (s, 1)

/-- MAILBOX_COMPLETE: the operation under way finishes; RESULT is set and GO clears. -/
def execMailboxComplete (s : State) : Host.Outcome State Fault Refusal :=
  match s.tol.mbx with
  | none => .next s
  | some m =>
    let (s1, r) := s.tick.mbxRun m
    .next (((s1.wf a_TOL_MBX_STAT f_TOL_MBX_STAT_RESULT r).wf a_TOL_MBX_CMD f_TOL_MBX_CMD_GO 0).updTol (fun x => { x with mbx := none }))

/-! ### Debug enables (R469, R472–R474, R487; 19 R583) -/

/-- ENABLED: SI 0, SN 1, NI 2, NN 3. -/
def State.dbgMask (s : State) : Nat := s.rf a_TOL_DBG_STAT f_TOL_DBG_STAT_ENABLED

/-- Note that a write set or cleared the S bit of a counter control (19 R583): a Normal write's S clears when the last of SN and SI lapses. -/
def State.noteS (s : State) (key : Nat) (secure set : Bool) : State :=
  s.updTol (fun x => { x with normS := if set && !secure then (if x.normS.contains key then x.normS else key :: x.normS) else x.normS.filter (fun k => k != key) })

/-- Clear the S bit of a counter control. -/
def State.clearS (s : State) (key : Nat) : State :=
  if 2 ^ 40 ≤ key then
    let stop := (key - 2 ^ 40) / 8
    let n := key % 8
    let s1 := s.updCore stop (fun c => { c with pmuCfg := smSet (fun _ => 0) c.pmuCfg n (setBit (smGet (fun _ => 0) c.pmuCfg n) 17 false) })
    [0, 1, 2, 3].foldl (fun s k => s.updThr (4 * s.lcoreOf stop + k) (fun th =>
      { th with pend := th.pend.map (fun e => if e.1 = 0x431 + n then (e.1, e.2.map (fun v => setBit v 17 false)) else e) })) s1
  else s.setReg key (setBit (s.reg key) (if (key / 0x8000) % 0x20 = 0 && decide (0x10000000 ≤ key) then 7 else 13) false)

/-- Set the enables in force: S bits of Normal writes clear when SN and SI have both lapsed, and threads halted without the invasive enable of their world resume (R474). -/
def State.setDbg (s : State) (m : Nat) : State :=
  let s1 := s.wf a_TOL_DBG_STAT f_TOL_DBG_STAT_ENABLED m
  let s2 := if m % 4 = 0 then (s1.tol.normS.foldl State.clearS s1).updTol (fun x => { x with normS := [] }) else s1
  (s2.threads.map (·.1)).foldl (fun s t => if (s.thr t).halted && !s.invasive t then s.updThr t (fun th => { th with halted := false }) else s) s2

/-- The token buffer of a ring, LEN bytes. -/
def State.tokenBytes (s : State) (r n : Nat) : List Byte := (List.range n).map (fun i => smGet (fun _ => 0#8) s.tol.tokens (r * 65536 + i))

/-- EXPIRY as DEBUG_STATUS reports it: that of the enables in force when they agree, else not stated (notes/assumptions/6.md). -/
def State.dbgExpiry (s : State) : Word :=
  match ((List.range 4).filter (fun i => s.dbgMask.testBit i)).map (fun i => smGet (fun _ => 0) s.tol.expiry i) with
  | [] => 0
  | e :: r => if r.all (fun x => x == e) then BitVec.ofNat 64 e else Config.freeWord s.freeCtr 0x903

/-- Grant enables until an EXPIRY. -/
def State.grantDbg (s : State) (m expiry : Nat) : State :=
  (s.setDbg (s.dbgMask ||| m)).updTol (fun x => { x with expiry := (List.range 4).foldl (fun e i => if m.testBit i then smSet (fun _ => 0) e i expiry else e) x.expiry })

/-- Does a token pass every check of R473 for a ring? -/
def State.tokenOk (s : State) (r : Nat) (bs : List Byte) (nonce : Option (BitVec 128)) : Bool :=
  let g (lo n : Nat) : Nat := leVal ((bs.drop lo).take n)
  let en := g 0 2 % 16
  let key := g 2 1
  let keyOk := if s.lifecycle = 2 then key == 1 else key == 0 && s.tol.ownerKeys
  keyOk && Config.bothSigned (if key = 0 then s.tol.ownerHash else Config.wilecKeys) (bs.take 64) (bs.drop 64) &&
    (match nonce with | some n => g 8 16 == n.toNat | none => false) && g 32 8 == deviceId && g 4 4 == 4787 &&
    decide (s.time.mt < g 24 8) && (s.lifecycle != 1 || r == 0 || en % 4 == 0)

/-- DEBUG_CHALLENGE: a fresh nonce for the ring. -/
def execDebugChallenge (r : Nat) (s : State) : Host.Outcome State Fault Refusal :=
  .next (s.tick.galNow r 0x0901 (fun s c =>
    let n : BitVec 128 := Config.freeWord s.freeCtr 0x901 ++ Config.freeWord s.freeCtr 0x900
    (s.updTol (fun x => { x with nonce := smSet (fun _ => none) x.nonce c.ring (some n), nonceGen := x.nonceGen + 1 }), ⟨0, n.setWidth 64, n.extractLsb' 64 64⟩)))

/-- DEBUG_UNLOCK: the buffered token is checked; the ring's nonce is consumed. -/
def execDebugUnlock (r : Nat) (s : State) : Host.Outcome State Fault Refusal :=
  .next (s.galNow r 0x0902 (fun s c =>
    let nonce := smGet (fun _ => none) s.tol.nonce c.ring
    let s1 := s.updTol (fun x => { x with nonce := smSet (fun _ => none) x.nonce c.ring none })
    let len := c.par 1 0 16
    let head := s.tokenBytes c.ring 8
    if leVal (head.drop 4) != len then (s1, gBadParam)
    else
      let bs := s.tokenBytes c.ring len
      if s.tokenOk c.ring bs nonce then
        let s2 := s1.grantDbg (leVal (bs.take 2) % 16) (leVal ((bs.drop 24).take 8))
        (s2, ⟨0, BitVec.ofNat 64 s2.dbgMask, 0⟩)
      else (s1, gDenied)))

/-- DEBUG_STATUS. -/
def execDebugStatus (r : Nat) (s : State) : Host.Outcome State Fault Refusal :=
  .next (s.tick.galNow r 0x0903 (fun s _ => (s, ⟨0, BitVec.ofNat 64 (s.dbgMask + s.lifecycle * 256), s.dbgExpiry⟩)))

/-- DEBUG_LOCK: a ring other than SECURE may not name SI or SN. -/
def execDebugLock (r : Nat) (s : State) : Host.Outcome State Fault Refusal :=
  .next (s.galNow r 0x0904 (fun s c =>
    let m := c.par 1 0 4
    if c.ring != 0 && m % 4 != 0 then (s, gDenied)
    else
      let s1 := s.setDbg (((List.range 4).map (fun i => if s.dbgMask.testBit i && !m.testBit i then 2 ^ i else 0)).sum)
      (s1, ⟨0, BitVec.ofNat 64 s1.dbgMask, 0⟩)))

/-- DEBUG_TOKEN_PART: 48 bytes into the ring's 8 KiB token buffer. -/
def execDebugTokenPart (r : Nat) (s : State) : Host.Outcome State Fault Refusal :=
  .next (s.galNow r 0x0905 (fun s c =>
    let off := c.par 1 0 16
    if off % 48 != 0 || 8192 ≤ off then (s, gBadParam)
    else
      let bs := ((List.range 6).flatMap (fun i => leBytes 8 (c.word (i + 2)).toNat)).take (8192 - off)
      (s.updTol (fun x => { x with tokens := putBytes x.tokens (c.ring * 65536 + off) bs }), gDone)))

/-- DEBUG_GRANT_NORMAL: NI and NN without a token; an EXPIRY that is not in the future is out of range. -/
def execDebugGrantNormal (r : Nat) (s : State) : Host.Outcome State Fault Refusal :=
  .next (s.galNow r 0x0906 (fun s c =>
    let m := c.par 1 2 2 * 4
    if (c.word 2).toNat ≤ s.time.mt then (s, gBadParam)
    else
      let s1 := s.grantDbg m (c.word 2).toNat
      (s1, ⟨0, BitVec.ofNat 64 s1.dbgMask, 0⟩)))

/-- DEBUG_ENABLE_EXPIRY: enables whose EXPIRY has come lapse (R473). -/
def execDebugEnableExpiry (s : State) : Host.Outcome State Fault Refusal :=
  .next (s.setDbg (((List.range 4).map (fun i => if s.dbgMask.testBit i && decide (s.time.mt < smGet (fun _ => 0) s.tol.expiry i) then 2 ^ i else 0)).sum))

/-! ### The secure watchdog (R477, R478, R484–R486) -/

/-- Milliseconds since the count began, on the Tollhouse's oscillator. -/
def State.wdogMs (s : State) : Nat := (s.time.ticks - s.tol.wdogFrom) / 1000000
/-- TIMEOUT in ms. -/
def State.wdogTimeout (s : State) : Nat := s.rf a_TOL_WDOG_CTL f_TOL_WDOG_CTL_TIMEOUT
/-- Is the watchdog running? -/
def State.wdogOn (s : State) : Bool := bit (s.reg a_TOL_WDOG_CTL) 0

/-- A write to TOL_WDOG_CTL: nothing once running; an enabling write starts the count when TIMEOUT is 1–60,000. -/
def State.wdogCtlWrite (s : State) (v : Word) : State :=
  if s.wdogOn then s
  else if !bit v 0 then s.setReg a_TOL_WDOG_CTL v
  else if fld v 16 16 = 0 || 60000 < fld v 16 16 then s
  else (s.setReg a_TOL_WDOG_CTL v).updTol (fun x => { x with wdogFrom := s.time.ticks, warned := false })

/-- A write to TOL_WDOG_KICK by a thread, if one wrote it. -/
def State.wdogKick (s : State) (v : Word) (thread : Option Nat) : State :=
  let tok := s.rf a_TOL_WDOG_STAT f_TOL_WDOG_STAT_TOKEN
  if s.wdogOn && decide (s.wdogTimeout ≤ s.wdogMs) then s
  else if fld v 0 16 = 65535 - tok then
    let s1 := (s.wf a_TOL_WDOG_STAT f_TOL_WDOG_STAT_WARNED 0).wf a_TOL_WDOG_STAT f_TOL_WDOG_STAT_TOKEN ((Config.freeWord s.tol.tokenGen 0x477).toNat % 2 ^ 16)
    s1.updTol (fun x => { x with wdogFrom := s.time.ticks, kicker := thread, kickMt := s.time.mt, tokenGen := x.tokenGen + 1, warned := false })
  else s.addSat a_TOL_WDOG_STAT f_TOL_WDOG_STAT_BAD_KICKS 1

/-- TOL_WDOG_STAT as read: REMAIN counts down. -/
def State.wdogStat (s : State) : Word :=
  setFld (s.reg a_TOL_WDOG_STAT) 16 16 (if s.wdogOn then s.wdogTimeout - s.wdogMs else 0)

/-- WDOG_WARNING: with TIMEOUT ÷ 8 ms left, at least 1 ms, WARNED is set and the Secure-bank INTID is raised. -/
def execWdogWarning (s : State) : Host.Outcome State Fault Refusal :=
  let t := s.wdogTimeout
  if s.wdogOn && !s.tol.warned && decide (t - max 1 (t / 8) ≤ s.wdogMs) then
    let id := s.rf a_TOL_WDOG_CTL f_TOL_WDOG_CTL_WARN_INTID
    let th := s.rf a_TOL_WDOG_CTL f_TOL_WDOG_CTL_WARN_THREAD
    let s1 := (s.wf a_TOL_WDOG_STAT f_TOL_WDOG_STAT_WARNED 1).updTol (fun x => { x with warned := true })
    .next (if 192 ≤ id then { s1 with rtr := { s1.rtr with phys := smSet (fun _ => 0) s1.rtr.phys th (smGet (fun _ => 0) s1.rtr.phys th ||| (1#256 <<< id)) } } else s1)
  else .next s

end Sys2Proof.Machine
end

