-- ==== Sys2Proof/Machine/Ports.lean ====
section
/-! DEFINITION. Root ports and the Wharf: inbound requests, completions, timers, link loss, HDM decoders, Wharf functions and peer windows (spec/14_expansion_ports.md R424–R455; spec/11_tenancy.md R342; spec/21_package_electrical.md R612). -/
namespace Sys2Proof.Machine

/-- Change the ports' own state. -/
def State.updPort (s : State) (f : PortSt → PortSt) : State := { s with port := f s.port }

/-! ### Wharf functions (R435–R437) -/

/-- Does a function accept inbound requests: PERST# high, PF0 enabled by the host, a VF enabled, no disable in progress? -/
def State.fnActive (s : State) (fn : Nat) : Bool :=
  s.port.perst && !s.fnStopping fn &&
    (if fn = 0 then s.port.pf0En else if fn = 1 then true else decide (fn < 18) && s.rf (a_WHF_VF_CTL (fn - 2)) f_WHF_VF_CTL_ENABLED == 1)

/-- A host read of the service area (R437; 17 R544, R546): naturally aligned 4 or 8 bytes. -/
def State.svcRead (s : State) (x n : Nat) : DevR :=
  if !(n == 4 || n == 8) || x % n != 0 then .abort
  else
    let reg (o : Nat) : DevR := .data (((leBytes 8 (s.reg o).toNat).drop (x % 8)).take n) false
    let o := x / 8 * 8
    if x < 0x10000 then .data (((leBytes 8 (s.colophon o).toNat).drop (x % 8)).take n) false
    else if o = 0x10000 then reg (a_GAL_TAIL 2)
    else if o = 0x10008 then reg (a_GAL_PCONS 2)
    else if o = 0x11000 then reg (a_EVQ_PROD 2)
    else if o = 0x11008 then reg (a_EVQ_CONS 2)
    else if 0x40000 ≤ x && decide (x < 0x100000) then .data ((List.range n).map (fun k => smGet (fun _ => 0#8) s.ev.svc (x + k))) false
    else .data (leBytes n 0) false

/-- A host write of the service area. -/
def State.svcWrite (s : State) (x : Nat) (bs : List Byte) : State :=
  let v := BitVec.ofNat 64 (leVal bs)
  if !(bs.length == 4 || bs.length == 8) || x % bs.length != 0 then s
  else if x = 0x10000 then s.galTailWrite 2 v
  else if x = 0x10008 then s.wf (a_GAL_PCONS 2) f_GAL_PCONS_PCONS (fld v 0 16)
  else if x = 0x11008 then s.evqConsWrite 2 v
  else if 0x40000 ≤ x && decide (x < 0x80000) then { s with ev := { s.ev with svc := putBytes s.ev.svc x bs } }
  else s

/-! ### Peer windows (R438, R439, R451, R452) -/

/-- The lowest enabled window that an offset of PF1's BAR2 matches. -/
def State.pwOf (s : State) (x : Nat) : Option Nat :=
  (List.range 8).find? (fun n =>
    s.rf (a_WHF_PW_CFG n) f_WHF_PW_CFG_EN == 1 &&
      inRange x (s.rf (a_WHF_PW_CFG n) f_WHF_PW_CFG_OFFSET * 2 ^ 20) (s.rf (a_WHF_PW_CFG n) f_WHF_PW_CFG_SIZE * 2 ^ 20))

/-- Is the operation a write? -/
def isWrite : DevOp → Bool
  | .write _ => true
  | _ => false

/-- An AtomicOp size the completer supports (R420): FetchAdd and Swap of 4 or 8 bytes, CAS of 8 or 16. -/
def atomicOk : DevOp → Bool
  | .fetchAdd n _ => n == 4 || n == 8
  | .swap n _ => n == 4 || n == 8
  | .cas n _ _ => n == 8 || n == 16
  | _ => true

/-- A device operation, a poisoned write marking its lines (R424); an AtomicOp of another size is an Unsupported Request. -/
def State.portDo (s : State) (stream iova : Nat) (op : DevOp) (ep tr : Bool) : State × DevR :=
  match op with
  | .write bs => ((s.devWrite stream iova bs tr ep).1, .none)
  | _ => if atomicOk op then s.devDo stream iova op tr else (s, .unsupported)

/-- A host access at an offset of PF1's BAR2 (R438). -/
def State.peerAccess (s : State) (x : Nat) (op : DevOp) (ep tr : Bool) : State × DevR :=
  match s.pwOf x with
  | none => (s.addSat a_WHF_PW_COMMIT f_WHF_PW_COMMIT_MISSES 1, if isWrite op then .none else .unsupported)
  | some n =>
    s.portDo 0x80001 ((s.rf (a_WHF_PW_TGT n) f_WHF_PW_TGT_TARGET * 2 ^ 20 + (x - s.rf (a_WHF_PW_CFG n) f_WHF_PW_CFG_OFFSET * 2 ^ 20)) % 2 ^ 64) op ep tr

/-- A write to a live window register: only while its EN is 0. -/
def State.pwWrite (s : State) (n off : Nat) (v : Word) : State := if s.rf (a_WHF_PW_CFG n) f_WHF_PW_CFG_EN = 1 then s else s.setReg off v

/-- A write to WHF_PW_COMMIT: the shadow registers of the named windows become live; COMMIT reads 0 once copied. -/
def State.pwCommit (s : State) (v : Word) : State :=
  (List.range 8).foldl (fun s n => if bit v n then (s.setReg (a_WHF_PW_CFG n) (s.reg (a_WHF_PW_SCFG n))).setReg (a_WHF_PW_TGT n) (s.reg (a_WHF_PW_STGT n)) else s) s

/-! ### Inbound requests (R424, R425, R436) -/

/-- A TLP received: its payload is counted (19 R584, R588). -/
def State.received (s : State) (p n : Nat) : State :=
  (s.countUnc (portBase p + 0x200) 8 none 0x050 {} .write none n).accBw (if p = 8 then 66 else 58 + p) 0 n

/-- An inbound request: in the endpoint role `req` is the function and `addr` the BAR offset, else the PCIe requester ID and the bus address. It is performed, and completed, as it arrives, so that arrival order is kept. -/
def State.inbound (s : State) (p req addr : Nat) (op : DevOp) (ep tr : Bool) : State × DevR :=
  if p = 8 && s.wharfEp then
    if !s.fnActive req then (s, if isWrite op then .none else .unsupported)
    else if req = 0 then
      match op with
      | .write bs => (s.svcWrite addr bs, .none)
      | .read n => (s, s.svcRead addr n)
      | _ => (s, .abort)
    else if req = 1 then s.peerAccess addr op ep tr
    else if 2 ^ 26 ≤ addr then (s, if isWrite op then .none else .unsupported)
    else s.portDo (0x80000 + req) addr op ep tr
  else s.portDo (65536 * p + req % 65536) addr op ep tr

/-- An inbound request with its payload counted and its completion sent; nothing arrives on a port whose links are down. One with a PASID prefix is answered as an Unsupported Request (10 R298). -/
def State.inboundDo (s : State) (p req addr : Nat) (op : DevOp) (ep tr pasid : Bool) (n : Nat) : State :=
  if 8 < p || !s.portUp p then s
  else s.tick.unlessHeld (fun s =>
    let s0 := s.received p n
    let (s1, r) := if pasid then (s0, if isWrite op then .none else .unsupported) else s0.inbound p req addr op ep tr
    s1.complete (65536 * p) addr r)

/-- INBOUND_WRITE. -/
def execInboundWrite (p req addr : Nat) (bs : List Byte) (ep tr : Bool) (s : State) (pasid : Bool := false) : Host.Outcome State Fault Refusal :=
  .next (s.inboundDo p req addr (.write bs) ep tr pasid bs.length)
/-- INBOUND_READ. -/
def execInboundRead (p req addr n : Nat) (tr : Bool) (s : State) (pasid : Bool := false) : Host.Outcome State Fault Refusal :=
  .next (s.inboundDo p req addr (.read n) false tr pasid 0)
/-- INBOUND_ATOMICOP: only the three AtomicOps are such a request. -/
def execInboundAtomicop (p req addr : Nat) (op : DevOp) (tr : Bool) (s : State) (pasid : Bool := false) : Host.Outcome State Fault Refusal :=
  .next (match op with
    | .fetchAdd n _ => s.inboundDo p req addr op false tr pasid n
    | .swap n _ => s.inboundDo p req addr op false tr pasid n
    | .cas n _ _ => s.inboundDo p req addr op false tr pasid (2 * n)
    | _ => s)
/-- PEER_WINDOW_ACCESS (R438): a host access at an offset of PF1's BAR2, whose size the boot configuration gives (20 R594). -/
def execPeerWindowAccess (x : Nat) (op : DevOp) (ep : Bool) (s : State) : Host.Outcome State Fault Refusal :=
  .next (if s.wharfEp && s.portUp 8 && decide (x < 2 ^ fld (BitVec.ofNat 64 s.boot.cfg1) 48 6) then
      s.tick.unlessHeld (fun s0 =>
        let (s1, r) := if s.fnActive 1 then s0.peerAccess x op ep false else (s, if isWrite op then .none else .unsupported)
        s1.complete 0x80001 x r)
    else s)

/-! ### Completions and timers (R430, R431) -/

/-- TIMEOUT of a port in ns. -/
def State.cplTimeout (s : State) (p : Nat) : Nat := 1000 * fld (s.reg (portBase p + 0x10)) 0 16
/-- RPT_CPL_STAT.QUARANTINED of a port. -/
def State.countQuar (s : State) (p : Nat) : State :=
  s.wf (portBase p + 0x18) f_RPT_CPL_STAT_QUARANTINED ((s.port.quar.filter (fun q => q.1 / 4 == p)).length)
/-- Does a request keep its outcome until its requester takes it: a load, a Barge engine's or a device's read, a CXL.mem read made in a step? -/
def keepsRes (k : Nat) : Bool := k == 0 || k == 2 || 4 ≤ k
/-- The completion of a device's read once every part at another port's device has been answered: the data, all ones for a part that its target refused or whose link is lost, or, after a timeout, a refusal: the spec does not list the outcome (R430; DESIGN CHOICE, notes/assumptions/122.md). -/
def State.peerDone (s : State) (id : Nat) : State :=
  match s.port.peers.find? (fun x => x.id == id) with
  | none => s
  | some x =>
    let mine := s.port.out.filter (fun o => o.kind == 4 && o.owner == id)
    if mine.any (fun o => o.res.isNone) then s
    else
      let part (y : Nat × Option (List Byte × Bool)) : Nat × Option (List Byte × Bool) :=
        match y.2, mine.find? (fun o => o.va == y.1) with
        | none, some o => (y.1, some (match o.res with
            | some (0, v) => (leBytes o.size v, false)
            | some (3, v) => (leBytes o.size v, true)
            | _ => (leBytes o.size (onesOf o.size), false)))
        | _, _ => y
      let late := mine.any (fun o => o.res.any (fun r => r.1 == 2))
      let refuse : DevR := if Config.pick s.freeCtr 47 % 2 = 0 then .unsupported else .abort
      (s.updPort (fun z => { z with out := z.out.filter (fun o => !(o.kind == 4 && o.owner == id)), peers := z.peers.filter (fun y => y.id != id) })).complete x.stream x.addr
        (if late then refuse else partsData (x.parts.map part))
/-- Give an outstanding request its outcome: one that a requester takes keeps it, one that nothing waits for ends, a configuration write is complete, a CXL.mem read fills its LLC sector, poisoned unless it has data (R428). -/
def State.outEnd (s : State) (o : OutReq) (res : Nat × Nat) : State :=
  if o.owner = noOwner && keepsRes o.kind then (s.endOut o).invBusy
  else if keepsRes o.kind then
    let s1 := (s.updPort (fun x => { x with out := x.out.map (fun y => if y == o then { y with res := some res } else y) })).invBusy
    if o.kind = 4 then s1.peerDone o.owner else s1
  else
    let s1 := s.endOut o
    if o.kind != 3 || (s1.coh.sectorOf o.owner).isSome || (s1.coh.txn o.owner).isSome then s1
    else
      let sec := s1.env.secLine o.owner
      { s1 with coh := if res.1 = 0 then s1.coh.homeFill s1.env o.owner sec 0 224
          else ((s1.coh.llcPut s1.env o.owner (s1.coh.memLine s1.env o.owner).1 false true sec 0).getD s1.coh) }

/-- KIND of COMPLETION_TIMEOUT (R444); for a device's read of another port the spec gives none: a free value (notes/assumptions/122.md). -/
def State.cplKind (s : State) (k : Nat) : Nat :=
  if k = 0 then 0 else if k = 2 || k = 6 then 1 else if k = 1 then 2 else if k = 4 then Config.pick s.freeCtr 48 % 4 else 3
/-- Is a request a read of CXL.mem? -/
def OutReq.cxl (o : OutReq) : Bool := o.kind == 3 || o.kind == 5
/-- A request's timer has expired (R430, R431): its tag is quarantined for 2 × TIMEOUT. -/
def State.expire (s : State) (o : OutReq) : State :=
  let s1 := s.outEnd o (if o.cxl then (3, 0) else (2, 0))
  let s2 := (s1.updPort (fun x => { x with quar := x.quar ++ [(4 * o.port + o.link, o.tag, s.time.mt + 2 * s.cplTimeout o.port)] })).countQuar o.port
  let s3 := s2.addSat (portBase o.port + 0x18) f_RPT_CPL_STAT_TIMEOUTS 1
  if o.cxl then s3.cxlError (64 * o.owner) 2 else s3.hostEv 0x0705 3 (portSource o.port) 0 (o.link + o.tag * 2 ^ 16 + s.cplKind o.kind * 2 ^ 28) o.addr
/-- Has a request's timer run out? -/
def State.overdue (s : State) (o : OutReq) : Bool := decide (o.issued + s.cplTimeout o.port ≤ s.time.mt)
/-- A completion for a quarantined tag is discarded and counted (R431). -/
def State.lateCpl (s : State) (p l tag completer : Nat) : State :=
  if s.port.quar.any (fun q => q.1 == 4 * p + l && q.2.1 == tag) then
    (((s.received p 0).countUnc (portBase p + 0x200) 8 none 0x053 {} .none none 1).addSat (portBase p + 0x18) f_RPT_CPL_STAT_LATE 1).hostEv
      0x0706 1 (portSource p) 0 (l + tag * 2 ^ 16) completer
  else s
/-- A completion that comes in time. -/
def State.completed (s : State) (o : OutReq) (status data : Nat) (ep : Bool) : State :=
  let s1 := s.received o.port (if status = 0 && o.kind != 1 then o.size else 0)
  if o.cxl then
    let s2 := if status = 0 then s1 else s1.cxlError (64 * o.owner) 1
    s2.outEnd o (if status != 0 || ep then (3, 0) else (0, data))
  else if status = 0 then s1.outEnd o (if ep then (3, data) else (0, data % 2 ^ (8 * o.size)))
  else (if status = 3 then s1.aerLog o.port o.link true else s1).outEnd o (1, 0)
/-- A link was found down in the present cycle, by which a request that the loss has ended can still be completed (R434). -/
def State.lostNow (s : State) (p l : Nat) : Bool := s.port.loss.any (fun x => x.link == 4 * p + l && x.tick == s.time.ticks)

/-- COMPLETION for a tag of a link: `status` 0 successful, 1 Unsupported Request, 2 Completer Abort, 3 Unsupported Request that the port logs as an error. One that comes with the expiry of its timer or after it is late, and discarded (R431); one in the cycle its link is found down is used (R434). -/
def execCompletion (p l tag status completer data : Nat) (ep : Bool) (s : State) : Host.Outcome State Fault Refusal :=
  .next (if 8 < p then s
    else if !s.linkUp p l then
      match (if s.lostNow p l then s.port.out.find? (fun o => o.port == p && o.link == l && o.tag == tag && keepsRes o.kind && (o.res == some (1, 0) || (o.kind == 5 && o.res == some (3, 0)))) else none) with
      | some o => s.completed o status data ep
      | none => s
    else
      match s.port.out.find? (fun o => o.port == p && o.link == l && o.tag == tag && o.res.isNone) with
      | some o => if s.overdue o then (s.expire o).lateCpl p l tag completer else s.completed o status data ep
      | none => s.lateCpl p l tag completer)

/-- COMPLETION_TIMEOUT (R430, R431). -/
def execCompletionTimeout (p l tag : Nat) (s : State) : Host.Outcome State Fault Refusal :=
  match s.port.out.find? (fun o => o.port == p && o.link == l && o.tag == tag && o.res.isNone && decide (o.issued + s.cplTimeout p ≤ s.time.mt)) with
  | none => .next s
  | some o => .next (s.expire o)

/-- QUARANTINE_END (R431). -/
def execQuarantineEnd (p l tag : Nat) (s : State) : Host.Outcome State Fault Refusal :=
  .next ((s.updPort (fun x => { x with quar := x.quar.filter (fun q => !(q.1 == 4 * p + l && q.2.1 == tag && decide (q.2.2 ≤ s.time.mt))) })).countQuar p)

/-! ### Links (R432–R434) -/

/-- Power domain of a port's controller. -/
def portDom (p : Nat) : Nat := if p = 8 then 766 else 750 + p
/-- Offset of the link status register. -/
def linkStat (p l : Nat) : Nat := portBase p + 0x100 + 8 * l
/-- Lanes BIFUR gives a link. -/
def State.linkLanes (s : State) (p l : Nat) : Nat :=
  let b := fld (s.reg (portBase p)) 0 3
  if b = 0 then 16 else if b = 1 then 8 else if b = 2 then (if l = 0 then 8 else 4) else if b = 3 then (if l = 2 then 8 else 4) else 4
/-- Is the port present and its controller on? -/
def State.portOn (s : State) (p : Nat) : Bool := (decide (p < Config.rootPorts s.variant) || p == 8) && s.domState (portDom p) == 2
/-- The DEP vote of a port's controller: held while any of its links is up (R432). -/
def State.portDep (s : State) (p : Nat) : State := s.setVote (portDom p) 4 (s.portUp p)

/-- Does the device of a stream lie below a link? Bus numbers decide; a bus that no function has is below one of the links (which is a free choice). -/
def State.below (s : State) (p l stream : Nat) : Bool :=
  stream / 65536 == p && (match s.linkWith p (·.hasBus (stream / 256 % 256)) with | some k => k == l | none => Config.pick s.freeCtr (42 + stream) % 4 == l || !s.portUp p)
/-- ATS Invalidates outstanding to devices below a link complete when it goes down (R303, R432). -/
def State.invBelow (s : State) (p l : Nat) : State := (s.updIot (fun x => { x with inv := x.inv.filter (fun v => !s.below p l v.stream) })).invBusy

/-- Requests of a link that its loss ends: those outstanding, and those whose timer expired in this cycle, to which the loss applies (R434). -/
def State.lossEnds (s : State) (p l : Nat) : List OutReq :=
  s.port.out.filter (fun o => o.port == p && o.link == l &&
    (o.res.isNone || (o.res == some (2, 0) && s.port.quar.contains (4 * p + l, o.tag, s.time.mt + 2 * s.cplTimeout p))))

/-- A link goes down (R432): cause 1 surprise, 2 DPC, 3 hot reset, 4 disabled, 5 domain off. -/
def State.linkDown (s : State) (p l cause : Nat) : State :=
  if !s.linkUp p l then s
  else
    let os := s.lossEnds p l
    let s1 := os.foldl (fun s o => if o.cxl then (s.outEnd o (3, 0)).cxlError (64 * o.owner) 3 else s.outEnd o (1, 0)) s
    let s2 := (s1.updPort (fun x => { x with quar := x.quar.filter (fun q => q.1 != 4 * p + l), waits := x.waits.filter (fun w => w.1 != 4 * p + l || w.2.1 == 3),
                                             loss := x.loss.filter (fun y => y.link != 4 * p + l) ++ [⟨4 * p + l, s.time.ticks, cause, os.length⟩] })).countQuar p
    let s3 := s2.setReg (linkStat p l) (if cause = 2 then 4 else 0)
    let s4 := s3.tick.invBelow p l
    (s4.hostEv 0x0703 (if cause = 1 || cause = 2 then 3 else 0) (portSource p) 0 (l + cause * 2 ^ 8) os.length).portDep p
/-- A DPC trigger on a link that a hot reset has taken down and that has not trained since: the loss has cause DPC, and the link is contained (R434; that the record of the hot reset stands beside it is a DESIGN CHOICE, notes/assumptions/52.md). -/
def State.dpcJoins (s : State) (p l : Nat) : State :=
  match s.port.loss.find? (fun x => x.link == 4 * p + l && x.cause == 3) with
  | none => s
  | some x =>
    ((s.updPort (fun y => { y with loss := y.loss.map (fun z => if z == x then { z with cause := 2 } else z) })).setReg (linkStat p l) 4).hostEv 0x0703 3 (portSource p) 0 (l + 2 * 2 ^ 8) x.done
/-- A link is lost, or a DPC trigger joins a hot reset. -/
def State.linkLost (s : State) (p l cause : Nat) : State := if !s.linkUp p l && cause == 2 then s.dpcJoins p l else s.linkDown p l cause

/-- LINK_DOWN. -/
def execLinkDown (p l cause : Nat) (s : State) : Host.Outcome State Fault Refusal :=
  .next (if 8 < p || cause = 0 || 5 < cause then s else s.linkLost p l cause)

/-- LINK_UP (R433): the link trains at a rate up to MAXRATE and a width up to its lanes; as CXL only on link 0 of a root port with the CXL layer (R426, R429); not while it is contained by DPC, until software releases it. Whether the device declares 10-bit tags (R420) is a free choice. -/
def execLinkUp (p l rate width : Nat) (cxl : Bool) (s : State) : Host.Outcome State Fault Refusal :=
  .next (if 8 < p || 3 < l || !s.portOn p || !s.linkExists p l || s.linkUp p l || bit (s.reg (linkStat p l)) 2 || rate = 0 || fld (s.reg (portBase p)) 4 3 < rate ||
      width = 0 || s.linkLanes p l < width then s
    else
      let c := cxl && Config.hasCxl s.variant && decide (p < 8) && l == 0
      let declares := Config.pick s.freeCtr 44 % 2 == 0
      let s0 := s.updPort (fun x => { x with short := x.short.filter (fun k => k != 4 * p + l) ++ (if declares then [] else [4 * p + l]), loss := x.loss.filter (fun y => y.link != 4 * p + l) })
      let s1 := s0.tick.setReg (linkStat p l) (BitVec.ofNat 64 (1 + c.toNat * 2 + rate * 2 ^ 4 + width * 2 ^ 8))
      (s1.hostEv 0x0704 0 (portSource p) 0 (l + rate * 2 ^ 4 + width * 2 ^ 8 + c.toNat * 2 ^ 13) 0).portDep p)

/-! ### HDM decoders (R427, R449) -/

/-- A write to RPT_HDM_n: BASE and SIZE are kept while EN is 1; an enabling write may fail. -/
def State.hdmWrite (s : State) (p k : Nat) (v : Word) : State :=
  let off := a_RPT_HDM p k
  let old := s.reg off
  if bit old 0 then s.setReg off (setBit old 0 (bit v 0))
  else
    let w := setFld (setFld (setBit 0 1 (bit old 1)) 8 24 (fld v 8 24)) 32 24 (fld v 32 24)
    if !bit v 0 then s.setReg off w
    else
      let lo := fld v 8 24 * 2 ^ 28
      let hi := lo + fld v 32 24 * 2 ^ 28
      let ok := fld v 32 24 != 0 && decide (0x000A000000000000 ≤ lo) && decide (hi ≤ 0x000E000000000000) &&
        s.rf (a_RPT_LINK_STAT p 0) f_RPT_LINK_STAT_UP == 1 && s.rf (a_RPT_LINK_STAT p 0) f_RPT_LINK_STAT_CXL == 1 &&
        ((List.range 8).flatMap (fun q => (List.range 8).map (fun j => (q, j)))).all (fun x =>
          s.rf (a_RPT_HDM x.1 x.2) f_RPT_HDM_EN == 0 ||
            decide (hi ≤ s.hdmBase x.1 x.2) || decide (s.hdmBase x.1 x.2 + s.rf (a_RPT_HDM x.1 x.2) f_RPT_HDM_SIZE * 2 ^ 28 ≤ lo))
      s.setReg off (setBit (setBit w 0 ok) 1 (!ok))

/-! ### Function disable and reset (R442, R443) -/

/-- End the outbound requests of a function as at link loss. -/
def State.fnOutEnd (s : State) (fn : Nat) : State :=
  (s.port.out.filter (fun o => o.port == 8 && o.res.isNone && whfWindow (slotOff o.addr) == some (fn - 1) && fn != 0)).foldl (fun s o => s.outEnd o (1, 0)) s

/-- The configuration of a function returns to its reset values: an FLR of PF0 resets the indices of the service area, and one of PF1 its SR-IOV capability. -/
def State.fnConfig (s : State) (fn : Nat) : State :=
  let s0 := s.updPort (fun x => { x with msixPend := x.msixPend.filter (fun m => m.1 != fn), masked := x.masked.filter (fun m => m.1 != fn), maskedFn := x.maskedFn.filter (fun m => m != fn) })
  if fn = 0 then
    let s1 := s0.updPort (fun x => { x with pf0En := false, pf0Bme := false })
    let s2 := ((s1.setReg (a_GAL_TAIL 2) 0).setReg (a_GAL_PCONS 2) 0).wf (a_GAL_STAT 2) f_GAL_STAT_HEAD 0
    let s3 := ((s2.wf (a_GAL_STAT 2) f_GAL_STAT_PPROD 0).setReg (a_EVQ_PROD 2) 0).setReg (a_EVQ_CONS 2) 0
    ((s3.wf (a_GAL_CTL 2) f_GAL_CTL_EN 0).wf (a_EVQ_CTL 2) f_EVQ_CTL_EN 0).setEvq 2 { s3.evq 2 with quiet := false }
  else if fn = 1 then
    (List.range 16).foldl (fun s v => (s.wf (a_WHF_VF_CTL v) f_WHF_VF_CTL_ENABLED 0).wf (a_WHF_VF_CTL v) f_WHF_VF_CTL_BME 0)
      ((s0.wf a_WHF_ROLE f_WHF_ROLE_PF1_BME 0).wf a_WHF_ROLE f_WHF_ROLE_NUMVFS 0)
  else s0.wf (a_WHF_VF_CTL (fn - 2)) f_WHF_VF_CTL_BME 0

/-- Start disabling a function: cause 1 FLR, 2 VF disable, 3 bus master cleared, 4 chip-side reset. A stronger cause replaces a bus-master clear in progress. -/
def State.fnStop (s : State) (fn cause : Nat) : State :=
  if 18 ≤ fn then s
  else
    let s1 := if 2 ≤ fn then s.wf (a_WHF_VF_CTL (fn - 2)) f_WHF_VF_CTL_BUSY 1 else s
    if s.port.stops.any (fun x => x.fn == fn) then
      s1.updPort (fun x => { x with stops := x.stops.map (fun y => if y.fn = fn && y.cause = 3 then { y with cause := cause } else y) })
    else s1.updPort (fun x => { x with stops := x.stops ++ [⟨fn, cause, s.time.mt, false⟩] })

/-- FLR of a Wharf function. -/
def execFlr (fn : Nat) (s : State) : Host.Outcome State Fault Refusal := .next (if s.wharfEp && s.port.perst then s.fnStop fn 1 else s)

/-- BUS_MASTER_CLEAR by the host. -/
def execBusMasterClear (fn : Nat) (s : State) : Host.Outcome State Fault Refusal :=
  .next (if !s.wharfEp || !s.fnBme fn || 18 ≤ fn then s
    else
      let s1 := if fn = 0 then s.updPort (fun x => { x with pf0Bme := false })
        else if fn = 1 then s.wf a_WHF_ROLE f_WHF_ROLE_PF1_BME 0
        else s.wf (a_WHF_VF_CTL (fn - 2)) f_WHF_VF_CTL_BME 0
      s1.fnStop fn 3)

/-- BUS_MASTER_ENABLE by the host (R440): vectors that were pending are sent (R436). `masks` is what the host sets of the function's MSI-X masks with it, if anything: the function mask, and the vectors masked; the table has no command of its own for them (notes/assumptions/123.md). -/
def execBusMasterEnable (fn : Nat) (s : State) (masks : Option (Bool × List Nat) := none) : Host.Outcome State Fault Refusal :=
  .next (if !s.wharfEp || 18 ≤ fn || !s.port.perst then s
    else
      let s0 := match masks with
        | none => s
        | some (all, vs) => s.updPort (fun x => { x with masked := x.masked.filter (fun (m : Nat × Nat) => m.1 != fn) ++ vs.map (fun v => (fn, v)), maskedFn := x.maskedFn.filter (fun m => m != fn) ++ (if all then [fn] else []) })
      let s1 := if fn = 0 then s0.updPort (fun x => { x with pf0Bme := true })
        else if fn = 1 then s0.wf a_WHF_ROLE f_WHF_ROLE_PF1_BME 1
        else s0.wf (a_WHF_VF_CTL (fn - 2)) f_WHF_VF_CTL_BME 1
      if s1.fnBme fn then
        let go := s1.port.msixPend.filter (fun (m : Nat × Nat) => m.1 == fn && s1.msixOpen fn m.2)
        { s1.updPort (fun x => { x with msixPend := x.msixPend.filter (fun (m : Nat × Nat) => !(m.1 == fn && s1.msixOpen fn m.2)) }) with ev := { s1.ev with msix := s1.ev.msix ++ go } }
      else s1)

/-- VF_ENABLE: the host sets VF Enable or raises NumVFs to n (R436). -/
def execVfEnable (n : Nat) (s : State) : Host.Outcome State Fault Refusal :=
  .next (if !s.wharfEp || !s.port.perst || 16 < n || n ≤ s.rf a_WHF_ROLE f_WHF_ROLE_NUMVFS then s
    else (List.range n).foldl (fun s v => s.wf (a_WHF_VF_CTL v) f_WHF_VF_CTL_ENABLED 1) (s.wf a_WHF_ROLE f_WHF_ROLE_NUMVFS n))

/-- VF_DISABLE: the host clears VF Enable (n = 0) or lowers NumVFs to n; VFs from n upward are disabled (R442). -/
def execVfDisable (n : Nat) (s : State) : Host.Outcome State Fault Refusal :=
  .next (
    let now := s.rf a_WHF_ROLE f_WHF_ROLE_NUMVFS
    if !s.wharfEp || now ≤ n then s
    else ((List.range now).filter (fun v => decide (n ≤ v))).foldl (fun s v => (s.wf (a_WHF_VF_CTL v) f_WHF_VF_CTL_ENABLED 0).fnStop (v + 2) 2)
      (s.wf a_WHF_ROLE f_WHF_ROLE_NUMVFS n))

/-- Tenant of a function: its IOTU context's VMID for a VF, else 0 (R444). -/
def State.fnVmid (s : State) (fn : Nat) : Nat :=
  if fn < 2 then 0 else match (s.ctxOf (0x80000 + fn)).2 with | .ok c => c.vmid | .error _ => 0

/-- FUNC_RESET: the steps of R442 are complete. -/
def execFuncReset (fn : Nat) (s : State) : Host.Outcome State Fault Refusal :=
  match s.port.stops.find? (fun x => x.fn == fn) with
  | none => .next s
  | some x =>
    let s1 := s.fnOutEnd fn
    let s2 := if x.cause = 1 || x.cause = 4 then s1.fnConfig fn else s1
    let s3 := if x.cause = 2 then s2.wf (a_WHF_VF_CTL (fn - 2)) f_WHF_VF_CTL_BME 0 else s2
    let s4 := if 2 ≤ fn then s3.wf (a_WHF_VF_CTL (fn - 2)) f_WHF_VF_CTL_BUSY 0 else s3
    .next ((s4.updPort (fun y => { y with stops := y.stops.filter (fun z => z.fn != fn) })).hostEv 0x0709 0 766 (s.fnVmid fn) (fn + x.cause * 2 ^ 8) (s.time.mt - x.start))

/-- FUNC_DISABLE_TIMEOUT: not settled after 1 ms; the steps continue. -/
def execFuncDisableTimeout (fn : Nat) (s : State) : Host.Outcome State Fault Refusal :=
  match s.port.stops.find? (fun x => x.fn == fn && !x.told && decide (x.start + 1000000 ≤ s.time.mt)) with
  | none => .next s
  | some x =>
    .next ((s.updPort (fun y => { y with stops := y.stops.map (fun z => if z.fn = fn then { z with told := true } else z) })).hostEv 0x070A 5 766 (s.fnVmid fn) fn x.start)

/-- A write to WHF_VF_CTL_v: RESET starts a chip-side reset and reads 0 (R443). -/
def State.vfCtlWrite (s : State) (v : Nat) (data : Word) : State := if bit data 2 then s.fnStop (v + 2) 4 else s

/-- A write to WHF_IRQ (R455): the vector is sent or made pending at once, so GO reads 0. -/
def State.whfIrqWrite (s : State) (v : Word) : State :=
  let s1 := s.setReg a_WHF_IRQ (setBit v 63 false)
  let fn := fld v 0 5
  let vec := fld v 8 8
  if bit v 63 && ((fn == 1 && decide (vec < 64)) || (2 ≤ fn && decide (fn < 18) && decide (vec < 8))) then s1.msixRaise fn vec else s1

/-- HOST_PERST (21 R612): while low, the host's PERST# holds every function in reset. -/
def execHostPerst (low : Bool) (s : State) : Host.Outcome State Fault Refusal :=
  .next (if !s.wharfEp then s
    else if low then
      let s1 := (List.range 18).foldl (fun s fn => (s.fnOutEnd fn).fnConfig fn) s
      (List.range 16).foldl (fun s v => s.setReg (a_WHF_VF_CTL v) 0) (s1.updPort (fun x => { x with perst := false, stops := [] }))
    else s.updPort (fun x => { x with perst := true }))

/-- PF0_ENABLE (17 R522): the Lengthsman enables the SERVICE ring and the Service queue. -/
def execPf0Enable (s : State) : Host.Outcome State Fault Refusal :=
  .next (if s.wharfEp && s.port.perst && !s.fnStopping 0 then
      ((s.updPort (fun x => { x with pf0En := true })).wf (a_GAL_CTL 2) f_GAL_CTL_EN 1).wf (a_EVQ_CTL 2) f_EVQ_CTL_EN 1
    else s)

/-- PORT_HOT_RESET (11 R342): a hot reset or DPC trigger takes the link down; in the endpoint role it is the host's and resets the Wharf's functions too. A hot reset in progress that DPC joins is one loss, with cause DPC (R434). -/
def execPortHotReset (p l : Nat) (dpc : Bool) (s : State) : Host.Outcome State Fault Refusal :=
  .next (if 8 < p then s
    else
      let s1 := s.linkLost p l (if dpc then 2 else 3)
      if p = 8 && s.wharfEp then (List.range 18).foldl (fun s fn => s.fnConfig fn) (s1.updPort (fun x => { x with stops := [] })) else s1)

end Sys2Proof.Machine
end

