-- ==== Sys2Proof/Machine/Barge.lean ====
section
/-! DEFINITION. The Barge engines: manifests, data movement, status, stops, hand-over, releases (spec/13_barge_engines.md). -/
namespace Sys2Proof.Machine

/-! ### Channels (R387, R388, R412–R419) -/

/-- A channel's own state. -/
def State.brg (s : State) (c : Nat) : BrgCh := smGet (fun _ => BrgCh.reset) s.brgs.ch c
/-- Stream of a channel's requests (R387). -/
def brgStream (c : Nat) : Nat := 0x90000 + c
/-- Address of a channel's status register. -/
def brgStat (c : Nat) : Nat := a_BRG_CH_STAT (c / 8) (c % 8)
/-- STATE of a channel: 0 IDLE, 1 RUNNING, 2 HELD, 3 ERROR, 4 STOPPING, 5 STOPPED. -/
def State.brgState (s : State) (c : Nat) : Nat := s.rf (brgStat c) f_BRG_CH_STAT_STATE
/-- Set STATE; credits are discarded in IDLE and STOPPED (R399). -/
def State.setBrgState (s : State) (c k : Nat) : State :=
  let s1 := s.wf (brgStat c) f_BRG_CH_STAT_STATE k
  if k = 0 || k = 5 then s1.wf (brgStat c) f_BRG_CH_STAT_CREDITS 0 else s1
/-- Index of the next manifest to take. -/
def State.brgHead (s : State) (c : Nat) : Nat := s.rf (brgStat c) f_BRG_CH_STAT_HEAD
/-- Index one past the last manifest posted. -/
def State.brgTail (s : State) (c : Nat) : Nat := s.rf (a_BRG_CH_TAIL (c / 8) (c % 8)) f_BRG_CH_TAIL_TAIL
/-- Change a channel's own state; INFLIGHT follows. -/
def State.updBrg (s : State) (c : Nat) (f : BrgCh → BrgCh) : State :=
  let x := f (s.brg c)
  { s.wf (brgStat c) f_BRG_CH_STAT_INFLIGHT x.mans.length with brgs := { s.brgs with ch := smSet (fun _ => BrgCh.reset) s.brgs.ch c x } }
/-- Replace manifest number i of a channel. -/
def State.setMan (s : State) (c i : Nat) (m : Man) : State := s.updBrg c (fun x => { x with mans := x.mans.set i m })

/-- An event of an engine (R404): to the Secure queue for a SEC context, with the channel's tenant. -/
def State.brgEvent (s : State) (c typ sev w2 w3 : Nat) : State :=
  let (s1, r) := s.ctxOf (brgStream c)
  let (sec, vmid) := match r with | .ok x => (x.sec, x.vmid) | .error _ => (false, 0)
  s1.post (if sec then 0 else 1) ⟨typ, sev, 768 + c / 8, vmid, s.time.mt, BitVec.ofNat 64 w2, BitVec.ofNat 64 w3⟩

/-- BRG_CH_ERR takes an error (R419). -/
def State.brgErr (s : State) (c code index : Nat) : State :=
  s.setReg (a_BRG_CH_ERR (c / 8) (c % 8)) (BitVec.ofNat 64 (code % 256 + (index % 65536) * 2 ^ 16 + 2 ^ 63))

/-- BRG_MANIFEST_BAD (R400, R401). -/
def State.brgBad (s : State) (c code index iova : Nat) : State :=
  (s.brgEvent c 0x0801 0 (c + code * 2 ^ 8 + index * 2 ^ 16) iova).brgErr c code index

/-- The channel enters ERROR and raises event ID 1 (R403). -/
def State.brgError (s : State) (c : Nat) : State := (s.setBrgState c 3).raiseIrq c 1

/-! ### Power (R410) -/

/-- Does a condition of R410 hold for an engine: a channel RUNNING with HEAD ≠ TAIL, one STOPPING, or a presented RELEASE? -/
def State.brgBusy (s : State) (e : Nat) : Bool :=
  (List.range 8).any (fun k =>
    let c := 8 * e + k
    (s.brgState c == 1 && s.brgHead c != s.brgTail c) || s.brgState c == 4) ||
  s.lkp.passages.any (fun p => p.action == 1 && p.target / 8 == e)

/-- Place the DEP vote of an engine, or start the count of its tail. -/
def State.brgDep (s : State) (e : Nat) : State :=
  if s.brgBusy e then
    ({ s with brgs := { s.brgs with idle := smSet (fun _ => none) s.brgs.idle e none } }).setVote (768 + e) 4 true
  else if (smGet (fun _ => none) s.brgs.idle e).isNone && (s.votes (768 + e)).testBit 4 then
    { s with brgs := { s.brgs with idle := smSet (fun _ => none) s.brgs.idle e (some s.time.mt) } }
  else s

/-- Is a channel's engine powered, its clock running? One that drains ends the manifests it has taken (16 R496; DEDUCED, notes/assumptions/106.md). -/
def State.brgOn (s : State) (c : Nat) : Bool := s.clocked (768 + c / 8)
/-- Has an engine no manifest in flight, as it has when it switches off (16 R496)? -/
def State.brgDrained (s : State) (e : Nat) : Bool := (List.range 8).all (fun k => (s.brg (8 * e + k)).mans.isEmpty)

/-! ### Manifests (R390, R391, R393) -/

/-- Word k of a manifest. -/
def Man.word (m : Man) (k : Nat) : Word := m.w.getD k 0
/-- OP: 0 COPY, 1 FILL, 2 STRIDED2D. -/
def Man.op (m : Man) : Nat := fld (m.word 0) 0 3
/-- Bytes, per row for STRIDED2D. -/
def Man.len (m : Man) : Nat := fld (m.word 3) 0 40
/-- Rows: 1 for COPY and FILL. -/
def Man.rows (m : Man) : Nat := if m.op = 2 then fld (m.word 3) 40 24 else 1
/-- Signed 32-bit stride in word 4. -/
def Man.stride (m : Man) (hi : Bool) : Int := ((m.word 4).extractLsb' (if hi then 32 else 0) 32).toInt
/-- Does the manifest move nothing (R391)? -/
def Man.empty (m : Man) : Bool := m.len == 0 || m.rows == 0
/-- An operand's extent: its lowest and highest byte over all rows (R393). -/
def Man.extent (m : Man) (start : Word) (str : Int) : Int × Int :=
  let a : Int := start.toNat
  let last := a + ((m.rows : Int) - 1) * str
  (min a last, max a last + m.len - 1)
/-- Does an extent leave IOVA 0 to 2^57 − 1? -/
def extentBad (e : Int × Int) : Bool := decide (e.1 < 0) || decide (2 ^ 57 ≤ e.2)
/-- Do two extents overlap? -/
def extentsMeet (a b : Int × Int) : Bool := decide (a.1 ≤ b.2) && decide (b.1 ≤ a.2)

/-- The first check of R393 a manifest fails. -/
def Man.check (m : Man) : Option Nat :=
  let fill := m.op == 1
  let ss := m.stride false
  let ds := m.stride true
  let src := m.extent (m.word 1) (if m.op = 2 then ss else 0)
  let dst := m.extent (m.word 2) (if m.op = 2 then ds else 0)
  if (!fill && (m.word 1).toNat % 64 != 0) || (m.word 2).toNat % 64 != 0 || m.len % 64 != 0 || ss % 64 != 0 || ds % 64 != 0 then some 0x10
  else if 3 ≤ m.op || bit (m.word 0) 3 || fld (m.word 0) 7 57 != 0 || (m.op != 2 && (fld (m.word 3) 40 24 != 0 || m.word 4 != 0)) then some 0x11
  else if m.empty then none
  else if extentBad dst || (!fill && extentBad src) then some 0x12
  else if m.op == 2 && extentsMeet src dst && ss != ds then some 0x13
  else none

/-- Lines a manifest moves in the order of their writes: source IOVA (none for FILL) and destination IOVA. Descending where source and destination overlap and DST > SRC (R397). -/
def Man.lines (m : Man) : List (Option Nat × Nat) :=
  let ss := if m.op = 2 then m.stride false else 0
  let ds := if m.op = 2 then m.stride true else 0
  let l := (List.range m.rows).flatMap (fun (r : Nat) => (List.range (m.len / 64)).map (fun k =>
    (if m.op = 1 then none else some ((((m.word 1).toNat : Int) + r * ss).toNat + 64 * k), (((m.word 2).toNat : Int) + r * ds).toNat + 64 * k)))
  if m.op != 1 && extentsMeet (m.extent (m.word 1) ss) (m.extent (m.word 2) ds) && decide ((m.word 1).toNat < (m.word 2).toNat) then l.reverse else l

/-! ### Moving data (R391, R394–R397, R400) -/

/-- What reading one source line answers. -/
inductive SrcR where
  | data (d : Nat) (poison : Bool)
  | bad (code : Nat)
  | wait

/-- Owner number of a channel's device reads. -/
def brgOwner (c index : Nat) : Nat := 65536 * c + index

/-- Line reads of an engine that are outstanding (R411, R412). -/
def State.brgReadsOut (s : State) (e : Nat) : Nat := (s.port.out.filter (fun o => (o.kind == 2 || o.kind == 6) && o.owner / 65536 / 8 == e && o.res.isNone)).length

/-- Read one source line, or a manifest (kind 6), as a RdCur. A read of device memory waits for its completion; where no link carries it, it answers all ones at once (14 R423, R432, R440). A read whose request is out completes with the translation it was sent under (10 R304). At 768 outstanding reads of the engine a further one waits (R411). -/
def State.brgRead (s : State) (c index iova : Nat) (kind : Nat := 2) : State × SrcR :=
  match s.port.out.find? (fun o => o.kind == kind && o.owner == brgOwner c index && o.va == iova) with
  | some o =>
    match o.res with
    | none => (s, .wait)
    | some (0, v) => (s, .data v false)
    | some (1, _) => (s, .bad 2)
    | some (3, v) => (s, .data v true)
    | some (_, _) => (s, .bad 3)
  | none =>
  if 768 ≤ s.brgReadsOut (c / 8) then (s, .wait)
  else
  match s.devXlate (brgStream c) iova .load false with
  | (s1, none) => (s1, .bad 1)
  | (s1, some (pa, x, _)) =>
    if s1.paKind pa = .mmio then
      match s1.mmioTo pa 64 with
      | .link l => (s1.issue (slotOf pa) l kind (brgOwner c index) pa (s1.mmioBus pa) 64 0 iova, .wait)
      | .unclaimed => (s1.unclaimed (slotOf pa) true, .data (onesOf 64) false)
      | _ => (s1, .data (onesOf 64) false)
    else
      let (s2, bs, p) := s1.devReadPa (brgStream c) x pa 64
      (s2, .data (leVal bs) p)

/-- Read the source lines in order, up to the first that fails; `none` while any completion is awaited. -/
def State.brgReads (c index : Nat) (pat : Word) : List (Option Nat × Nat) → State → State × Option (List (Nat × Nat × Bool) × Option (Nat × Nat))
  | [], s => (s, some ([], none))
  | (src, dst) :: r, s =>
    match src with
    | none =>
      match State.brgReads c index pat r s with
      | (s1, some (l, e)) => (s1, some ((dst, leVal (((List.range 8).map (fun _ => leBytes 8 pat.toNat)).flatten), false) :: l, e))
      | x => x
    | some a =>
      match s.brgRead c index a with
      | (s1, .wait) => ((State.brgReads c index pat r s1).1, none)
      | (s1, .bad k) => (s1, some ([], some (k, a)))
      | (s1, .data d p) =>
        match State.brgReads c index pat r s1 with
        | (s2, some (l, e)) => (s2, some ((dst, d, p) :: l, match e with | some y => some y | none => none))
        | x => x

/-- Write one destination line as a WrLine, with its poison mark (R400; on a link, the EP mark); the failing code otherwise. A line in the MSI window goes to the Interrupt Router, which refuses its size (10 R301; 11 R317), unless its context faults (10 R300). A write to a link that is down is dropped (14 R432). -/
def State.brgWrite (s : State) (c dst d : Nat) (poison : Bool) : State × Option Nat :=
  if s.inMsi dst then (let x := s.msiWrite (brgStream c) dst 64 d; (x.1, if x.2 then none else some 1))
  else
  match s.devXlate (brgStream c) dst .store false with
  | (s1, none) => (s1, some 1)
  | (s1, some (pa, x, _)) =>
    if s1.paKind pa = .mmio then (s1.mmioPost pa 64 d poison, none)
    else
      (s1.devWritePa (brgStream c) x pa (leBytes 64 d) poison, none)

/-- Count an engine's line (19 R584: BRG_RD_BYTES, BRG_WR_BYTES). -/
def State.brgCount (s : State) (c code : Nat) (a : AccCls) (n : Nat) : State :=
  (List.range n).foldl (fun s _ => s.countUnc (a_UNC_CFG_BRG (c / 8) 0) 4 none code { stream := some (brgStream c) } a none 64) s

/-- Write lines in order until one fails; answers the bytes written and the failure. -/
def State.brgWrites (c : Nat) : List (Nat × Nat × Bool) → State → Nat → State × Nat × Option (Nat × Nat)
  | [], s, n => (s, n, none)
  | (dst, d, p) :: r, s, n =>
    match s.brgWrite c dst d p with
    | (s1, some k) => (s1, n, some (k, dst))
    | (s1, none) => State.brgWrites c r s1 (n + 64)

/-- Forget the device reads of a manifest. -/
def State.brgDropReads (s : State) (owner : Nat) : State :=
  State.invBusy ((s.dropOuts (fun o => o.kind == 2 && o.owner == owner)).unqueue 2 owner)
/-- Forget the read of a manifest that a channel was about to take. -/
def State.brgDropFetch (s : State) (c : Nat) : State :=
  if s.port.out.any (fun o => o.kind == 6 && o.owner / 65536 == c) || s.port.waits.any (fun w => w.2.1 == 6 && w.2.2 / 65536 == c) then
    let s1 := s.dropOuts (fun o => o.kind == 6 && o.owner / 65536 == c)
    State.invBusy { s1 with port := { s1.port with waits := s1.port.waits.filter (fun w => !(w.2.1 == 6 && w.2.2 / 65536 == c)) } }
  else s

/-- Move a manifest's data: every source line is read before any destination line is written (R397). After a failed read, any of the lines already read may have been written (R400; which is a free choice); `keep` limits the lines written, for a stop. `none` while device reads are outstanding, also those sent before a failed one (R400). -/
def State.brgMove (s : State) (c : Nat) (m : Man) (keep : Option Nat) : State × Option Man :=
  match State.brgReads c m.index (m.word 1) (if m.empty then [] else m.lines) s with
  | (s1, none) => (s1, none)
  | (s1, some (ls, e)) =>
    if s1.port.out.any (fun o => o.kind == 2 && o.owner == brgOwner c m.index && o.res.isNone) then (s1, none)
    else
    let s2 := s1.brgDropReads (brgOwner c m.index)
    let s3 := if m.op = 1 then s2 else s2.brgCount c 0x060 .read ls.length
    let ls1 := match keep with | some k => ls.take k | none => ls
    let ls2 := if e.isSome then ((List.range ls1.length).filterMap (fun i => if Config.pick s.freeCtr (4000 + i) % 2 = 0 then ls1[i]? else none)) else ls1
    let pois := (List.range ls.length).find? (fun i => match ls[i]? with | some x => x.2.2 | none => false)
    let (s4, n, w) := State.brgWrites c ls2 s3 0
    let s5 := s4.brgCount c 0x061 .write (n / 64)
    let bad : Option (Nat × Nat) := match e with
      | some x => some x
      | none => match w with
        | some x => some x
        | none => pois.map (fun i => (4, ((m.lines[i]?).bind (·.1)).getD 0))
    (s5, some { m with moved := true, bytes := n, code := (bad.map (·.1)).getD 0, badAt := (bad.map (·.2)).getD 0 })

/-! ### Deadlines and status (R392, R396, R402) -/

/-- DMA_DEADLINE for every manifest of a channel whose deadline the engine's MT copy has reached without a final status (R402). -/
def State.brgLate (s : State) (c : Nat) : State :=
  (List.range (s.brg c).mans.length).foldl (fun s i =>
    match (s.brg c).mans[i]? with
    | none => s
    | some m =>
      let d := (m.word 6).toNat
      if d != 0 && decide (d ≤ s.mtAt (768 + c / 8)) && !m.late then
        (s.brgEvent c 0x0803 5 (c + m.index * 2 ^ 16) d).setMan c i { m with late := true }
      else s) s

/-- Write the status word of the oldest manifest and take it off (R392, R401, R403), under the ring it was taken from (R405). Its data are complete; STATUS is given. -/
def State.brgStatus (s : State) (c : Nat) (m : Man) (st code bytes : Nat) : State :=
  let word := st + code * 2 ^ 8 + m.late.toNat * 2 ^ 16 + bytes * 2 ^ 24
  let (s1, ok) := s.devWrite (brgStream c) (m.base + 64 * m.index + 56) (leBytes 8 word) false
  let s2 := if ok then s1 else s1.brgBad c 6 m.index (m.base + 64 * m.index + 56)
  let irq := ok && bit (m.word 0) 4 && (st == 1 || st == 2)
  let s3 := (s2.updBrg c (fun x => { x with mans := x.mans.drop 1, acks := x.acks + irq.toNat })).wf (brgStat c) f_BRG_CH_STAT_DONE_IDX ((m.index + 1) % (m.limit + 1))
  s3.countUnc (a_UNC_CFG_BRG (c / 8) 0) 4 none 0x062 { stream := some (brgStream c) } .none none 1

/-- End of a manifest whose data have moved: DONE, or BAD with its event (R396, R400). -/
def State.brgFinish (s : State) (c : Nat) (m : Man) : State :=
  if m.code = 0 then s.brgStatus c m 1 0 m.bytes
  else (s.brgBad c m.code m.index m.badAt).brgStatus c m 2 m.code m.bytes

/-! ### Hand-over (R405, R406) -/

/-- Copy the shadow registers to the live ones; a change of BASE or LIMIT starts a new ring. -/
def State.brgHandOver (s : State) (c : Nat) : State :=
  let e := c / 8
  let k := c % 8
  let b := s.reg (a_BRG_CH_SBASE e k)
  let l := s.reg (a_BRG_CH_SLIMIT e k)
  let q := s.reg (a_BRG_CH_SQOS e k)
  let ring := b != s.reg (a_BRG_CH_BASE e k) || l != s.reg (a_BRG_CH_LIMIT e k)
  let h := a_BRG_CH_HANDOVER e k
  let s1 := ((s.setReg (a_BRG_CH_BASE e k) b).setReg (a_BRG_CH_LIMIT e k) l).setReg (a_BRG_CH_QOS e k) q
  let s2 := if ring then
      (((s1.wf h f_BRG_CH_HANDOVER_PREV_HEAD (s.brgHead c)).wf h f_BRG_CH_HANDOVER_PREV_TAIL (s.brgTail c)).wf
        (brgStat c) f_BRG_CH_STAT_HEAD 0).wf (a_BRG_CH_TAIL e k) f_BRG_CH_TAIL_TAIL 0
    else s1
  let s3 := s2.wf h f_BRG_CH_HANDOVER_COUNT ((s.rf h f_BRG_CH_HANDOVER_COUNT + 1) % 2 ^ 32)
  let s4 := (s3.wf (a_BRG_CH_SHADOW e k) f_BRG_CH_SHADOW_ARM 0).wf (a_BRG_CH_SHADOW e k) f_BRG_CH_SHADOW_PENDING 0
  let s5 := if ring then s4.brgDropFetch c else s4
  if s.brgState c = 5 then s5.setBrgState c 0 else s5

/-- Is a hand-over awaited? -/
def State.brgArmed (s : State) (c : Nat) : Bool := s.rf (a_BRG_CH_SHADOW (c / 8) (c % 8)) f_BRG_CH_SHADOW_ARM == 1

/-- A hand-over that need not wait: the channel is IDLE, ERROR or STOPPED. -/
def State.brgHandNow (s : State) (c : Nat) : State :=
  if s.brgArmed c && (s.brgState c == 0 || s.brgState c == 3 || s.brgState c == 5) then s.brgHandOver c else s

/-! ### Stops (R407–R409) -/

/-- A stop ends: IDLE, or STOPPED with ABORT_RESULT, and event ID 2; a waiting hand-over takes place. -/
def State.brgStopped (s : State) (c : Nat) (abort : Bool) (cancelled : Bool) : State :=
  let s1 := (s.brgDropFetch c).updBrg c (fun x => { x with stop := none })
  let s2 := if abort then
      ((s1.wf (brgStat c) f_BRG_CH_STAT_ABORT_RESULT (if cancelled then 1 else 2)).wf (a_BRG_CH_CTL (c / 8) (c % 8)) f_BRG_CH_CTL_ABORT 0).setBrgState c 5
    else s1.setBrgState c 0
  (s2.raiseIrq c 2).brgHandNow c

/-- Disable or abort a channel (R407, R408); ABORT reads 1 until an abort ends. -/
def State.brgStop (s : State) (c : Nat) (abort : Bool) : State :=
  let s1 := if abort then s.wf (a_BRG_CH_CTL (c / 8) (c % 8)) f_BRG_CH_CTL_ENABLE 0 else s
  let mark (s : State) : State := if abort then s.wf (a_BRG_CH_CTL (c / 8) (c % 8)) f_BRG_CH_CTL_ABORT 1 else s
  if s.brgState c = 4 then (mark s1).updBrg c (fun x => { x with stop := x.stop.map (fun y => { y with abort := y.abort || abort }) })
  else if s.brgState c = 5 then s1.wf (a_BRG_CH_CTL (c / 8) (c % 8)) f_BRG_CH_CTL_ABORT 0
  else if (s.brg c).mans.isEmpty then (if s.brgState c = 0 && !abort then s1 else s1.brgStopped c abort false)
  else ((mark s1).setBrgState c 4).updBrg c (fun x => { x with stop := some ⟨abort, s.time.mt, false⟩ })

/-- Do device reads of a channel remain outstanding (R407 step 2)? -/
def State.brgReading (s : State) (c : Nat) : Bool := s.port.out.any (fun o => (o.kind == 2 || o.kind == 6) && o.owner / 65536 == c && o.res.isNone)

/-- The manifests of a stopping channel end in ring order (R407 step 4, R409): one whose data have moved ends as it stands, the rest become CANCELLED with some of their lines written. Answers whether any was CANCELLED. -/
def State.brgCancel (c : Nat) : Nat → State → Bool → State × Bool
  | 0, s, b => (s, b)
  | n + 1, s, b =>
    match (s.brg c).mans with
    | [] => (s, b)
    | m :: _ =>
      if m.moved then State.brgCancel c n (s.brgFinish c m) b
      else if m.started && !m.lines.any (fun l => match l.1 with | some a => (s.devXlate (brgStream c) a .load false).2.any (fun r => s.paKind r.1 == .mmio) | none => false) then
        match s.brgMove c m (some (Config.pick s.freeCtr (4900 + n) % (m.lines.length + 1))) with
        | (s1, some m1) => State.brgCancel c n (s1.brgStatus c m1 4 0 m1.bytes) true
        | (s1, none) => State.brgCancel c n ((s1.brgDropReads (brgOwner c m.index)).brgStatus c m 4 0 0) true
      else State.brgCancel c n ((s.brgDropReads (brgOwner c m.index)).brgStatus c m 4 0 0) true

/-! ### Register writes (R389, R406, R413, R417) -/

/-- A write to BRG_CH_CTL: `v` is the value its fields take. -/
def State.brgCtl (s : State) (c : Nat) (v : Word) : State :=
  let off := a_BRG_CH_CTL (c / 8) (c % 8)
  let st := s.brgState c
  let en := bit v 0 && !(st == 4 || st == 5) && !bit v 3
  let hold := bit v 1
  let restart := bit v 2 && st == 3 && en
  let s1 := s.setReg off (setBit (setBit v 0 en) 2 false)
  let s2 :=
    if bit v 3 then s1.brgStop c true
    else if !bit v 0 then (if st == 4 || st == 5 then s1 else s1.brgStop c false)
    else if !en then s1
    else if st = 0 || restart || st = 1 || st = 2 then s1.setBrgState c (if hold then 2 else 1)
    else s1
  s2.brgDep (c / 8)

/-- A write to BRG_CH_TAIL: a value past LIMIT is ignored (R389). -/
def State.brgTailWrite (s : State) (c : Nat) (v : Word) : State :=
  if fld v 0 16 ≤ s.rf (a_BRG_CH_LIMIT (c / 8) (c % 8)) f_BRG_CH_LIMIT_LIMIT then (s.setReg (a_BRG_CH_TAIL (c / 8) (c % 8)) v).brgDep (c / 8) else s

/-- A write to a shadow register sets PENDING (R406). -/
def State.brgShadowWrite (s : State) (c off : Nat) (v : Word) : State :=
  (s.setReg off v).wf (a_BRG_CH_SHADOW (c / 8) (c % 8)) f_BRG_CH_SHADOW_PENDING 1

/-- A write to BRG_CH_SHADOW: ARM asks for a hand-over (R405). -/
def State.brgShadowArm (s : State) (c : Nat) (v : Word) : State :=
  ((s.setReg (a_BRG_CH_SHADOW (c / 8) (c % 8)) v).brgHandNow c).brgDep (c / 8)

/-- BRG_ENG_STAT as read (R412). -/
def State.brgEngStat (s : State) (e : Nat) : Word :=
  let act := ((List.range 8).map (fun k => if (s.brg (8 * e + k)).mans.isEmpty then 0 else 2 ^ k)).sum
  BitVec.ofNat 64 ((s.domState (768 + e) == 2).toNat + act * 2 ^ 8 + s.brgReadsOut e * 2 ^ 16)

/-! ### Releases (R399) -/

/-- A release reaches a channel. -/
def State.brgRelease (s : State) (c : Nat) : State :=
  let st := s.brgState c
  let s1 :=
    if st = 2 then (s.wf (a_BRG_CH_CTL (c / 8) (c % 8)) f_BRG_CH_CTL_HOLD 0).setBrgState c 1
    else if st = 1 || st = 3 then
      let k := s.rf (brgStat c) f_BRG_CH_STAT_CREDITS
      if k < 15 then s.wf (brgStat c) f_BRG_CH_STAT_CREDITS (k + 1) else s.wf (brgStat c) f_BRG_CH_STAT_CREDIT_LOST 1
    else s
  s1.brgDep (c / 8)

/-! ### Commands -/

/-- Would the channel take a manifest now? -/
def State.brgMayTake (s : State) (c : Nat) : Bool :=
  decide (c < 128) && s.brgState c == 1 && s.domServing (768 + c / 8) && s.brgHead c != s.brgTail c && decide ((s.brg c).mans.length < 4) &&
    (s.brg c).mans.all (fun m => decide (m.code < 0x10))

/-- Take the manifest at HEAD: read and check it (R393, R394, R401); one in device memory is taken once its completion has come. -/
def State.brgTake (s : State) (c : Nat) : State :=
  let base := s.rf (a_BRG_CH_BASE (c / 8) (c % 8)) f_BRG_CH_BASE_BASE * 4096
  let head := s.brgHead c
  let lim := s.rf (a_BRG_CH_LIMIT (c / 8) (c % 8)) f_BRG_CH_LIMIT_LIMIT
  match s.brgRead c head (base + 64 * head) 6 with
  | (s1, .wait) => s1
  | (s0, .data d false) =>
    let s1 := s0.brgDropFetch c
    let bs := leBytes 64 d
    let m : Man := { index := head, base := base, limit := lim, w := (List.range 7).map (fun k => BitVec.ofNat 64 (leVal ((bs.drop (8 * k)).take 8))),
                     started := false, moved := false, bytes := 0, code := 0, badAt := 0, late := false }
    (s1.updBrg c (fun x => { x with mans := x.mans ++ [{ m with code := m.check.getD 0 }] })).wf (brgStat c) f_BRG_CH_STAT_HEAD ((head + 1) % (lim + 1))
  | (s1, _) => ((s1.brgDropFetch c).brgBad c 5 head (base + 64 * head)).brgError c

/-- Position of the first manifest of a channel not yet started, if its predecessors have all started. -/
def State.brgNextStart (s : State) (c : Nat) : Option (Nat × Man) :=
  let i := (s.brg c).mans.findIdx (fun m => !m.started)
  (s.brg c).mans[i]?.map (fun m => (i, m))

/-- May that manifest start: the engine's MT copy has reached NOT_BEFORE, and a credit and the FENCE condition allow it (R395, R398)? A stop starts none (R407). -/
def State.brgMayStart (s : State) (c i : Nat) (m : Man) : Bool :=
  s.brgState c != 4 && s.brgOn c && decide (m.code < 0x10) && decide ((m.word 5).toNat ≤ s.mtAt (768 + c / 8)) &&
    (!bit (m.word 0) 6 || s.rf (brgStat c) f_BRG_CH_STAT_CREDITS != 0) &&
    (!bit (m.word 0) 5 || i == 0 || ((s.brg c).mans[i - 1]?).any (·.moved))

/-! ### Arbitration (R411) -/

/-- Does a manifest that has started have a line to move now: none of its reads is awaited? -/
def State.brgMovable (s : State) (c : Nat) (m : Man) : Bool :=
  m.started && !m.moved && !s.port.out.any (fun o => o.kind == 2 && o.owner == brgOwner c m.index && o.res.isNone)
/-- Has a channel a request ready: a manifest to read, one to start, lines to move, or the status of its oldest manifest to write? -/
def State.brgReady (s : State) (c : Nat) : Bool :=
  s.brgOn c && s.brgState c != 4 &&
    (s.brgMayTake c || (s.brgNextStart c).any (fun x => s.brgMayStart c x.1 x.2) || (s.brg c).mans.any (s.brgMovable c) ||
      (s.brg c).mans.head?.any (fun m => m.moved || decide (0x10 ≤ m.code)))
/-- PRIO of a channel. -/
def State.brgPrio (s : State) (c : Nat) : Nat := s.rf (a_BRG_CH_QOS (c / 8) (c % 8)) f_BRG_CH_QOS_PRIO
/-- How far a channel stands behind the one its engine served last, in rotation. -/
def State.brgRank (s : State) (c : Nat) : Nat := (c % 8 + 8 - smGet (fun _ => 0) s.brgs.turn (c / 8)) % 8
/-- Is a channel served next by its engine: no other with a request ready has a higher PRIO, or equal PRIO and an earlier place in the rotation? -/
def State.brgServes (s : State) (c : Nat) : Bool :=
  (List.range 8).all (fun k =>
    let d := c / 8 * 8 + k
    d == c || !s.brgReady d || decide (s.brgPrio d < s.brgPrio c) || (s.brgPrio d == s.brgPrio c && decide (s.brgRank c < s.brgRank d)))
/-- The engine has served a channel. -/
def State.brgServed (s : State) (c : Nat) : State := { s with brgs := { s.brgs with turn := smSet (fun _ => 0) s.brgs.turn (c / 8) ((c + 1) % 8) } }

/-- MANIFEST_TAKE, when the engine serves the channel: an armed hand-over comes first (R405, R411). -/
def execManifestTake (c : Nat) (s : State) : Host.Outcome State Fault Refusal :=
  let s0 := s.tick
  let s1 := if decide (c < 128) && s0.brgState c == 1 && s0.brgOn c && s0.brgArmed c && decide ((s0.brg c).mans.length < 4) then s0.brgHandOver c else s0
  .next (if s1.brgMayTake c && s1.brgServes c then s1.unlessHeld (fun s => ((s.brgServed c).brgTake c).brgDep (c / 8)) else s1)

/-- MANIFEST_START: the next manifest starts when the engine serves the channel (R411); its data may move now or by its end (a free choice). -/
def execManifestStart (c : Nat) (s : State) : Host.Outcome State Fault Refusal :=
  let s0 := s.tick
  match s0.brgNextStart c with
  | none => .next s0
  | some (i, m) =>
    if s0.brgMayStart c i m && s0.brgServes c then
      let s1 := if bit (m.word 0) 6 then (s0.brgServed c).wf (brgStat c) f_BRG_CH_STAT_CREDITS (s0.rf (brgStat c) f_BRG_CH_STAT_CREDITS - 1) else s0.brgServed c
      let m1 := { m with started := true }
      let s2 := s1.setMan c i m1
      if Config.pick s0.freeCtr 23 % 2 = 0 then
        .next (s2.unlessHeld (fun s =>
          match s.brgMove c m1 none with
          | (s3, some m2) => s3.setMan c i m2
          | (s3, none) => s3))
      else .next s2
    else .next s0

/-- MANIFEST_END, when the engine serves the channel (R411): the oldest manifest ends: its data are complete and its status is written (R392–R396, R400). A malformed one puts the channel into ERROR (R409). -/
def execManifestEnd (c : Nat) (s : State) : Host.Outcome State Fault Refusal :=
  let s0 := s.tick
  match (s0.brg c).mans with
  | [] => .next s0
  | m :: _ =>
    if s0.brgState c = 4 || !s0.brgOn c || !s0.brgServes c then .next s0
    else if 0x10 ≤ m.code then
      let s1 := (s0.brgServed c).brgLate c
      let m1 := (s1.brg c).mans.headD m
      let s2 := (s1.brgEvent c 0x0802 0 (c + m.code * 2 ^ 8 + m.index * 2 ^ 16) 0).brgErr c m.code m.index
      .next (((s2.brgStatus c m1 3 m.code 0).brgError c).brgHandNow c |>.brgDep (c / 8))
    else if !m.started then .next s0
    else
      .next (s0.unlessHeld (fun s0 =>
        let (s1, done) := if m.moved then (s0.brgServed c, some m) else (s0.brgServed c).brgMove c m none
        match done with
        | none => s1
        | some m1 =>
          let s2 := (s1.setMan c 0 m1).brgLate c
          (s2.brgFinish c ((s2.brg c).mans.headD m1)).brgDep (c / 8)))

/-- STATUS_WRITE_ACCEPTED: the interrupt of an ended manifest with IRQ (R396, R403). -/
def execStatusWriteAccepted (c : Nat) (s : State) : Host.Outcome State Fault Refusal :=
  if (s.brg c).acks = 0 then .next s
  else .next ((s.updBrg c (fun x => { x with acks := x.acks - 1 })).raiseIrq c 0)

/-- DMA_DEADLINE (R402). -/
def execDmaDeadline (c : Nat) (s : State) : Host.Outcome State Fault Refusal := .next (s.tick.brgLate c)

/-- CHANNEL_STOP_COMPLETE: the steps of R407, once no device read is outstanding. -/
def execChannelStopComplete (c : Nat) (s : State) : Host.Outcome State Fault Refusal :=
  let s0 := s.tick
  match (s0.brg c).stop with
  | none => .next s0
  | some st =>
    if s0.brgReading c then .next s0
    else
      let (s1, any) := State.brgCancel c 4 (s0.brgLate c) false
      .next ((s1.brgStopped c st.abort any).brgDep (c / 8))

/-- DISABLE_TIMEOUT: a stop not complete after 64 µs (R407). CODE and INDEX of BRG_CH_ERR are not stated for it. -/
def execDisableTimeout (c : Nat) (s : State) : Host.Outcome State Fault Refusal :=
  let s0 := s.tick
  match (s0.brg c).stop with
  | none => .next s0
  | some st =>
    if st.told || decide (s0.time.mt < st.start + 64000) then .next s0
    else
      let s1 := s0.brgEvent c 0x0804 5 (c + st.abort.toNat * 2 ^ 8 + (s0.brg c).mans.length * 2 ^ 16) st.start
      let s2 := s1.brgErr c ((Config.freeWord s.freeCtr 0x804).toNat % 256) ((Config.freeWord s.freeCtr 0x805).toNat % 65536)
      .next (s2.updBrg c (fun x => { x with stop := some { st with told := true } }))

/-- HAND_OVER: at a boundary of a RUNNING channel, or at once in IDLE, ERROR and STOPPED (R405). -/
def execHandOver (c : Nat) (s : State) : Host.Outcome State Fault Refusal :=
  let st := s.brgState c
  if decide (c < 128) && s.brgArmed c && (st == 0 || st == 3 || st == 5 || (st == 1 && decide ((s.brg c).mans.length < 4))) then
    .next ((s.brgHandOver c).brgDep (c / 8))
  else .next s

/-- ENGINE_DEP_RELEASE: 100 µs after the last condition of R410 the engine withdraws its vote. -/
def execEngineDepRelease (e : Nat) (s : State) : Host.Outcome State Fault Refusal :=
  let s0 := s.brgDep e
  match smGet (fun _ => none) s0.brgs.idle e with
  | some m => if s0.brgBusy e || decide (s0.time.mt < m + 100000) then .next s0
    else .next ({ s0 with brgs := { s0.brgs with idle := smSet (fun _ => none) s0.brgs.idle e none } }.setVote (768 + e) 4 false)
  | none => .next s0

end Sys2Proof.Machine
end

