-- ==== Sys2Proof/Machine/LockKeeper.lean ====
section
/-! DEFINITION. The Lock-Keeper: machine time, berths and passages, the Sync port, snapshots, its Galley commands (spec/12_lock_keeper.md; snapshots also spec/19_performance_monitoring.md R589). -/
namespace Sys2Proof.Machine

/-- Change the Lock-Keeper's own state. -/
def State.updLkp (s : State) (f : LkpSt → LkpSt) : State := { s with lkp := f s.lkp }
/-- Enter a state, from which PTP_WAIT counts. -/
def State.setLkpState (s : State) (k : Nat) : State :=
  if s.lkpState = k then s else (s.wf a_LKP_STATUS f_LKP_STATUS_STATE k).updLkp (fun x => { x with entered := s.time.ticks })
/-- An event of the Lock-Keeper to the Host queue (R377). Its SOURCE is its Colophon entry. -/
def State.lkpEvent (s : State) (typ sev : Nat) (w2 w3 : Word) : State := s.post 1 ⟨typ, sev, 799, 0, s.time.mt, w2, w3⟩

/-! ### Berths (R362–R366, R386) -/

/-- COUNT of Secure berths. -/
def State.secBerths (s : State) : Nat := s.rf a_LKP_SEC_RES f_LKP_SEC_RES_COUNT
/-- Does a berth lie in the Secure range? -/
def State.berthSecRange (s : State) (b : Nat) : Bool := decide (64 ≤ b + s.secBerths)
/-- Is a berth allocated? -/
def State.berthAlloc (s : State) (b : Nat) : Bool := s.rf (a_LKP_BERTH_OWNER b) f_LKP_BERTH_OWNER_ALLOC == 1
/-- Owner VMID. -/
def State.berthVmid (s : State) (b : Nat) : Nat := s.rf (a_LKP_BERTH_OWNER b) f_LKP_BERTH_OWNER_VMID
/-- Is the berth of the Secure world: its owner's when allocated, else by its range? -/
def State.berthSec (s : State) (b : Nat) : Bool :=
  if s.berthAlloc b then s.rf (a_LKP_BERTH_OWNER b) f_LKP_BERTH_OWNER_SEC == 1 else s.berthSecRange b
/-- Is the berth armed? -/
def State.berthArmed (s : State) (b : Nat) : Bool := s.rf (a_LKP_BERTH_CFG b) f_LKP_BERTH_CFG_ARMED == 1
/-- Fire time F. -/
def State.berthF (s : State) (b : Nat) : Nat := (s.reg (a_LKP_BERTH_FIRE b)).toNat
/-- Tolerance. -/
def State.berthTol (s : State) (b : Nat) : Nat := s.rf (a_LKP_BERTH_CFG b) f_LKP_BERTH_CFG_TOL
/-- Period, 0 for one-shot. -/
def State.berthPeriod (s : State) (b : Nat) : Nat := s.rf (a_LKP_BERTH_PERIOD b) f_LKP_BERTH_PERIOD_PERIOD
/-- ACTION. -/
def State.berthAction (s : State) (b : Nat) : Nat := s.rf (a_LKP_BERTH_CFG b) f_LKP_BERTH_CFG_ACTION
/-- TARGET. -/
def State.berthTarget (s : State) (b : Nat) : Nat := s.rf (a_LKP_BERTH_TARGET b) f_LKP_BERTH_TARGET_TARGET
/-- The presented passage of a berth. -/
def State.passageOf (s : State) (b : Nat) : Option Passage := s.lkp.passages.find? (fun p => p.berth == some b)
/-- A passage is withdrawn or done; the engine of a RELEASE loses its reason to stay powered (13 R410), and SNAP_STAT.PENDING follows. -/
def State.dropPassage (s : State) (p : Passage) : State :=
  let s1 := s.updLkp (fun x => { x with passages := x.passages.erase p })
  let s2 := if p.action = 1 then s1.brgDep (p.target / 8) else s1
  s2.wf a_LKP_SNAP_STAT f_LKP_SNAP_STAT_PENDING (s2.lkp.passages.any (fun q => q.action == 2) || s2.lkp.snapDue.isSome).toNat
/-- Withdraw the presented passage of a berth. -/
def State.withdraw (s : State) (b : Nat) : State := match s.passageOf b with | some p => s.dropPassage p | none => s

/-- Is a TARGET in range for an ACTION (R366)? -/
def targetOk (action t : Nat) : Bool :=
  if action = 1 then decide (t < 128) else if action = 3 then natField t 8 8 != 0 else if action = 4 then decide (t % 4096 ≤ 787) else true
/-- Is an ACTION within a berth's ACTMASK (R364)? -/
def State.actionOk (s : State) (b action : Nat) : Bool :=
  decide (action ≤ 4) && (s.rf (a_LKP_BERTH_OWNER b) f_LKP_BERTH_OWNER_ACTMASK).testBit action

/-- Recount HELD of every quota entry (R384): Normal berths held by its VMID. -/
def State.countHeld (s : State) : State :=
  (List.range 64).foldl (fun s i =>
    let r := s.reg (a_LKP_QUOTA i)
    if bit r 31 then
      let n := ((List.range 64).filter (fun b => s.berthAlloc b && !s.berthSec b && s.berthVmid b == fld r 0 16)).length
      s.wf (a_LKP_QUOTA i) f_LKP_QUOTA_HELD n
    else s) s

/-- The berth frame reads zero (R386). -/
def State.clearFrame (s : State) (b : Nat) : State :=
  [a_LKP_BERTH_FIRE b, a_LKP_BERTH_PERIOD b, a_LKP_BERTH_CFG b, a_LKP_BERTH_TARGET b, a_LKP_BERTH_OWNER b, a_LKP_BERTH_STAT b,
    a_LKP_BERTH_LAST b].foldl (fun s a => s.setReg a 0) s

/-! ### Occurrences (R365, R368) -/

/-- Disarm after an occurrence that a disarm was waiting for (R369), or of a one-shot. -/
def State.afterOcc (s : State) (b : Nat) : State :=
  let s1 := if s.berthPeriod b = 0 || s.lkp.disarm.contains b then s.wf (a_LKP_BERTH_CFG b) f_LKP_BERTH_CFG_ARMED 0 else s
  s1.updLkp (fun x => { x with disarm := x.disarm.filter (fun k => k != b) })

/-- An occurrence at fire time `f` has been performed. -/
def State.berthDone (s : State) (b f : Nat) : State :=
  let s1 := (s.wf (a_LKP_BERTH_STAT b) f_LKP_BERTH_STAT_FIRES ((s.rf (a_LKP_BERTH_STAT b) f_LKP_BERTH_STAT_FIRES + 1) % 2 ^ 32)).setReg
    (a_LKP_BERTH_LAST b) (BitVec.ofNat 64 f)
  let s2 := if s1.berthPeriod b = 0 then s1 else s1.setReg (a_LKP_BERTH_FIRE b) (BitVec.ofNat 64 (f + s1.berthPeriod b))
  s2.afterOcc b

/-- Occurrences whose windows have ended at MT, at least one: the first whose window has not ended is the next. -/
def skipCount (f period tol mt : Nat) : Nat := if period = 0 then 1 else max 1 ((mt - tol - f + period - 1) / period)

/-- One or more occurrences are missed: PASSAGE_MISSED, unless `quiet` (BERTH_ARM, whose proof replaces it). -/
def State.berthMiss (s : State) (b cause : Nat) (quiet : Bool) : State :=
  let f := s.berthF b
  let k := skipCount f (s.berthPeriod b) (s.berthTol b) s.time.mt
  let s1 := s.withdraw b
  let rec0 : EvRec := ⟨0x0405, 5, 799, s.berthVmid b, s.time.mt,
    BitVec.ofNat 64 (b + s.berthAction b * 2 ^ 8 + cause * 2 ^ 11 + (s.berthSec b).toNat * 2 ^ 14 + (k % 2 ^ 32) * 2 ^ 16), BitVec.ofNat 64 (s.time.mt - f)⟩
  let s2 := (if quiet then s1 else s1.post (if s.berthSec b then 0 else 1) rec0).addSat (a_LKP_BERTH_STAT b) f_LKP_BERTH_STAT_MISSES k
  let s3 := if s.berthPeriod b = 0 then s2 else s2.setReg (a_LKP_BERTH_FIRE b) (BitVec.ofNat 64 (f + k * s.berthPeriod b))
  s3.afterOcc b

/-- Has the window of F and TOL ended at a copy of MT that reads `mt` (R365)? -/
def overAt (mt f tol : Nat) : Bool := decide (f + tol < mt)
/-- Has the window of F and TOL ended at the Lock-Keeper's MT? -/
def State.windowOver (s : State) (f tol : Nat) : Bool := overAt s.time.mt f tol

/-- FIRE of a SNAPSHOT_NOW: w1, or 4 µs after its taking (17 R532). -/
def snapFire (c : GalCmd) : Nat := if c.word 1 = 0 then c.mt + 4000 else (c.word 1).toNat
/-- Answer the SNAPSHOT_NOW commands whose passage is gone: DONE when the snapshot of their FIRE is complete, else DEADLINE_MISSED. -/
def State.snapAnswer (s : State) : State :=
  [0, 1, 2].foldl (fun s r => s.galFinish r 0x0A01 (fun s c =>
    let f := snapFire c
    if s.lkp.passages.any (fun p => p.berth.isNone && p.f == f) || s.lkp.snapDue == some f then none
    else if s.lkp.lastSnap = some f then
      some (s, ⟨0, BitVec.ofNat 64 (s.rf a_LKP_SNAP_STAT f_LKP_SNAP_STAT_SEQ), BitVec.ofNat 64 f⟩)
    else some (s, gLate))) s

/-! ### Taking up time (R358) -/

/-- A forward step of MT to C misses every passage whose window ends inside the interval, that of a SNAPSHOT_NOW, whose TOL is 0, too (R358; 17 R532). -/
def State.stepMt (s : State) (c : Nat) : State :=
  let old := s.time.mt
  let s1 := { s with time := { s.time with mt := c } }
  if c ≤ old then s1
  else
    let s2 := (List.range 64).foldl (fun s b =>
      if s.berthArmed b && decide (s.berthF b + s.berthTol b < c) then s.berthMiss b 4 false else s) s1
    (s2.lkp.passages.filter (fun p => p.berth.isNone && decide (p.f < c))).foldl (fun s p => (s.dropPassage p).snapAnswer) s2

/-- Take up a code value for the moment at which MT was `at` (R358): step forward, or slew. LKP_OFFSET records C − MT. -/
def State.takeCode (s : State) (c at' : Nat) : State :=
  let off : Int := (c : Int) - at'
  let s1 := s.setReg a_LKP_OFFSET (BitVec.ofInt 64 off)
  if at' ≤ c then
    let s2 := ((s1.wf a_LKP_STATUS f_LKP_STATUS_SLEWING 0).updLkp (fun x => { x with ahead := 0 })).stepMt (c + (s.time.mt - at'))
    { s2 with time := { s2.time with edge := s2.time.edge + (c - at') } }
  else (s1.wf a_LKP_STATUS f_LKP_STATUS_SLEWING 1).updLkp (fun x => { x with ahead := at' - c })


/-- One ns (R355, R357–R359): the oscillator counts; ten of them are a cycle, at whose edge MT_REFCLK counts if it is present; MT runs unless in AWAIT or PTP before its first synchronisation, but for the first ns of each cycle while it slews, and in PTP at the steered rate. -/
def State.clockTick (s : State) : State :=
  let slew := s.mtRuns && s.rf a_LKP_STATUS f_LKP_STATUS_SLEWING == 1 && s.lkp.ahead != 0 && s.time.sub == 0
  let acc := if s.mtRuns && s.lkpState = 3 && s.lkp.ptpSet then s.lkp.acc + s.lkp.ppb else 0
  let adj : Int := acc / 1000000000
  let mt := if s.mtRuns then s.time.mt + ((if slew then 0 else 1 : Int) + adj).toNat else s.time.mt
  let edge := s.time.sub == 9
  let s1 := { s with time := { s.time with
    ticks := s.time.ticks + 1
    mt := mt
    sub := if edge then 0 else s.time.sub + 1
    edge := if edge then mt else s.time.edge
    refCycles := if edge && s.refOk then s.time.refCycles + 1 else s.time.refCycles } }
  s1.updLkp (fun x => { x with
    ahead := if slew then x.ahead - 1 else x.ahead
    acc := acc - adj * 1000000000
    gateWas := if edge then false else x.gateWas
    rose := if edge then none else x.rose })

/-! ### Acquiring and losing time (R355–R359) -/

/-- CRC-8 of an MT_CODE frame (R355). -/
def codeCrc (mt : BitVec 64) : BitVec 8 :=
  (List.range 64).foldl (fun (crc : BitVec 8) i =>
    let fb := bit mt i != bit crc 7
    let sh := crc <<< 1
    if fb then sh ^^^ 0x07#8 else sh) 0

/-- MT_CODE_FRAME: a complete frame is received while MT_REFCLK is present. -/
def execMtCodeFrame (value : BitVec 64) (crc : BitVec 8) (s : State) : Host.Outcome State Fault Refusal :=
  .next (if s.refOk then s.updLkp (fun x => { x with frames := x.frames ++ [(s.time.refCycles, value.toNat, crc == codeCrc value)] }) else s)

/-- A bad epoch (R356, R357): while LOCKED it is reported, and the third in a row enters HOLDOVER. -/
def State.badEpoch (s : State) (kind : Nat) (off : Word) : State :=
  let s1 := (s.addSat a_LKP_STATUS f_LKP_STATUS_BAD_EPOCHS 1).wf a_LKP_STATUS f_LKP_STATUS_CODE_OK 0
  let s2 := s1.updLkp (fun x => { x with good := none, goodRun := 0 })
  if s.lkpState = 1 then
    let s3 := s2.lkpEvent 0x0402 1 (BitVec.ofNat 64 kind) (if kind = 4 then off else 0)
    if 3 ≤ s3.rf a_LKP_STATUS f_LKP_STATUS_BAD_EPOCHS then (s3.setLkpState 2).lkpEvent 0x0403 2 2 0 else s3
  else s2

/-- A good epoch (R356–R358): the second in a row outside LOCKED takes up its code. -/
def State.goodEpoch (s : State) (c : Nat) : State :=
  let cyc := s.time.refCycles
  let s1 := ((s.wf a_LKP_STATUS f_LKP_STATUS_BAD_EPOCHS 0).wf a_LKP_STATUS f_LKP_STATUS_CODE_OK 1).setReg a_LKP_EPOCH (BitVec.ofNat 64 c)
  let s2 := s1.updLkp (fun x => { x with good := some (cyc, c), goodRun := x.goodRun + 1 })
  if s.lkpState != 1 && decide (2 ≤ s2.lkp.goodRun) then
    let prev := s.lkpState
    let off : Int := (c : Int) - s.time.edge
    ((s2.takeCode c s.time.edge).setLkpState 1).lkpEvent 0x0401 0 (BitVec.ofNat 64 prev) (BitVec.ofInt 64 off)
  else s2

/-- The kind of a bad epoch at this cycle, if it is bad (R356, in its order; the code is compared with MT only while LOCKED). -/
def State.epochKind (s : State) (frames : List (Nat × Nat × Bool)) : Option Nat :=
  match frames.filter (fun f => f.2.2) with
  | [f] =>
    match s.lkp.good with
    | some (cyc, v) =>
      if s.time.refCycles != cyc + 100000 then some 2
      else if f.2.1 != v + 1000000 then some 5
      else if s.lkpState == 1 && f.2.1 != s.time.edge then some 4
      else none
    | none => if s.lkpState == 1 && f.2.1 != s.time.edge then some 4 else none
  | _ => some 3

/-- MT_EPOCH: an epoch cycle, judged by the frames since the previous one, or of the last 100,000 cycles when there was none; the next is expected 100,000 reference cycles later. -/
def execMtEpoch (s : State) : Host.Outcome State Fault Refusal :=
  if !s.refOk then .next s
  else
    let fs := if s.lkp.seen then s.lkp.frames else s.lkp.frames.filter (fun f => decide (s.time.refCycles ≤ f.1 + 100000))
    let s1 := s.updLkp (fun x => { x with frames := [], seen := true, expect := some (s.time.refCycles + 100000) })
    let code := ((fs.filter (fun f => f.2.2)).head?.map (·.2.1)).getD 0
    match s.epochKind fs with
    | none => .next (s1.goodEpoch code)
    | some k => .next (s1.badEpoch k (BitVec.ofInt 64 ((code : Int) - s.time.edge)))

/-- EPOCH_MISSING: the cycle an epoch was expected in has passed without one (R357; KIND 1). -/
def execEpochMissing (s : State) : Host.Outcome State Fault Refusal :=
  match s.lkp.expect with
  | some e => if s.refOk && decide (e < s.time.refCycles) then .next ((s.updLkp (fun x => { x with expect := some (e + 100000) })).badEpoch 1 0) else .next s
  | none => .next s

/-- REFERENCE_LOST: no MT_REFCLK edge for 50 ns (R357). -/
def execReferenceLost (s : State) : Host.Outcome State Fault Refusal :=
  if !s.refOk then .next s
  else
    let s1 := (s.wf a_LKP_STATUS f_LKP_STATUS_REF_OK 0).updLkp (fun x => { x with good := none, goodRun := 0, expect := none, seen := false, frames := [] })
    if s.lkpState = 0 then .next s1 else .next ((s1.setLkpState 2).lkpEvent 0x0403 2 1 0)

/-- PTP_WAIT_EXPIRY: after PTP_WAIT ms of oscillator time in AWAIT or HOLDOVER with PTP_EN, the state becomes PTP (R357). -/
def execPtpWaitExpiry (s : State) : Host.Outcome State Fault Refusal :=
  let k := s.lkpState
  if s.rf a_LKP_CTL f_LKP_CTL_PTP_EN == 1 && (k == 0 || k == 2) && decide (s.lkp.entered + s.rf a_LKP_CTL f_LKP_CTL_PTP_WAIT * 1000000 ≤ s.time.ticks) then
    .next (((s.setLkpState 3).updLkp (fun x => { x with ptpRuns := k == 2, ptpSet := false, ppb := 0, acc := 0 })).lkpEvent 0x0404 2 0 0)
  else .next s

/-- PTP_SYNC (R359): the first accepted synchronisation sets MT; later ones steer the rate within ±200 ppm, given in parts per 10^9. -/
def execPtpSync (t : BitVec 64) (ppb : Int) (s : State) : Host.Outcome State Fault Refusal :=
  if s.lkpState != 3 then .next s
  else if s.lkp.ptpSet then .next (s.updLkp (fun x => { x with ppb := max (-200000) (min 200000 ppb) }))
  else .next ((s.updLkp (fun x => { x with ptpSet := true, ptpRuns := true })).takeCode t.toNat s.time.mt)

/-- SLEW_END: MT equals the machine's time again (R358). -/
def execSlewEnd (s : State) : Host.Outcome State Fault Refusal :=
  .next (if s.lkp.ahead = 0 then s.wf a_LKP_STATUS f_LKP_STATUS_SLEWING 0 else s)

/-! ### The Sync port (R374, R375) -/

/-- The acknowledge of an edge (R374): SYNC_OUT follows SYNC_IN, the gate disarms, the cycle's MT and the arrival are recorded and delivered. -/
def State.syncAck (s : State) : State :=
  let s2 := (s.updLkp (fun x => { x with syncOut := x.syncPin, gateWas := false, rose := none })).wf a_LKP_SYNC_CTL f_LKP_SYNC_CTL_ARMED 0
  let s3 := s2.setReg a_LKP_SYNC_LAST (BitVec.ofNat 64 s.time.mt)
  (s3.wf a_LKP_SYNC_STAT f_LKP_SYNC_STAT_ARRIVALS ((s.rf a_LKP_SYNC_STAT f_LKP_SYNC_STAT_ARRIVALS + 1) % 2 ^ 32)).raiseIrq 0x0C4 0

/-- A sample of SYNC_IN in a reference cycle. -/
def State.syncSampled (s : State) : State :=
  let rise := s.lkp.syncPin && !s.lkp.syncSample
  let s1 := s.updLkp (fun x => { x with syncSample := x.syncPin, syncOut := x.syncOut && x.syncPin })
  if !rise then s1
  else if s.rf a_LKP_SYNC_CTL f_LKP_SYNC_CTL_ARMED = 1 || s.lkp.gateWas then s1.syncAck
  else (s1.updLkp (fun x => { x with rose := some (s.reg a_LKP_SYNC_STAT) })).addSat a_LKP_SYNC_STAT f_LKP_SYNC_STAT_UNARMED 1

/-- Arm or disarm the gate (R374): an edge sampled in the cycle in which either takes effect is acknowledged in that cycle (R375). -/
def State.syncGate (s : State) (arm : Bool) : State :=
  if arm then
    if s.rf a_LKP_SYNC_CTL f_LKP_SYNC_CTL_ARMED = 1 then s
    else
      match s.lkp.rose with
      | some w => ((s.setReg a_LKP_SYNC_STAT w).updLkp (fun x => { x with syncOut := x.syncPin, armMt := s.time.mt, syncTold := false })).syncAck
      | none => (s.wf a_LKP_SYNC_CTL f_LKP_SYNC_CTL_ARMED 1).updLkp (fun x => { x with armMt := s.time.mt, syncTold := false })
  else if s.rf a_LKP_SYNC_CTL f_LKP_SYNC_CTL_ARMED = 1 then (s.wf a_LKP_SYNC_CTL f_LKP_SYNC_CTL_ARMED 0).updLkp (fun x => { x with gateWas := true })
  else s

/-- A write to LKP_SYNC_CTL. -/
def State.syncCtlWrite (s : State) (v : Word) : State :=
  (s.wf a_LKP_SYNC_CTL f_LKP_SYNC_CTL_TIMEOUT (fld v 16 16)).syncGate (bit v 0)

/-- SYNC_IN_RISE: SYNC_IN goes high; without MT_REFCLK it is not sampled. -/
def execSyncInRise (s : State) : Host.Outcome State Fault Refusal :=
  let s1 := s.updLkp (fun x => { x with syncPin := true })
  .next (if s.refOk then s1.syncSampled else s1)
/-- SYNC_IN_FALL. -/
def execSyncInFall (s : State) : Host.Outcome State Fault Refusal :=
  let s1 := s.updLkp (fun x => { x with syncPin := false })
  .next (if s.refOk then s1.syncSampled else s1)
/-- MT_REFCLK_RETURN: REF_OK is set and sampling resumes against the last sample. -/
def execMtRefclkReturn (s : State) : Host.Outcome State Fault Refusal :=
  if s.refOk then .next s else .next ((s.wf a_LKP_STATUS f_LKP_STATUS_REF_OK 1).syncSampled)
/-- SYNC_TIMEOUT: the gate has stayed armed for TIMEOUT µs of MT. -/
def execSyncTimeout (s : State) : Host.Outcome State Fault Refusal :=
  let t := s.rf a_LKP_SYNC_CTL f_LKP_SYNC_CTL_TIMEOUT
  if s.rf a_LKP_SYNC_CTL f_LKP_SYNC_CTL_ARMED == 1 && t != 0 && !s.lkp.syncTold && decide (s.lkp.armMt + t * 1000 ≤ s.time.mt) then
    .next (((s.updLkp (fun x => { x with syncTold := true })).wf a_LKP_SYNC_STAT f_LKP_SYNC_STAT_TIMED_OUT 1).lkpEvent 0x0406 5
      (BitVec.ofNat 64 t) (BitVec.ofNat 64 s.lkp.armMt))
  else .next s

/-! ### Snapshots (R376, 19 R589) -/

/-- Copy n counters of an uncore block into their shadows and tag it. -/
def State.snapBlock (tag : Nat) (s : State) (b : Nat × Nat) : State :=
  let s1 := (List.range b.2).foldl (fun s i => s.setReg (b.1 + 0x40 * i + 0x10) (s.reg (b.1 + 0x40 * i + 8))) s
  s1.setReg (b.1 + 0x40 * b.2 + 8) (BitVec.ofNat 64 tag)
/-- Copy the counters of a core. -/
def State.snapCore (tag : Nat) (s : State) (p : Nat) : State :=
  let c := s.core p
  let s1 := (List.range 8).foldl (fun s n => s.setReg (a_STP_PMU_SHD p n) (smGet (fun _ => 0) c.pmc n)) s
  let s2 := (List.range 4).foldl (fun s t => (s.setReg (a_STP_PMU_SHD_CYC p t) (smGet (fun _ => 0) c.pmcCyc t)).setReg
    (a_STP_PMU_SHD_RET p t) (smGet (fun _ => 0) c.pmcRet t)) s1
  s2.setReg (a_STP_PMU_SNAP_TAG p) (BitVec.ofNat 64 tag)
/-- Counter blocks with their domains: slices, DDR5 and HBM controllers, aqueducts, root ports, Wharf, Barge engines (19 R578). -/
def counterBlocks : List (Nat × Nat × Nat) :=
  (List.range 224).map (fun i => (448 + i, a_UNC_CFG_SL i 0, 4)) ++ (List.range 16).map (fun i => (710 + i, a_UNC_CFG_DMC i 0, 8)) ++
  (List.range 4).map (fun i => (742 + i, a_UNC_CFG_HMC i 0, 8)) ++ (List.range 38).map (fun i => (672 + i, a_UNC_CFG_AQ i 0, 4)) ++
  (List.range 8).map (fun i => (750 + i, a_UNC_CFG_RPT i 0, 8)) ++ [(766, a_UNC_CFG_WHF 0, 8)] ++
  (List.range 16).map (fun i => (768 + i, a_UNC_CFG_BRG i 0, 4))
/-- SNAPSHOT_COMPLETE's effect: LKP_SNAP_MT, then SEQ. -/
def State.snapComplete (s : State) : State :=
  match s.lkp.snapDue with
  | none => s
  | some f =>
    let s1 := (s.setReg a_LKP_SNAP_MT (BitVec.ofNat 64 f)).updLkp (fun x => { x with snapDue := none })
    (s1.wf a_LKP_SNAP_STAT f_LKP_SNAP_STAT_SEQ ((s.rf a_LKP_SNAP_STAT f_LKP_SNAP_STAT_SEQ + 1) % 2 ^ 32)).wf a_LKP_SNAP_STAT f_LKP_SNAP_STAT_PENDING
      (s1.lkp.passages.any (fun q => q.action == 2)).toNat
/-- Latch every counter of every unit whose domain is on, at F. A snapshot not yet completed completes first. -/
def State.snapshot (s : State) (f : Nat) : State :=
  let s0 := s.snapComplete.snapAnswer
  let tag := (s0.rf a_LKP_SNAP_STAT f_LKP_SNAP_STAT_SEQ + 1) % 2 ^ 32
  let s1 := ((List.range 224).filter s0.domOn).foldl (State.snapCore tag) s0
  let s2 := ((counterBlocks.filter (fun b => s0.domOn b.1)).map (·.2)).foldl (State.snapBlock tag) s1
  let s3 := (if s0.domOn 784 then s2.setReg a_IRT_SHD_COALESCED (s2.reg a_IRT_CNT_COALESCED) else s2).setReg a_PVC_SHD_DEFERRED (s2.reg a_PVC_CNT_DEFERRED)
  (s3.updLkp (fun x => { x with lastSnap := some f, snapDue := some f })).wf a_LKP_SNAP_STAT f_LKP_SNAP_STAT_PENDING 1

/-! ### Presenting and performing (R366–R369) -/

/-- Translate a RAISE at its presentation: its entries, or none with the fault reported. -/
def State.presentRaise (s : State) (b ev : Nat) : State × Option ((Word × Word) × (Word × Word)) :=
  s.irtTranslate ⟨true, 0x080 + b, ev⟩ none

/-- PASSAGE_PRESENT (R367): from 2 µs before F. A RELEASE places its engine's vote (13 R410). -/
def execPassagePresent (b : Nat) (s : State) : Host.Outcome State Fault Refusal :=
  let a := s.berthAction b
  let f := s.berthF b
  if decide (64 ≤ b) || !s.berthArmed b || !s.mtRuns || decide (2 < a) || decide (s.time.mt + 2000 < f) || (s.passageOf b).isSome then .next s
  else if s.windowOver f (s.berthTol b) then .next (s.berthMiss b 2 false)
  else
    let (s1, r) := if a = 0 then s.tick.presentRaise b (s.berthTarget b) else (s, none)
    let s2 := s1.updLkp (fun x => { x with passages := x.passages ++ [⟨some b, f, a, s.berthTarget b, r⟩] })
    .next (if a = 1 then s2.brgDep (s.berthTarget b / 8) else if a = 2 then s2.wf a_LKP_SNAP_STAT f_LKP_SNAP_STAT_PENDING 1 else s2)

/-- MT as the destination of a presented passage holds it (R360, R367): the stop of a RAISE's physical target, the engine of a RELEASE, else the Lock-Keeper's. -/
def State.destMt (s : State) (p : Passage) : Nat :=
  if p.action = 1 then s.mtAt (768 + p.target / 8)
  else match p.raise with
    | some (_, it) => if bit it.1 1 then s.mtAt 797 else s.mtAt (s.stopOf (fld it.1 32 10))
    | none => s.time.mt
/-- Has the window of a presented passage ended at its destination? -/
def State.passOver (s : State) (p : Passage) (b : Nat) : Bool := overAt (s.destMt p) p.f (s.berthTol b)
/-- The presented passage of a berth with an ACTION, when F has come at its destination. -/
def State.duePassage (s : State) (b action : Nat) : Option Passage :=
  match s.passageOf b with
  | some p => if p.action == action && s.mtRuns && decide (p.f ≤ s.destMt p) then some p else none
  | none => none

/-- The router delivers a presented interrupt, unless its VMID has been blocked since (11 R320, R341). -/
def State.raiseNow (s : State) (x : IrtSrc) (r : (Word × Word) × (Word × Word)) (f : Nat) : State :=
  if s.vmidBlocked 4 (fld r.1.2 0 16) then s.irtFault x (fld r.1.2 0 16) 5 ((s.dtAddr x).getD 0) else s.irtDeliver x r.1 r.2 f

/-- A RAISE, if due. -/
def State.doRaise (s : State) (b : Nat) : State :=
  match s.duePassage b 0 with
  | none => s
  | some p =>
    if s.passOver p b then s.berthMiss b 2 false
    else
      let s1 := s.tick.dropPassage p
      let s2 := match p.raise with | some r => s1.raiseNow ⟨true, 0x080 + b, p.target⟩ r p.f | none => s1
      s2.berthDone b p.f

/-- RAISE: at F the router delivers the presented interrupt (R366, R367). -/
def execRaise (b : Nat) (s : State) : Host.Outcome State Fault Refusal := .next (s.doRaise b)

/-- A RELEASE, if due. -/
def State.doRelease (s : State) (b : Nat) : State :=
  match s.duePassage b 1 with
  | none => s
  | some p =>
    if s.passOver p b then s.berthMiss b (if s.brgOn p.target then 2 else 3) false
    else if !s.brgOn p.target then s
    else if s.lkp.passages.any (fun q => q.action == 1 && q.target == p.target && q.f == p.f && decide (q.berth.getD 64 < b)) then s
    else ((s.brgRelease p.target).dropPassage p).berthDone b p.f

/-- RELEASE: at F a Barge channel's release input (R366, 13 R399). Of two at one F the lower-numbered berth's comes first. -/
def execRelease (b : Nat) (s : State) : Host.Outcome State Fault Refusal := .next (s.doRelease b)

/-- SNAPSHOT of a berth, or of SNAPSHOT_NOW (none), at F (R366, R368): in order of F; within 4 µs of the last performed it is missed, and with equal F it joins it. A missed SNAPSHOT_NOW is answered DEADLINE_MISSED. -/
def State.doSnapshot (s : State) (b : Option Nat) : State :=
  match s.lkp.passages.find? (fun p => p.berth == b && p.action == 2 && !s.lkp.passages.any (fun q => q.action == 2 && decide (q.f < p.f))) with
  | none => s
  | some p =>
    if !s.mtRuns || decide (s.time.mt < p.f) then s
    else
      let past := s.windowOver p.f (match b with | some k => s.berthTol k | none => 0)
      let near := match s.lkp.lastSnap with | some l => l != p.f && decide (p.f < l + 4000) | none => false
      let joins := s.lkp.lastSnap == some p.f
      if past || near then
        match b with
        | some k => s.berthMiss k (if near then 3 else 2) false
        | none => (s.dropPassage p).snapAnswer
      else
        let s1 := if joins then s else s.snapshot p.f
        let s2 := s1.dropPassage p
        match b with | some k => s2.berthDone k p.f | none => s2.snapAnswer

/-- SNAPSHOT of a berth, or of SNAPSHOT_NOW, at F. -/
def execSnapshot (b : Option Nat) (s : State) : Host.Outcome State Fault Refusal := .next (s.doSnapshot b)

/-- SNAPSHOT_COMPLETE: every stop has confirmed (R376). -/
def execSnapshotComplete (s : State) : Host.Outcome State Fault Refusal := .next s.snapComplete.snapAnswer

/-- Is an armed berth with an ACTION performed at the Lock-Keeper due? -/
def State.dueLocal (s : State) (b action : Nat) : Bool :=
  decide (b < 64) && s.berthArmed b && s.mtRuns && s.berthAction b == action && decide (s.berthF b ≤ s.time.mt)

/-- A PULSE, if due. -/
def State.doPulse (s : State) (b : Nat) : State :=
  if !s.dueLocal b 3 then s
  else if s.windowOver (s.berthF b) (s.berthTol b) then s.berthMiss b 3 false
  else
    let t := s.berthTarget b
    ((s.updLkp (fun x => { x with pulses := x.pulses ++ [(t % 2, s.time.refCycles + natField t 8 8)] })).berthDone b (s.berthF b))

/-- PULSE: at F a pin is driven high for WIDTH reference cycles (R366). -/
def execPulse (b : Nat) (s : State) : Host.Outcome State Fault Refusal := .next (s.doPulse b)

/-- PULSE_END: pulses of a pin whose WIDTH cycles have passed end (R366). -/
def execPulseEnd (pin : Nat) (s : State) : Host.Outcome State Fault Refusal :=
  .next (s.updLkp (fun x => { x with pulses := x.pulses.filter (fun p => !(p.1 == pin && decide (p.2 ≤ s.time.refCycles))) }))

/-- Level of PULSE_OUT (0) or SYNC_OUT (1): the OR of pulses and the Sync acknowledge (R366, R374). -/
def State.pinLevel (s : State) (pin : Nat) : Bool := s.lkp.pulses.any (fun p => p.1 == pin) || (pin == 1 && s.lkp.syncOut)

/-- A VOTE, if due. -/
def State.doVote (s : State) (b : Nat) : State :=
  if !s.dueLocal b 4 then s
  else if s.windowOver (s.berthF b) (s.berthTol b) then s.berthMiss b 3 false
  else
    let t := s.berthTarget b
    let beaten := (List.range 64).any (fun k => decide (b < k) && s.berthAction k == 4 && s.berthTarget k % 4096 == t % 4096 &&
      s.rf (a_LKP_BERTH_STAT k) f_LKP_BERTH_STAT_FIRES != 0 && (s.reg (a_LKP_BERTH_LAST k)).toNat == s.berthF b)
    let s1 := if beaten || domAbsent s.variant (t % 4096) then s else s.setVote (t % 4096) 2 (t.testBit 12)
    s1.berthDone b (s.berthF b)

/-- VOTE: at F the LKP vote is placed or withdrawn (R366). Of two at one F the higher-numbered berth's value stands (R369). -/
def execVote (b : Nat) (s : State) : Host.Outcome State Fault Refusal := .next (s.doVote b)

/-- The passage of a berth whose fire time has come is performed, or missed if its window has ended. -/
def State.doDue (s : State) (b : Nat) : State := ((((s.doRaise b).doRelease b).doSnapshot (some b)).doPulse b).doVote b

/-- Free a berth: a passage whose fire time came first is performed, a presented one is withdrawn else (R369, R370). -/
def State.freeBerth (s : State) (b : Nat) : State :=
  ((((s.doDue b).withdraw b).updLkp (fun x => { x with disarm := x.disarm.filter (fun k => k != b) })).clearFrame b).countHeld

/-! ### Frame and control registers (R362, R364, R369, R378, R385) -/

/-- Disarm a berth (R369): 100 ns or more before F the passage is withdrawn; later it is performed first. -/
def State.disarmBerth (s : State) (b : Nat) : State :=
  if !s.berthArmed b then s
  else if s.time.mt + 100 ≤ s.berthF b || !s.mtRuns then (s.withdraw b).wf (a_LKP_BERTH_CFG b) f_LKP_BERTH_CFG_ARMED 0
  else s.updLkp (fun x => { x with disarm := if x.disarm.contains b then x.disarm else x.disarm ++ [b] })

/-- A berth armed after F + TOL misses its passage: cause 1 (R368). -/
def State.armedLate (s : State) (b : Nat) : Bool := s.mtRuns && decide (s.berthF b + s.berthTol b < s.time.mt)

/-- A write to LKP_BERTH_CFG of an allocated berth (R364). -/
def State.berthCfgWrite (s : State) (b : Nat) (v : Word) : State :=
  let off := a_LKP_BERTH_CFG b
  let act := fld v 1 3
  if s.berthArmed b then (if bit v 0 then s else s.disarmBerth b)
  else if 4 < act then s
  else if !bit v 0 then s.setReg off v
  else if !s.actionOk b act || !targetOk act (s.berthTarget b) then s
  else
    let s1 := s.setReg off v
    if s1.armedLate b then s1.berthMiss b 1 false else s1

/-- A write to FIRE, PERIOD or TARGET (R364, R386): not while armed; TARGET not while FIXED; PERIOD 1–999 leaves the field unchanged. -/
def State.berthProgWrite (s : State) (b off : Nat) (v : Word) : State :=
  if s.berthArmed b then s
  else if off = a_LKP_BERTH_TARGET b && s.rf (a_LKP_BERTH_OWNER b) f_LKP_BERTH_OWNER_FIXED == 1 then s
  else if off = a_LKP_BERTH_PERIOD b && decide (0 < fld v 0 48) && decide (fld v 0 48 < 1000) then s
  else s.setReg off v

/-- The check of an access to a berth frame (R362): refused with a violation of KIND 7, or silently for a free berth. -/
def State.frameCheck (s : State) (b vmid rtype req off : Nat) (sec : Bool) : Option State :=
  if s.berthSecRange b && !sec then some (s.secViol 1000 vmid rtype req 7 off)
  else if !s.berthAlloc b then some s
  else none

/-- A write to LKP_SEC_RES (R362, R385). -/
def State.secResWrite (s : State) (v : Word) : State :=
  let c := fld v 0 7
  if smGet (fun _ => 0) s.locks a_LKP_SEC_RES != 0 || decide (64 < c) ||
      (List.range 64).any (fun b => decide (64 ≤ b + c) && s.berthAlloc b && s.rf (a_LKP_BERTH_OWNER b) f_LKP_BERTH_OWNER_SEC == 0) then s
  else { s.wf a_LKP_SEC_RES f_LKP_SEC_RES_COUNT c with locks := smSet (fun _ => 0) s.locks a_LKP_SEC_RES 1 }

/-- A write to LKP_CTL: PTP_WAIT 0 leaves the field unchanged. -/
def State.lkpCtlWrite (s : State) (v : Word) : State :=
  s.setReg a_LKP_CTL (if fld v 8 16 = 0 then setFld v 8 16 (s.rf a_LKP_CTL f_LKP_CTL_PTP_WAIT) else v)

/-- What a warm chip reset does to the Lock-Keeper (R370): berths, quotas, COUNT and the Sync gate clear; passages are withdrawn; fields marked Kept and MT stay. -/
def State.lkpWarm (s : State) : State :=
  let s1 := (List.range 64).foldl (fun s b => (s.clearFrame b).setReg (a_LKP_QUOTA b) 0) s
  let s2 := [a_LKP_SEC_RES, a_LKP_SYNC_CTL, a_LKP_SYNC_STAT, a_LKP_SYNC_LAST, a_LKP_SNAP_STAT, a_LKP_SNAP_MT].foldl (fun s a => s.setReg a 0) s1
  { s2 with
    locks := smSet (fun _ => 0) s2.locks a_LKP_SEC_RES 0
    lkp := { s2.lkp with passages := [], lastSnap := none, snapDue := none, disarm := [], armMt := 0, syncTold := false, gateWas := false, rose := none, takenAt := none } }

/-! ### Galley commands (R363, R372, R373) -/

/-- BERTH_QUOTA_SET. -/
def State.quotaSet (s : State) (c : GalCmd) : State × GalRes :=
  let v := c.par 1 0 16
  let q := c.par 1 16 7
  if v = 0 || 64 < q then (s, gBadParam)
  else
    let mine := (List.range 64).find? (fun i => bit (s.reg (a_LKP_QUOTA i)) 31 && fld (s.reg (a_LKP_QUOTA i)) 0 16 == v)
    let free := (List.range 64).find? (fun i => !bit (s.reg (a_LKP_QUOTA i)) 31)
    let held := ((List.range 64).filter (fun b => s.berthAlloc b && !s.berthSec b && s.berthVmid b == v)).length
    match mine, free with
    | some i, _ => if q = 0 && held = 0 then (s.setReg (a_LKP_QUOTA i) 0, gDone) else (s.wf (a_LKP_QUOTA i) f_LKP_QUOTA_QUOTA q, gDone)
    | none, some i =>
      if q = 0 && held = 0 then (s, gDone) else (s.setReg (a_LKP_QUOTA i) (BitVec.ofNat 64 (v + q * 2 ^ 16 + held * 2 ^ 23 + 2 ^ 31)), gDone)
    | none, none => (s, gNoRes)

/-- BERTH_ALLOC (R363): the lowest free berth of the ring's world; DENIED is checked first (17 R527). -/
def State.berthAllocCmd (s : State) (c : GalCmd) : State × GalRes :=
  let v := c.par 1 0 16
  let mask := c.par 1 16 5
  let fixed := bit (c.word 1) 21
  let sec := c.ring == 0
  let held := ((List.range 64).filter (fun b => s.berthAlloc b && !s.berthSec b && s.berthVmid b == v)).length
  let quota := (((List.range 64).find? (fun i => bit (s.reg (a_LKP_QUOTA i)) 31 && fld (s.reg (a_LKP_QUOTA i)) 0 16 == v)).map
    (fun i => s.rf (a_LKP_QUOTA i) f_LKP_QUOTA_QUOTA)).getD 0
  if !sec && v != 0 && decide (quota ≤ held) then (s, gDenied)
  else if mask.testBit 4 && !(v == 0 || sec) then (s, gBadParam)
  else
    match (List.range 64).find? (fun b => !s.berthAlloc b && s.berthSecRange b == sec) with
    | none => (s, gNoRes)
    | some b =>
      let s1 := (s.clearFrame b).setReg (a_LKP_BERTH_OWNER b) (BitVec.ofNat 64 (v + sec.toNat * 2 ^ 16 + 2 ^ 17 + mask * 2 ^ 18 + fixed.toNat * 2 ^ 23))
      let s2 := if fixed then s1.setReg (a_LKP_BERTH_TARGET b) (BitVec.ofNat 64 (c.par 2 0 16)) else s1
      (s2.countHeld, ⟨0, BitVec.ofNat 64 b, 0⟩)

/-- The checks common to commands on a berth: of the other world DENIED, free BAD_PARAM. -/
def State.berthFor (s : State) (c : GalCmd) (f : Nat → State × GalRes) : State × GalRes :=
  let b := c.par 1 0 6
  if c.ring != 0 && s.berthSec b then (s, gDenied) else if !s.berthAlloc b then (s, gBadParam) else f b

/-- BERTH_ARM (R373): the whole programme in one step. -/
def State.berthArmCmd (s : State) (c : GalCmd) : State × GalRes :=
  s.berthFor c (fun b =>
    let act := c.par 1 8 3
    let arm := bit (c.word 1) 11
    let tol := c.par 1 16 16
    let per := c.par 3 0 48
    let fixed := s.rf (a_LKP_BERTH_OWNER b) f_LKP_BERTH_OWNER_FIXED == 1
    let tgt := if fixed then s.berthTarget b else c.par 4 0 16
    if 4 < act || (arm && (!s.actionOk b act || !targetOk act tgt)) || (decide (0 < per) && decide (per < 1000)) then (s, gBadParam)
    else
      let s0 := (s.withdraw b).updLkp (fun x => { x with disarm := x.disarm.filter (fun k => k != b) })
      let s1 := ((s0.setReg (a_LKP_BERTH_FIRE b) (c.word 2)).setReg (a_LKP_BERTH_PERIOD b) (BitVec.ofNat 64 per)).setReg (a_LKP_BERTH_TARGET b) (BitVec.ofNat 64 tgt)
      let s2 := s1.setReg (a_LKP_BERTH_CFG b) (BitVec.ofNat 64 (arm.toNat + act * 2 + tol * 2 ^ 16))
      if arm && s2.armedLate b then
        let s3 := s2.berthMiss b 1 true
        (s3, ⟨0x22, s3.reg (a_LKP_BERTH_FIRE b), 0⟩)
      else (s2, ⟨0, c.word 2, 0⟩))

/-- BERTH_FREE. -/
def State.berthFreeCmd (s : State) (c : GalCmd) : State × GalRes := s.berthFor c (fun b => (s.freeBerth b, gDone))
/-- BERTH_DISARM: the result is LAST. -/
def State.berthDisarmCmd (s : State) (c : GalCmd) : State × GalRes := s.berthFor c (fun b => (s.disarmBerth b, ⟨0, s.reg (a_LKP_BERTH_LAST b), 0⟩))
/-- BERTH_QUERY. -/
def State.berthQueryCmd (s : State) (c : GalCmd) : State × GalRes :=
  s.berthFor c (fun b => (s, ⟨0, s.reg (a_LKP_BERTH_FIRE b), BitVec.ofNat 64 (fld (s.reg (a_LKP_BERTH_OWNER b)) 0 24 + fld (s.reg (a_LKP_BERTH_CFG b)) 0 32 * 2 ^ 24)⟩))
/-- TIME_STATUS. -/
def State.timeStatusCmd (s : State) (_ : GalCmd) : State × GalRes := (s, ⟨0, s.reg a_LKP_STATUS, s.reg a_LKP_EPOCH⟩)
/-- TIME_PTP. -/
def State.timePtpCmd (s : State) (c : GalCmd) : State × GalRes := (s.wf a_LKP_CTL f_LKP_CTL_PTP_EN (c.par 1 0 1), gDone)
/-- SYNC_GATE: the result reads LKP_SYNC_STAT without clearing UNARMED. -/
def State.syncGateCmd (s : State) (c : GalCmd) : State × GalRes := let s1 := s.syncGate (bit (c.word 1) 0); (s1, ⟨0, s1.reg a_LKP_SYNC_STAT, 0⟩)

/-- Perform the oldest command of a ring at the Lock-Keeper, if it is due: by its opcode, an unlisted one with BAD_OPCODE (R372, R373). -/
def State.lkpRun (s : State) (r : Nat) : State :=
  match s.galFirst r 1 with
  | none => s
  | some c =>
    if c.op = 0x0401 then s.galNow r 0x0401 State.quotaSet
    else if c.op = 0x0402 then s.galNow r 0x0402 State.berthAllocCmd
    else if c.op = 0x0403 then s.galNow r 0x0403 State.berthFreeCmd
    else if c.op = 0x0404 then s.galNow r 0x0404 State.berthArmCmd
    else if c.op = 0x0405 then s.galNow r 0x0405 State.berthDisarmCmd
    else if c.op = 0x0406 then s.galNow r 0x0406 State.berthQueryCmd
    else if c.op = 0x0410 then s.galNow r 0x0410 State.timeStatusCmd
    else if c.op = 0x0411 then s.galNow r 0x0411 State.timePtpCmd
    else if c.op = 0x0420 then s.galNow r 0x0420 State.syncGateCmd
    else s.galNow r c.op (fun s _ => (s, gBadOp))

/-- Commands that the Lock-Keeper has held for 100 cycles are performed at the end of the cycle, after the frame writes of the cycle (R369, R372). -/
def State.lkpDue (s : State) : State := [0, 1, 2, 3].foldl (fun s r => if (s.galFirst r 1).any (fun c => decide (c.since + 1000 ≤ s.time.ticks)) then s.lkpRun r else s) s

/-- BERTH_QUOTA_SET from a ring. -/
def execBerthQuotaSet (r : Nat) (s : State) : Host.Outcome State Fault Refusal := .next (s.galNow r 0x0401 State.quotaSet)
/-- BERTH_ALLOC. -/
def execBerthAlloc (r : Nat) (s : State) : Host.Outcome State Fault Refusal := .next (s.galNow r 0x0402 State.berthAllocCmd)
/-- BERTH_FREE. -/
def execBerthFree (r : Nat) (s : State) : Host.Outcome State Fault Refusal :=
  .next (s.galNow r 0x0403 State.berthFreeCmd)
/-- BERTH_ARM. -/
def execBerthArm (r : Nat) (s : State) : Host.Outcome State Fault Refusal := .next (s.galNow r 0x0404 State.berthArmCmd)
/-- BERTH_DISARM: the result is LAST. -/
def execBerthDisarm (r : Nat) (s : State) : Host.Outcome State Fault Refusal :=
  .next (s.galNow r 0x0405 State.berthDisarmCmd)
/-- BERTH_QUERY. -/
def execBerthQuery (r : Nat) (s : State) : Host.Outcome State Fault Refusal :=
  .next (s.galNow r 0x0406 State.berthQueryCmd)
/-- TIME_STATUS. -/
def execTimeStatus (r : Nat) (s : State) : Host.Outcome State Fault Refusal :=
  .next (s.galNow r 0x0410 State.timeStatusCmd)
/-- TIME_PTP. -/
def execTimePtp (r : Nat) (s : State) : Host.Outcome State Fault Refusal :=
  .next (s.galNow r 0x0411 State.timePtpCmd)
/-- SYNC_GATE: the result reads LKP_SYNC_STAT without clearing UNARMED. -/
def execSyncGate (r : Nat) (s : State) : Host.Outcome State Fault Refusal :=
  .next (s.galNow r 0x0420 State.syncGateCmd)

end Sys2Proof.Machine
end

