-- ==== Sys2Proof/Machine/Tenant.lean ====
section
/-! DEFINITION. Tenant quiesce-and-reset, deadlines of Express interrupts, and the registers of the Interrupt Router and the QoS controller (spec/11_tenancy.md R333–R354). -/
namespace Sys2Proof.Machine

/-! ### Tenant reset (R338–R341) -/

/-- Register of a reset slot. -/
def State.slotReg (s : State) (i : Nat) : Word := s.reg (a_QOS_TRST_SLOT i)
/-- What a slot holds beyond its register. -/
def State.trstOf (s : State) (i : Nat) : Option TrstSt := smGet (fun _ => none) s.rtr.trst i
/-- Current step of a slot's reset. -/
def State.trstStep (s : State) (i : Nat) : Nat := s.rf (a_QOS_TRST_SLOT i) f_QOS_TRST_SLOT_STEP
/-- Is a slot's reset in progress? -/
def State.trstGoing (s : State) (i : Nat) : Bool := bit (s.slotReg i) 16 && !bit (s.slotReg i) 17
/-- The slot that a VMID holds. -/
def State.slotOfVmid (s : State) (v : Nat) : Option Nat := (List.range 8).find? (fun i => bit (s.slotReg i) 16 && fld (s.slotReg i) 0 16 == v)

/-- Barge channels whose stream's context names a VMID. -/
def State.vmidChannels (s : State) (v : Nat) : List Nat :=
  (List.range 128).filter (fun c => match (s.ctxOf (brgStream c)).2 with | .ok x => x.vmid == v | .error _ => false)

/-- The records in a tenant's vCPU table (R328). -/
def State.vcpuRecords (s : State) (v : Nat) : List Nat :=
  let tab := s.reg a_IRT_VM
  if !bit tab 0 || 2 ^ fld tab 52 5 ≤ v then []
  else
    match s.entryAt (fld tab 12 40 * 4096 + 16 * v) with
    | none => []
    | some (w0, w1) =>
      (List.range (fld w1 0 16)).filterMap (fun k =>
        match s.rtrRead (fld w0 12 40 * 4096 + 8 * k) with
        | some e => if bit e 0 then some (fld e 7 45 * 128) else none
        | none => none)

/-- Step 4 for one record: pending table, PRIO_SUM and DB_PEND are cleared; a loaded record stays loaded with nothing pending. -/
def State.clearRecord (v : Nat) (s : State) (addr : Nat) : State :=
  match s.rtrRead addr, s.rtrRead (addr + 16) with
  | some w0, some w2 =>
    if fld w0 48 16 != v then s
    else
      let s1 := ((s.rtrWrite addr 8 (setBit w0 11 false).toNat).1.rtrWrite (ptableOf w2) 128 0).1
      let s2 := (s1.rtrWrite (addr + 8) 4 0).1
      match s2.threadOfRec addr with
      | some n => match s2.loadedOn n with
        | some r => (s2.setRec n (some { r with prio := 0, pend := 0 })).updThr n (fun th => { th with pendFlag := false })
        | none => s2
      | none => s2
  | _, _ => s

/-- The effect of a step of R339 on a tenant. -/
def State.trstEnter (s : State) (step v cls : Nat) : State :=
  if step = 1 then (s.vmidChannels v).foldl (fun s c => (s.brgStop c true).brgDep (c / 8)) s
  else if step = 4 then
    let s1 := (s.vcpuRecords v).foldl (State.clearRecord v) s
    s1.updRtr (fun r => { r with express := r.express.filter (fun e => !(e.virt && e.vmid == v)), takes := r.takes.map (fun e => (e.1, e.2.map (fun k => if k.vmid = v then { k with reply := none } else k))) })
  else if step = 5 then ((List.range 64).filter (fun b => s.berthAlloc b && !s.berthSec b && s.berthVmid b == v)).foldl State.freeBerth s
  else if step = 6 then s.setReg (a_QOS_USAGE cls) 0
  else s

/-- Advance a slot's reset by one step, once step 1's channels have stopped. -/
def State.trstAdvance (s : State) (i : Nat) : State :=
  let k := s.trstStep i
  let v := fld (s.slotReg i) 0 16
  let cls := ((s.trstOf i).map (·.cls)).getD 0
  if !s.trstGoing i || 7 ≤ k then s
  else if k = 1 && (s.vmidChannels v).any (fun c => s.brgState c == 4) then s
  else (s.wf (a_QOS_TRST_SLOT i) f_QOS_TRST_SLOT_STEP (k + 1)).trstEnter (k + 1) v cls

/-- Step 7: TENANT_RESET_DONE is written, on the queue paired with the command's ring (17 R529), and the slot shows DONE. -/
def State.trstDone (s : State) (i : Nat) : State :=
  match s.trstOf i with
  | none => s
  | some x =>
    if s.trstStep i = 7 && s.trstGoing i then
      let r := s.slotReg i
      let w2 := fld r 0 16 + x.cls * 2 ^ 16 + (bit r 18).toNat * 2 ^ 22
      (s.wf (a_QOS_TRST_SLOT i) f_QOS_TRST_SLOT_DONE 1).post x.queue
        ⟨0x0304, 0, 798, fld r 0 16, s.time.mt, BitVec.ofNat 64 w2, BitVec.ofNat 64 (s.time.mt - x.start)⟩
    else s

/-- Each reset in progress advances by a step in every cycle (within the bounds of R339; notes/assumptions/21.md). -/
def State.trstTick (s : State) : State := (List.range 8).foldl (fun s i => if s.trstGoing i then s.trstAdvance i else s) s

/-- A request to reset a VMID (R338): the Galley status. `queue` is that of its result: a start by QOS_TRST reports on the Host queue (DESIGN CHOICE, notes/assumptions/120.md). -/
def State.trstStart (s : State) (v cls queue : Nat) : State × Nat :=
  let accept (i : Nat) : State × Nat :=
    let s1 := s.setReg (a_QOS_TRST_SLOT i) (BitVec.ofNat 64 (v + 2 ^ 16 + 2 ^ 19))
    ((s1.updRtr (fun r => { r with trst := smSet (fun _ => none) r.trst i (some ⟨cls, s.time.mt, queue, bit (s.slotReg i) 17⟩) })).trstEnter 1 v cls, 0x01)
  if v = 0 then (s, 0x11)
  else
    match s.slotOfVmid v with
    | some i => if s.trstGoing i then (s, 0x14) else accept i
    | none =>
      match (List.range 8).find? (fun i => !bit (s.slotReg i) 16) with
      | some i => accept i
      | none => (s, 0x15)

/-- A request to release a VMID (R340). -/
def State.trstRelease (s : State) (v : Nat) : State × Nat :=
  match s.slotOfVmid v with
  | none => (s, 0x11)
  | some i =>
    if s.trstGoing i then (s, 0x14)
    else ((s.setReg (a_QOS_TRST_SLOT i) 0).updRtr (fun r => { r with trst := smSet (fun _ => none) r.trst i none }), 0x00)

/-- A write to QOS_TRST (R353): GO submits OP; RESULT is set and GO clears. -/
def State.qosTrstWrite (s : State) (v : Word) : State :=
  let s1 := s.setReg a_QOS_TRST v
  if bit v 63 then
    let op := fld v 24 2
    let (s2, k) := if op = 1 then s1.trstStart (fld v 0 16) (fld v 16 6) 1 else if op = 2 then s1.trstRelease (fld v 0 16) else (s1, 0x11)
    (s2.wf a_QOS_TRST f_QOS_TRST_RESULT k).wf a_QOS_TRST f_QOS_TRST_GO 0
  else s1

/-- TENANT_RESET from a ring (R338): bits of word 1 beyond CLASS are RES0. -/
def execTenantReset (r : Nat) (s : State) : Host.Outcome State Fault Refusal :=
  .next (s.galNow r 0x0305 (fun s c => let x := s.trstStart (c.par 1 0 16) (c.par 1 16 6) (ringQueue r); (x.1, ⟨x.2, 0, 0⟩)))
/-- TENANT_RELEASE from a ring (R340). -/
def execTenantRelease (r : Nat) (s : State) : Host.Outcome State Fault Refusal :=
  .next (s.galNow r 0x0306 (fun s c => let x := s.trstRelease (c.par 1 0 16); (x.1, ⟨x.2, 0, 0⟩)))

/-- Take the steps that remain; one that must wait for a channel stops there. -/
def State.trstRest : Nat → State → Nat → State
  | 0, s, _ => s
  | n + 1, s, i => State.trstRest n (s.trstAdvance i) i

/-- TENANT_RESET_DONE: the remaining steps are taken and the sequence completes (R339). -/
def execTenantResetDone (slot : Nat) (s : State) : Host.Outcome State Fault Refusal :=
  .next (if decide (slot < 8) && s.trstGoing slot then (State.trstRest 6 s slot).trstDone slot else s)

/-- RESET_TIMEOUT: step 7 not reached 200 µs after acceptance (R339). -/
def execResetTimeout (slot : Nat) (s : State) : Host.Outcome State Fault Refusal :=
  match s.trstOf slot with
  | none => .next s
  | some x =>
    if s.trstGoing slot && decide (x.start + 200000 ≤ s.time.mt) && !bit (s.slotReg slot) 18 then
      .next ((s.wf (a_QOS_TRST_SLOT slot) f_QOS_TRST_SLOT_TIMEOUT 1).post 1
        ⟨0x0305, 5, 798, fld (s.slotReg slot) 0 16, s.time.mt, BitVec.ofNat 64 (s.trstStep slot + x.cls * 2 ^ 16), BitVec.ofNat 64 x.start⟩)
    else .next s

/-! ### Express deadlines (R333) -/

/-- Conditions of R331 found lacking for an Express interrupt not taken. -/
def State.expressLack (s : State) (x : Express) : Nat :=
  let pinned := s.rtr.pins.any (fun p => p.src == x.src)
  let ctxOk := x.src.internal || (match smGet (fun _ => none) s.iot.ctxs x.src.num with | some c => c.pin | none => false)
  let thr : Option Nat := if x.virt then s.threadOfRec x.tgt else some x.tgt
  let thrOk := match thr with | some t => if x.virt then s.virtOk t x.vmid else (s.physOf t).getLsbD x.id | none => true
  let dev := match thr with | some t => s.port.out.any (fun o => o.kind == 0 && o.owner == t && o.res.isNone) | none => false
  let m := (!pinned).toNat + (!ctxOk).toNat * 2 + thr.isNone.toNat * 4 + (!thrOk).toNat * 8 + dev.toNat * 16
  if m = 0 then 32 else m

/-- IRQ_DEADLINE of the k-th Express interrupt not yet taken: 1 µs after its arrival, once; it stays pending (R333). -/
def execIrqDeadline (k : Nat) (s : State) : Host.Outcome State Fault Refusal :=
  match s.rtr.express[k]? with
  | none => .next s
  | some x =>
    if s.time.mt < x.mt + 1000 then .next s
    else
      let w2 := x.src.num % 2 ^ 20 + x.src.internal.toNat * 2 ^ 20 + (x.src.ev % 2 ^ 16) * 2 ^ 21 + x.id * 2 ^ 41
      .next ((s.updRtr (fun r => { r with express := r.express.eraseIdx k })).post 1
        ⟨0x0303, 5, 797, x.vmid, x.mt + 1000, BitVec.ofNat 64 w2, BitVec.ofNat 64 (s.expressLack x)⟩)

/-! ### Bandwidth windows of the classes (R336) -/

/-- BANDWIDTH_WINDOW: the class counts of a window that has ended are cleared. -/
def execBandwidthWindow (s : State) : Host.Outcome State Fault Refusal :=
  .next (if s.time.mt / 1000 = s.memx.qosWin then s else { s with memx := { s.memx with clsWin := [], qosWin := s.time.mt / 1000 } })

/-- A write to QOS_MEMBW_c_k: MINs at one controller may not sum to more than 256 (R336). -/
def State.membwWrite (s : State) (c k : Nat) (v : Word) : State :=
  let others := ((List.range 64).map (fun i => if i = c then 0 else s.rf (a_QOS_MEMBW i k) f_QOS_MEMBW_MIN)).sum
  if 256 < others + fld v 0 8 then s else s.setReg (a_QOS_MEMBW c k) v

/-- A write to IRT_DT, IRT_IT or IRT_VM: SIZE_LOG2 out of range leaves the field unchanged (R345). -/
def State.irtTabWrite (s : State) (off : Nat) (v : Word) : State :=
  let top := if off = a_IRT_DT then 20 else if off = a_IRT_VM then 16 else 31
  s.setReg off (if top < fld v 52 5 then setFld v 52 5 (fld (s.reg off) 52 5) else v)

end Sys2Proof.Machine
end

