-- ==== Sys2Proof/Machine/Ccs.lean ====
section
/-! DEFINITION. Reads and writes of Chip Control Space: the checks, the fields, and what each register's own description adds to a write or a read (the register tables of spec/07_caches.md to spec/20_power_up_boot.md; berth frames 12 R362; the Wharf's role 14 R435; the SERVICE ring's page 17 R522). -/
namespace Sys2Proof.Machine

/-- A write that does what the fields' access types say. -/
def State.plainWrite (s : State) (q : CcsReq) (v l : Word) : State := (s.setReg q.reg v).setLocks q.reg l

/-! ### Writes, block by block -/

/-- Register offset within a block, and the block's number, for blocks spaced `stride` from `base`. -/
def blockOff (off base stride : Nat) : Nat × Nat := ((off - base) / stride, (off - base) % stride)

/-- Counter blocks (19 R578): first UNC_CFG, spacing, blocks, counters. -/
def uncBlocks : List (Nat × Nat × Nat × Nat) :=
  [(0x10042000, 0x100000, 224, 4), (0x4000100, 0x10000, 16, 8), (0x5000100, 0x100000, 4, 8), (0x6100100, 0x10000, 38, 4),
   (0x2000200, 0x100000, 8, 8), (0x2900200, 0x100000, 1, 8), (0x1000100, 0x10000, 16, 4)]

/-- The place of the S bit in a counter control at an offset: UNC_CFG_i bit 13, STP_PMU_FIXCTL_t bit 7 (19 R581, R582). -/
def sBitAt (off : Nat) : Option Nat :=
  if uncBlocks.any (fun b => decide (b.1 ≤ off) && decide ((off - b.1) / b.2.1 < b.2.2.1) && decide ((off - b.1) % b.2.1 < 0x40 * b.2.2.2) &&
      (off - b.1) % b.2.1 % 0x40 == 0) then some 13
  else if 0x10000090 ≤ off && decide ((off - 0x10000090) / 0x100000 < 224) && decide ((off - 0x10000090) % 0x100000 < 32) then some 7
  else none

/-- The bandwidth unit whose UNC_BW_CTL stands at an offset. -/
def bwUnitAt (off : Nat) : Option Nat := (List.range 67).find? (fun u => bwCtl u == off)

/-- A write to a counter control: S from the Normal world needs SN or SI (19 R583). -/
def State.sBitWrite (s : State) (q : CcsReq) (k : Nat) (v l : Word) : State :=
  let w := if !q.sec && !bit (s.reg q.reg) k && !s.dbgEnabled 1 then setBit v k false else v
  (s.plainWrite q w l).noteS q.reg q.sec (bit w k)

/-- Galley rings (17 R522, R544): on-chip writes to the SERVICE ring's page are ignored. -/
def State.galRegWrite (s : State) (q : CcsReq) (v l : Word) : State :=
  let (r, o) := blockOff q.reg 0x100000 0x10000
  if r = 2 then s
  else if 4 ≤ r then s.plainWrite q v l
  else if o = 0 then s.galTailWrite r v
  else if o = 0x1000 then s.galCtlWrite r v
  else if o = 0x1008 || o = 0x1010 then s.galBaseWrite r q.reg v
  else s.plainWrite q v l

/-- Event Queues (17 R546). -/
def State.evqWrite (s : State) (q : CcsReq) (v l : Word) : State :=
  let (n, o) := blockOff q.reg 0x200000 0x10000
  if o = 0x08 then s.evqConsWrite n v
  else if o = 0x10 then s.evqCtlWrite n v
  else if o = 0x18 then s.evqBaseWrite n v
  else s.plainWrite q v l

/-- The Lock-Keeper (12 R378–R386). -/
def State.lkpWrite (s : State) (q : CcsReq) (v l : Word) : State :=
  if q.reg = a_LKP_CTL then s.lkpCtlWrite v
  else if q.reg = a_LKP_SYNC_CTL then s.syncCtlWrite v
  else if q.reg = a_LKP_SEC_RES then s.secResWrite v
  else if q.reg < 0x340000 then s.plainWrite q v l
  else
    let (b, o) := blockOff q.reg 0x340000 0x1000
    if o = 0x10 then s.berthCfgWrite b v
    else if o < 0x10 || o = 0x18 then s.berthProgWrite b q.reg v
    else s.plainWrite q v l

/-- The power voting controller (16 R511–R514). -/
def State.pvcWrite (s : State) (q : CcsReq) (v l : Word) : State :=
  match idxAt q.reg (a_PVC_HYP_VOTE 0) 8 788, idxAt q.reg (a_PVC_SEC_VOTE 0) 8 788, idxAt q.reg (a_PVC_CLK 0) 8 788 with
  | some d, _, _ => s.pvcVoteWrite d 1 v
  | _, some d, _ => s.pvcVoteWrite d 0 v
  | _, _, some d => s.pvcClkWrite d v q.sec q.rtype q.req q.vmid
  | _, _, _ => s.plainWrite q v l

/-- The Interrupt Router and QoS (11 R344–R354). -/
def State.irtWrite (s : State) (q : CcsReq) (v l : Word) : State :=
  if q.reg = a_IRT_DT || q.reg = a_IRT_IT || q.reg = a_IRT_VM then s.irtTabWrite q.reg v
  else if q.reg = a_IRT_TCMD then s.irtTcmd v
  else if q.reg = a_QOS_TRST then s.qosTrstWrite v
  else match idxAt q.reg (a_IRT_THR 0) 8 832 with
  | some n => s.irtThr n v
  | none =>
    if inRange q.reg (a_QOS_MEMBW 0 0) 0x4000 then
      let (c, o) := blockOff q.reg (a_QOS_MEMBW 0 0) 0x100
      s.membwWrite c (o / 8) v
    else s.plainWrite q v l

/-- Barge channels (13 R413–R419). -/
def State.brgWriteReg (s : State) (q : CcsReq) (v l : Word) : State :=
  let (e, o) := blockOff q.reg 0x1000000 0x10000
  if o < 0x1000 then s.plainWrite q v l
  else
    let c := 8 * e + (o - 0x1000) / 0x100
    let r := o % 0x100
    if r = 0 then s.brgCtl c v
    else if r = 0x10 then s.brgTailWrite c v
    else if r = 0x40 || r = 0x48 || r = 0x50 then s.brgShadowWrite c q.reg v
    else if r = 0x58 then s.brgShadowArm c v
    else s.plainWrite q v l

/-- Link division and completion timeout of a port (14 R445, R447): BIFUR 5–7 is ignored and does not lock; TIMEOUT outside 50–50,000 is ignored. -/
def State.linkCfgWrite (s : State) (q : CcsReq) (o : Nat) (v l : Word) : State :=
  let old := s.reg q.reg
  if o = 0 then
    if 5 ≤ fld v 0 3 then s.plainWrite q (setFld v 0 3 (fld old 0 3)) (smGet (fun _ => 0) s.locks q.reg) else s.plainWrite q v l
  else if o = 0x10 then s.plainWrite q (keepField old v (0, 16) (decide (fld v 0 16 < 50) || decide (50000 < fld v 0 16))) l
  else s.plainWrite q v l

/-- Is a Wharf register one that the present role does not have (14 R435): the port registers beyond RPT_LINK_STAT_0 as an endpoint, the endpoint registers but WHF_ROLE as a root port? -/
def State.whfHidden (s : State) (off : Nat) : Bool :=
  inRange off 0x2900000 0x100000 &&
    (if s.wharfEp then off == a_WHF_LINK_CFG || off == a_WHF_CPL_CTL || off == a_WHF_CPL_STAT || (inRange off (a_WHF_LINK_STAT 1) 0x18)
     else decide (0x2980008 ≤ off))

/-- Root ports and the Wharf (14 R445–R455). -/
def State.portWrite (s : State) (q : CcsReq) (v l : Word) : State :=
  if s.whfHidden q.reg then s
  else if q.reg < 0x2800000 then
    let (p, o) := blockOff q.reg 0x2000000 0x100000
    match idxAt o 0x80000 8 8 with
    | some k => s.hdmWrite p k v
    | none => s.linkCfgWrite q o v l
  else
    let o := q.reg - 0x2900000
    if o < 0x80000 then s.linkCfgWrite q o v l
    else if q.reg = a_WHF_PW_COMMIT then s.pwCommit v
    else if q.reg = a_WHF_IRQ then s.whfIrqWrite v
    else match idxAt q.reg (a_WHF_VF_CTL 0) 8 16 with
    | some n => s.vfCtlWrite n v
    | none =>
      if inRange q.reg (a_WHF_PW_CFG 0) 0x100 && q.reg % 0x20 < 0x10 then s.pwWrite ((q.reg - a_WHF_PW_CFG 0) / 0x20) q.reg v
      else s.plainWrite q v l

/-- The IOTU (10 R308–R314). -/
def State.iotWrite (s : State) (q : CcsReq) (v l : Word) : State :=
  let old := s.reg q.reg
  if q.reg = a_IOT_INV then (if bit old 63 then s else s.iotInvWrite v)
  else if q.reg = a_IOT_ATS_CTL then s.plainWrite q (keepField old v (0, 16) (fld v 0 16 == 0)) l
  else match idxAt q.reg (a_IOT_SRC 0) 8 10 with
  | some _ => s.plainWrite q (keepField old v (52, 5) (decide (16 < fld v 52 5))) l
  | none => s.plainWrite q v l

/-- Memory controllers (09 R272–R284). -/
def State.memCtlWrite (s : State) (q : CcsReq) (v l : Word) : State :=
  let (u, o) := if q.reg < 0x5000000 then blockOff q.reg 0x4000000 0x10000 else
    let x := blockOff q.reg 0x5000000 0x100000; (16 + x.1, x.2)
  s.plainWrite q (if o < 0x30 then memCtlValue o u (s.reg q.reg) v else v) l

/-- Mesh control (08 R238). -/
def State.mshWrite (s : State) (q : CcsReq) (v l : Word) : State :=
  let old := s.reg q.reg
  if q.reg = a_MSH_PROTO_CTL then
    let v1 := keepField old v f_MSH_PROTO_CTL_HOLD_WIN (decide (fld v 16 10 < 16) || decide (512 < fld v 16 10))
    s.plainWrite q (keepField old v1 f_MSH_PROTO_CTL_AGE_LIMIT (fld v 32 8 == 0)) l
  else s.plainWrite q v l

/-- Stop pages (07 R195–R199): at most 12 ways of a slice are locked. -/
def State.stopWrite (s : State) (q : CcsReq) (v l : Word) : State :=
  let (p, o) := blockOff q.reg 0x10000000 0x100000
  match idxAt o 0x41200 8 16 with
  | some w =>
    let others := ((List.range 16).filter (fun k => k != w && bit (s.reg (a_STP_LLC_QUOIN p k)) 8)).length
    s.plainWrite q (if 12 ≤ others then setBit v 8 false else v) l
  | none => s.plainWrite q v l

/-- The Tollhouse (15 R481–R488). -/
def State.tolWrite (s : State) (q : CcsReq) (v l : Word) : State :=
  if q.reg = a_TOL_WDOG_CTL then s.wdogCtlWrite v
  else if q.reg = a_TOL_WDOG_KICK then s.wdogKick q.placed (if q.rtype = 0 then some q.req else none)
  else if q.reg = a_TOL_MBX_CMD then s.mbxWrite v
  else match idxAt q.reg (a_TOL_SMR 0) 8 64, idxAt q.reg (a_TOL_CCS_MAP 0) 8 1024 with
  | some n, _ => s.smrWrite n v
  | _, some i => s.mapWrite i v
  | _, _ => s.plainWrite q v l

/-- Does a write reach any field of its register? A 32-bit write changes only the fields wholly within its half (00 R11). -/
def reaches (q : CcsReq) : Bool := ((fieldsAt q.reg).getD []).any (covers q)

/-- A write that reaches no field still sets PENDING where it is one to a shadow register of a Barge channel (13 R406). -/
def State.missedWrite (s : State) (off : Nat) : State :=
  let (e, o) := blockOff off 0x1000000 0x10000
  if inRange off 0x1000000 0x100000 && decide (0x1000 ≤ o) && (o % 0x100 == 0x40 || o % 0x100 == 0x48 || o % 0x100 == 0x50) then
    s.wf (a_BRG_CH_SHADOW e ((o - 0x1000) / 0x100)) f_BRG_CH_SHADOW_PENDING 1
  else s

/-- A write to an assigned register. -/
def State.regWrite (s : State) (q : CcsReq) : State :=
  let (v, l) := s.written q
  let off := q.reg
  if !reaches q then s.missedWrite off
  else match sBitAt off, bwUnitAt off with
  | some k, _ => s.sBitWrite q k v l
  | _, some u => s.bwCtlWrite u v
  | _, _ =>
    if off < 0x200000 then s.galRegWrite q v l
    else if off < 0x300000 then s.evqWrite q v l
    else if off < 0x400000 then s.lkpWrite q v l
    else if off < 0x500000 then s.pvcWrite q v l
    else if off < 0x700000 then s.irtWrite q v l
    else if off < 0x2000000 then s.brgWriteReg q v l
    else if off < 0x3000000 then s.portWrite q v l
    else if off < 0x4000000 then s.iotWrite q v l
    else if off < 0x6000000 then s.memCtlWrite q v l
    else if off < 0x10000000 then s.mshWrite q v l
    else if off < 0x100000000 then s.stopWrite q v l
    else s.tolWrite q v l

/-! ### Reads -/

/-- STP_DIR_STAT as read (08 R241): entries, coarse entries and the retry queue of a slice are counted. -/
def State.dirStat (s : State) (p : Nat) : Word :=
  let es := s.coh.dir.filterMap (fun e => match e.2 with | some x => if x.slice = p then some x.coarse else none | none => none)
  let rq := (s.coh.retry.filter (fun r => (s.homeLoc r.line).any (fun h => h.slice == p))).length
  setFld (setFld (setFld (s.reg (a_STP_DIR_STAT p)) 0 16 es.length) 16 16 (es.filter (fun c => c)).length) 48 8 rq

/-- STP_LLC_QUOIN_w as read (07 R198): EMPTY while the way holds no valid block. -/
def State.quoinReg (s : State) (p w : Nat) : Word :=
  let full := s.coh.llc.any (fun e => match e.2 with | some b => b.slice == p && b.way == w && b.valid != 0#4 | none => false)
  setBit (s.reg (a_STP_LLC_QUOIN p w)) 10 (!full)

/-- A register's value, with the parts that are computed when it is read. -/
def State.liveReg (s : State) (off : Nat) : Word :=
  if off < 0x10000000 then
    if off = a_GAL_CTL 2 then setFld (s.reg off) 1 4 12
    else match idxAt off (a_PVC_DOM 0) 8 788, idxAt off (a_BRG_ENG_STAT 0) 0x10000 16 with
    | some d, _ => s.domReg d
    | _, some e => s.brgEngStat e
    | _, _ => s.reg off
  else if off < 0x100000000 then
    let (p, o) := blockOff off 0x10000000 0x100000
    if 0x300 ≤ o && decide (o < 0x380) then s.counterReg off
    else if o = 0x80000 then s.dirStat p
    else match idxAt o 0x41200 8 16 with
    | some w => s.quoinReg p w
    | none => s.reg off
  else if off = a_TOL_WDOG_STAT then s.wdogStat
  else s.reg off

/-- A read of an assigned register: its value, and what the read leaves. -/
def State.regRead (s : State) (q : CcsReq) : State × Word :=
  if s.whfHidden q.reg then (s, 0)
  else match idxAt q.reg (a_IRT_ACK_N 0) 8 832, idxAt q.reg (a_IRT_ACK_S 0) 8 832 with
  | some n, _ => s.irtAck n false (!q.upper)
  | _, some n => s.irtAck n true (!q.upper)
  | _, _ =>
    let fs := (fieldsAt q.reg).getD []
    (s.setReg q.reg (fieldsRead q fs (s.reg q.reg)).2, (fieldsRead q fs (s.liveReg q.reg)).1)

/-! ### Accesses -/

/-- The checks of an access beyond its page: registers of threads the variant lacks (11 R347–R350), berth frames (12 R362), and clock controls in secure use (15 R479). -/
def State.ownCheck (s : State) (q : CcsReq) (write : Bool) : Option State :=
  let thr := (idxAt q.reg (a_IRT_THR 0) 8 832).or ((idxAt q.reg (a_IRT_ACK_N 0) 8 832).or ((idxAt q.reg (a_IRT_ACK_S 0) 8 832).or (idxAt q.reg (a_QOS_THR 0) 8 832)))
  match thr, idxAt q.reg (a_PVC_CLK 0) 8 788 with
  | some n, _ => if s.nThreads ≤ n then some (s.pageEvent q.off write none q.rtype q.req q.vmid) else none
  | _, some d => if !q.sec && (s.votes d).testBit 0 && !write then some (s.secViol 1000 q.vmid q.rtype q.req 1 q.off) else none
  | _, _ =>
    if inRange q.reg 0x340000 0x40000 then
      match s.frameCheck ((q.reg - 0x340000) / 0x1000) q.vmid q.rtype q.req q.off q.sec with
      | some s1 => some s1
      | none => if (findReg q.off).isNone then some (s.pageEvent q.off write none q.rtype q.req q.vmid) else none
    else none

/-- A write access to Chip Control Space. -/
def State.ccsWrite (s : State) (q : CcsReq) : State :=
  match s.ccsCheck q true with
  | some s1 => s1
  | none =>
    if q.off < 0x100000 then s
    else match s.ownCheck q true with
    | some s1 => s1
    | none => s.regWrite q

/-- A read access to Chip Control Space. -/
def State.ccsRead (s : State) (q : CcsReq) : State × Word :=
  match s.ccsCheck q false with
  | some s1 => (s1, 0)
  | none =>
    if q.off < 0x100000 then (s, q.taken (s.colophon q.reg))
    else match s.ownCheck q false with
    | some s1 => (s1, 0)
    | none =>
      let (s1, v) := s.regRead q
      (s1, q.taken v)

end Sys2Proof.Machine
end

