-- ==== Sys2Proof/Machine/Flags.lean ====
section
/-! DEFINITION. Every flag an instruction computes: TSTAT.C (spec/03_instruction_set.md R76), FPFLAGS (spec/02_programmers_model.md R45, spec/05_arithmetic.md R134), VCFG.LVDIRTY (spec/06_vectors.md R145), and the counts of retired work that follow operands (spec/19_performance_monitoring.md R584). -/
namespace Sys2Proof.Machine

/-- Write TSTAT.C (03 R76). -/
def Thread.setC (th : Thread) (c : Bool) : Thread := { th with tstat := setBit th.tstat 0 c }

/-- The rounding environment of a thread (02 R45). -/
def Thread.fpEnv (th : Thread) : FpEnv := fpEnvOf th.fpctl

/-- Merge the flags an instruction raised into FPFLAGS (05 R134). -/
def Thread.addFlags (th : Thread) (f : FpFlags) : Thread := { th with fpflags := th.fpflags ||| f.toWord, fpRecent := th.fpRecent ||| f.toWord.toNat }

/-- Set VCFG.LVDIRTY in the committed value and in every value not yet synchronised (06 R143, R145). -/
def Thread.setLvDirty (th : Thread) : Thread :=
  { th with
    vcfg := setBit th.vcfg 8 true
    pend := th.pend.map (fun e => if e.1 = 3 then (e.1, e.2.map (fun v => setBit v 8 true)) else e) }

/-- Count floating-point operations on binary64 lanes (R584 FP64_FLOPS): 2 for each fused multiply-add lane and 1 for any other (notes/assumptions/14.md). -/
def State.countFlops (s : State) (t : Nat) (isD : Bool) (perLane lanes : Nat) : State :=
  if isD && lanes != 0 && perLane != 0 then s.countThr t 0x019 .none none (perLane * lanes) else s

end Sys2Proof.Machine
end

