-- ==== Sys2Proof/Machine/IntAlu.lean ====
section
/-! DEFINITION. Integer arithmetic of spec/03_instruction_set.md R76–R78 and spec/05_arithmetic.md R120–R126 as pure functions of the operands. -/
namespace Sys2Proof.Machine

/-- 0 or 1 as a register value (03 R76 comparisons). -/
def boolWord (b : Bool) : Word := if b then 1#64 else 0#64

/-- The low 32 bits, sign-extended (03 R76 ADDW, SUBW, SEXT.W). -/
def sext32 (v : Word) : Word := (v.setWidth 32).signExtend 64

/-- Sum with carry in: the low 64 bits and the carry out of bit 63 (03 R76 ADDC). -/
def addCarry (a b : Word) (c : Bool) : Word × Bool :=
  (BitVec.ofNat 64 (a.toNat + b.toNat + c.toNat), decide (2 ^ 64 ≤ a.toNat + b.toNat + c.toNat))

/-- Difference with borrow in: the low 64 bits and whether a borrow out of bit 63 occurred (03 R76 SUBB). -/
def subBorrow (a b : Word) (c : Bool) : Word × Bool :=
  (BitVec.ofInt 64 ((a.toNat : Int) - b.toNat - c.toNat), decide (a.toNat < b.toNat + c.toNat))

/-- The 128-bit product of two words, each read signed or unsigned (03 R77). -/
def mulWide (sa sb : Bool) (a b : Word) : BitVec 128 :=
  BitVec.ofInt 128 ((if sa then a.toInt else (a.toNat : Int)) * (if sb then b.toInt else (b.toNat : Int)))

/-- Low 64 bits of a 128-bit product. -/
def lo64 (p : BitVec 128) : Word := p.setWidth 64
/-- High 64 bits of a 128-bit product. -/
def hi64 (p : BitVec 128) : Word := (p >>> 64).setWidth 64

/-- What a divide meets (05 R123): no edge, a zero divisor, or MIN / −1. -/
inductive DivEdge where
  | none | zero | overflow
  deriving DecidableEq, Repr

/-- The most negative 64-bit integer. -/
def min64 : Word := 0x8000000000000000#64

/-- The edge a signed 64-bit divide meets (R123). -/
def divEdgeS (a b : Word) : DivEdge :=
  if b = 0 then .zero else if a = min64 ∧ b = BitVec.allOnes 64 then .overflow else .none

/-- The edge an unsigned divide meets (R123). -/
def divEdgeU (b : Word) : DivEdge := if b = 0 then .zero else .none

/-- The edge a signed 32-bit divide meets; bits [63:32] are ignored (R122, R123). -/
def divEdgeW (a b : Word) : DivEdge :=
  if b.setWidth 32 = 0#32 then .zero
  else if a.setWidth 32 = 0x80000000#32 ∧ b.setWidth 32 = BitVec.allOnes 32 then .overflow else .none

/-- The edge an unsigned 32-bit divide meets. -/
def divEdgeWU (b : Word) : DivEdge := if b.setWidth 32 = 0#32 then .zero else .none

/-- Signed quotient truncated toward zero, with the edge results of R123. -/
def divS (a b : Word) : Word :=
  if b = 0 then BitVec.allOnes 64 else BitVec.ofInt 64 (Int.tdiv a.toInt b.toInt)

/-- Unsigned quotient (R123). -/
def divU (a b : Word) : Word := if b = 0 then BitVec.allOnes 64 else a / b

/-- Signed remainder, with the sign of the dividend (R122, R123). -/
def remS (a b : Word) : Word := if b = 0 then a else BitVec.ofInt 64 (Int.tmod a.toInt b.toInt)

/-- Unsigned remainder (R123). -/
def remU (a b : Word) : Word := if b = 0 then a else a % b

/-- Signed 32-bit quotient, sign-extended (R122, R123). -/
def divWS (a b : Word) : Word :=
  if b.setWidth 32 = 0#32 then BitVec.allOnes 64
  else (BitVec.ofInt 32 (Int.tdiv (a.setWidth 32).toInt (b.setWidth 32).toInt)).signExtend 64

/-- Unsigned 32-bit quotient, sign-extended (R122, R123). -/
def divWU (a b : Word) : Word :=
  if b.setWidth 32 = 0#32 then BitVec.allOnes 64
  else (a.setWidth 32 / b.setWidth 32 : BitVec 32).signExtend 64

/-- Halfword h of v replaced (03 R78 INSI). -/
def insHalf (v : Word) (h : Nat) (x : BitVec 16) : Word := setFld v (16 * h) 16 x.toNat

end Sys2Proof.Machine
end

