-- ==== Sys2Proof/Machine/Operands.lean ====
section
/-! DEFINITION. Operand forms: immediates (spec/03_instruction_set.md R71), scalar lanes of SV registers (spec/02_programmers_model.md R42), SV and LV operands with the vector length (spec/06_vectors.md R141–R144), masks (R147), effective addresses (03 R79–R81, R95, R96). -/
namespace Sys2Proof.Machine

/-- Sign-extended immediate (R71). -/
def sx {n : Nat} (imm : BitVec n) : Word := imm.signExtend 64
/-- Zero-extended immediate. -/
def zx {n : Nat} (imm : BitVec n) : Word := imm.setWidth 64

/-- The low lane of an SV register in a format (02 R42). -/
def Thread.rF (th : Thread) (f : Fmt) (r : Reg) : Nat := (th.rSV r).toNat % 2 ^ f.width
/-- A scalar result: the low lane, zero above (02 R42). -/
def Thread.wF (th : Thread) (r : Reg) (x : Nat) : Thread := th.wSV r (BitVec.ofNat 256 x)

/-- Register length in bits: 256, or VCFG.VL units of 64 bits (06 R141, R143). -/
def State.vlen (s : State) (t : Nat) (long : Bool) : Nat := if long then 64 * fld (s.view t 3) 0 6 else 256

/-- An LV register as a source. Between a change of VL and its SYNCS each register read supplies its content from before the MTS or zero, by free choice (06 R144). -/
def State.rLV (s : State) (t : Nat) (r : Reg) : BitVec 2048 :=
  let th := s.thr t
  if th.lvWin && Config.pick s.freeCtr (2000 + r.toNat) % 2 = 1 then smGet (fun _ => 0) th.lvOld r.toNat else smGet (fun _ => 0) th.lv r.toNat

/-- Write an LV register, which sets LVDIRTY (06 R143). -/
def Thread.wLV (th : Thread) (r : Reg) (v : BitVec 2048) : Thread :=
  { th.setLvDirty with
    lv := smSet (fun _ => 0) th.lv r.toNat v
    lvOld := if th.lvWin then smSet (fun _ => 0) th.lvOld r.toNat v else th.lvOld }

/-- A vector register operand. -/
def State.rVec (s : State) (t : Nat) (long : Bool) (r : Reg) : Nat := if long then (s.rLV t r).toNat else ((s.thr t).rSV r).toNat
/-- Write a vector register. -/
def Thread.wVec (th : Thread) (long : Bool) (r : Reg) (v : Nat) : Thread :=
  if long then th.wLV r (BitVec.ofNat 2048 v) else th.wSV r (BitVec.ofNat 256 v)
/-- The mask operand (R42, R147). -/
def State.rMask (s : State) (t : Nat) (m : BitVec 3) : BitVec 256 := (s.thr t).rM m.toNat

/-- Address of an immediate-offset access (R79). -/
def eaImm (th : Thread) (ra : Reg) (imm : BitVec 16) : Word := th.rE ra + sx imm
/-- Address of an indexed access (R80). -/
def eaIdx (th : Thread) (ra rb : Reg) (scale : BitVec 2) : Word := th.rE ra + (th.rE rb <<< scale.toNat)
/-- Address of an FLS access: the offset counts units of the access size (R81). -/
def eaFls (th : Thread) (ra : Reg) (off : BitVec 13) (bytes : Nat) : Word := th.rE ra + BitVec.ofNat 64 bytes * sx off

end Sys2Proof.Machine
end

