-- ==== Sys2Proof/Machine/Access.lean ====
section
/-! DEFINITION. Memory accesses of a thread: translation and checks in the order of spec/02_programmers_model.md R60, memory types (R62, R63), split accesses (R67), forwarding and the store buffer (spec/04_core_pipeline.md R114–R117), worlds (R39, spec/15_security.md R457, R458). -/
namespace Sys2Proof.Machine

/-- One access as an instruction makes it: thread, virtual address, size in bytes, kind, register and VEC of XSYN (02 R58), and whether it is wider than Device memory permits or a vector element. -/
structure Acc where
  t : Nat
  va : Word
  n : Nat
  kind : AccKind
  reg : Nat
  vec : Bool
  wide : Bool

/-- A checked piece of an access, within one line; `second`: the second half of a split access (02 R67). -/
structure Piece where
  va : Word
  n : Nat
  x : Xl
  ty : Nat
  kind : PaKind
  line : Nat
  second : Bool

/-- log2 of a size. -/
def log2n (n : Nat) : Nat := Nat.log2 n

/-- XSYN fields common to the Data Abort codes (02 R58). -/
def Acc.abort (r : Acc) (code info : Nat) (va : Word) (split : Bool) : Exc :=
  { code := code, addrValid := true, wnr := r.kind.writes, split := split, size := log2n r.n, reg := r.reg, vec := r.vec, info := info, addr := va }

/-- Is an access misaligned for its size? -/
def misaligned (va : Word) (n : Nat) : Bool := va.toNat % n != 0

/-- Outcome of checking: the pieces with the state the walks leave, or an exception. -/
inductive ChkR where
  | ok (s : State) (ps : List Piece)
  | exc (s : State) (e : Exc)

/-- Checks of one piece after its translation (02 R60 steps 6 and 7): alignment and type, then mapping. `second` is the second half of a split access. A quad, vector-register or vector-element access whose second half is Device takes the alignment fault of the split (R67) before the memory-type fault (R62, R63); the spec orders neither (DESIGN CHOICE, notes/assumptions/100.md). -/
def State.typeCheck (s : State) (r : Acc) (va : Word) (x : Xl) (second : Bool) : Option Exc :=
  let ty := s.memType x
  let kind := s.paKind x.pa
  if ty = 2 then
    if second then some (r.abort 0x22 0 va true)
    else if r.kind = .atomic || r.wide then some (r.abort 0x24 2 va false)
    else if misaligned r.va r.n || (kind == .ccs && decide (r.n < 4)) then some (r.abort 0x22 0 va false)
    else if kind = .unmapped then some (r.abort 0x23 0 va false)
    else none
  else if r.kind = .atomic && ty != 0 then some (r.abort 0x24 1 va false)
  else if kind = .unmapped then some (r.abort 0x23 0 va second)
  else none

/-- Translate and check one piece. -/
def State.checkPiece (s : State) (r : Acc) (va : Word) (n : Nat) (second : Bool) : ChkR :=
  match s.translate r.t va r.kind with
  | .error (f, w) => .exc (s.walkLeft r.t w) { f.exc r.kind va (log2n r.n) r.reg with split := second, vec := r.vec }
  | .ok (x, w) =>
    let s1 := s.walkLeft r.t w
    match s1.typeCheck r va x second with
    | some e => .exc s1 e
    | none => .ok s1 [⟨va, n, x, s1.memType x, s1.paKind x.pa, x.pa / 64, second⟩]

/-- Bytes of an access in its first line. -/
def firstHalf (va : Word) (n : Nat) : Nat := min n (64 - va.toNat % 64)

/-- Translate and check an access (02 R60, R67): the halves in order, then watchpoints; the translations are completed only when all pass. DEDUCED (notes/assumptions/96.md): a watchpoint on a vector element reports the element's address (06 R165) with ADDR_VALID 1; on another access 02 R59 names no address. -/
def State.check (s : State) (r : Acc) : ChkR :=
  let h := firstHalf r.va r.n
  let go : ChkR :=
    match s.checkPiece r r.va h false with
    | .exc s1 e => .exc s1 e
    | .ok s1 ps =>
      if h = r.n then .ok s1 ps
      else match s1.checkPiece r (r.va + BitVec.ofNat 64 h) (r.n - h) true with
        | .exc s2 e => .exc s2 e
        | .ok s2 qs => .ok s2 (ps ++ qs)
  match go with
  | .exc s1 e => .exc s1 e
  | .ok s1 ps =>
    match s1.watchAt r.t r.va r.n r.kind.reads r.kind.writes with
    | some k => .exc s1 { code := 0x0E, addrValid := r.vec, wnr := r.kind.writes, size := log2n r.n, reg := r.reg, vec := r.vec, info := k, addr := if r.vec then r.va else 0 }
    | none => .ok (ps.foldl (fun s p => s.commitXl r.t r.kind p.x) s1) ps

/-! ### The store buffer (04 R114) -/

/-- The bytes of one line, from a physical address, as store data with byte enables. -/
def StorePart.of (a : Nat) (bs : List Byte) (sec unc : Bool) : StorePart :=
  { line := a / 64
    data := lineOf (fun i => if a % 64 ≤ i then bs.getD (i - a % 64) 0 else 0)
    mask := (List.range bs.length).foldl (fun m k => m ||| (1#64 <<< (a % 64 + k))) 0
    sec := sec
    unc := unc }

/-- Does a part write byte address `a`? -/
def StorePart.covers (p : StorePart) (a : Nat) : Bool := p.line == a / 64 && p.mask.getLsbD (a % 64)

/-- Two parts of one instruction to the same line, the later over the earlier. -/
def StorePart.join (p q : StorePart) : StorePart := { p with data := mergeLine p.data q.data q.mask, mask := p.mask ||| q.mask }

/-- Add a part to the parts of one instruction: joined with the part of its line and attributes, if there is one. -/
def joinPart (q : StorePart) : List StorePart → List StorePart
  | [] => [q]
  | p :: r => if p.line = q.line && p.sec == q.sec && p.unc == q.unc then p.join q :: r else p :: joinPart q r

/-- Outcome of writing stores: done, or something has to be waited for, in the state with what was done and asked for. -/
inductive DrainR where
  | ok (s : State)
  | wait (s : State)

/-- Write one line of a store: into L1D owned (write-back), or through the home (uncached). A Normal write to a Secure line changes nothing and is a violation. -/
def State.storeLine (s : State) (t cls : Nat) (p : StorePart) : DrainR :=
  if !s.isMem (64 * p.line) then .ok s
  else if !p.sec && s.lineSec p.line then .ok (s.coreViol t 2 (64 * p.line))
  else if p.unc then
    if s.coh.blocked p.line || s.coh.queued p.line then .wait s
    else
      let c := s.coh.homeWrite s.env p.line p.data p.mask cls false (s.stopOf t)
      match s.tryCoh c (s.rqrOf t) .write with
      | some s1 => .ok s1
      | none => .wait (s.askCoh c)
  else
    let miss := match s.coh.pl (s.stopOf t) p.line with | some q => q.l1d.isNone | none => true
    match s.ownLine t p.line cls .write (fun _ c => c.writeOwned s.env (s.stopOf t) p.line p.data p.mask) with
    | .wait s1 => .wait s1
    | .got s1 _ _ => .ok (if miss then s1.countThr t 0x00B .write (some (64 * p.line)) 1 else s1)

/-- Write one line access of the oldest retired store (04 R114, R117); an empty buffer has none. -/
def State.drainStore (s : State) (t : Nat) : DrainR :=
  match (s.thr t).stores with
  | [] => .ok s
  | e :: r =>
    match e.parts with
    | [] => .ok (s.updThr t (fun th => { th with stores := r }))
    | p :: ps =>
      match s.storeLine t e.cls p with
      | .wait s1 => .wait s1
      | .ok s1 => .ok (s1.updThr t (fun th => { th with stores := if ps.isEmpty then r else { e with parts := ps } :: r }))

/-- Drain until at most k stores remain. -/
def State.drainTo (t k : Nat) : Nat → State → DrainR
  | 0, s => if (s.thr t).stores.length ≤ k then .ok s else .wait s
  | n + 1, s =>
    if (s.thr t).stores.length ≤ k then .ok s
    else match s.drainStore t with
      | .wait s1 => .wait s1
      | .ok s1 => State.drainTo t k n s1

/-- Line accesses the store buffer of a thread holds at most. -/
def Thread.storeFuel (th : Thread) : Nat := (th.stores.map (fun e => e.parts.length + 1)).sum

/-- Every older store of the thread is written (fences, releases, atomics, maintenance). -/
def State.drainAll (s : State) (t : Nat) : DrainR := State.drainTo t 0 (s.thr t).storeFuel s

/-- How a load meets the thread's older stores (04 R116). -/
inductive Fwd where
  | clear
  | full (bytes : List Byte)
  | partly (keep : Nat)

/-- How a load of the byte addresses `want` meets older stores: the youngest part that overlaps decides (each half of a split store counts as a store); `keep` is how many younger stores may stay. -/
def forwardBytes (stores : List StoreEnt) (want : List Nat) : Fwd :=
  let hits (p : StorePart) : Bool := want.any p.covers
  let rev := stores.reverse
  match rev.findIdx? (fun e => e.parts.any hits) with
  | none => .clear
  | some i =>
    match (rev[i]?).bind (fun e => e.parts.reverse.find? hits) with
    | none => .clear
    | some p => if want.all p.covers && !p.unc then .full (want.map (fun a => byteAt p.data (a % 64))) else .partly i

/-- How a load of bytes [a, a + n) meets older stores. -/
def forward (stores : List StoreEnt) (a n : Nat) : Fwd := forwardBytes stores ((List.range n).map (a + ·))

/-! ### Loads -/

/-- What an access answers: done, an exception, or it has to wait. -/
inductive AccR where
  | ok (s : State) (bs : List Byte)
  | exc (s : State) (e : Exc)
  | wait (s : State)

/-- Bytes [a, a + n) of a line's data. -/
def bytesOf (d : Line) (a n : Nat) : List Byte := (List.range n).map (fun k => byteAt d (a % 64 + k))

/-- A Chip Control Space access of a thread. -/
def State.threadCcs (s : State) (t : Nat) (sec : Bool) (a n : Nat) (data : Word) : CcsReq :=
  { off := a - ccsBase, half := n == 4, data := data, sec := sec, rtype := 0, req := t, vmid := s.reqVmid t }

/-- Has a thread a buffered store that has to be performed before its next Device access (02 R64 rule 4)? A Device store to DRAM or CXL.mem waits in the buffer as uncached; one in Normal uncached memory may as well go first (rule 6). -/
def Thread.devStores (th : Thread) : Bool := th.stores.any (fun e => e.parts.any (·.unc))
/-- A Device access is performed after the Device stores before it (02 R64 rule 4). -/
def State.devOrder (s : State) (t : Nat) (dev : Bool) : DrainR := if dev && (s.thr t).devStores then s.drainAll t else .ok s

/-- What a load from a port answers for the bytes of an access (02 R59). -/
def MmioR.load (x : MmioR) (r : Acc) (va : Word) (n : Nat) (second : Bool) : AccR :=
  match x with
  | .wait s1 => .wait s1
  | .data s1 v => .ok s1 (leBytes n v)
  | .poison s1 => .exc s1 (r.abort 0x30 0 va second)
  | .timeout s1 port => .exc s1 (r.abort 0x25 port va second)

/-- Load one piece (02 R62, R63, 04 R116). -/
def State.loadPiece (s0 : State) (r : Acc) (p : Piece) : AccR :=
  let a := p.x.pa
  match s0.devOrder r.t (p.ty == 2) with
  | .wait s1 => .wait s1
  | .ok s =>
  match p.kind with
  | .ccs =>
    let (s1, v) := s.ccsRead (s.threadCcs r.t p.x.sec a p.n 0)
    .ok s1 (leBytes p.n v.toNat)
  | .mmio => (s.mmioLoad r.t a p.n).load r p.va p.n p.second
  | .rom => .ok s ((List.range p.n).map (fun k => smGet (fun _ => 0#8) s.memx.rom (a - romBase + k)))
  | .unmapped => .ok s (leBytes p.n 0)
  | _ =>
    if !p.x.sec && s.lineSec p.line then .ok (s.coreViol r.t 1 a) (leBytes p.n 0)
    else
      let stop := s.stopOf r.t
      let fresh (s : State) : AccR :=
        let (m1, m2) := match s.coh.pl stop p.line with
          | some q => (p.ty == 0 && q.l1d.isNone, p.ty == 0 && q.l2.isNone && q.l1d.isNone)
          | none => (p.ty == 0, p.ty == 0)
        match (if p.ty != 0 then s.curLine r.t p.line else s.readLine r.t p.line false) with
        | .wait s1 => .wait s1
        | .got s1 q =>
          let s2 := if m1 then s1.countThr r.t 0x00B .read (some a) 1 else s1
          let s3 := if m2 then s2.countThr r.t 0x00C .read (some a) 1 else s2
          if q.poison then .exc s3 (r.abort 0x30 0 p.va p.second) else .ok s3 (bytesOf q.data a p.n)
      let after (x : DrainR) : AccR := match x with | .ok s1 => fresh s1 | .wait s1 => .wait s1
      match forward (s.thr r.t).stores a p.n with
      | .clear => fresh s
      | .full bs => if p.ty = 0 then .ok s bs else after (s.drainAll r.t)
      | .partly k => after (State.drainTo r.t k (s.thr r.t).storeFuel s)

/-- Load every piece in order. -/
def State.loadPieces (r : Acc) : List Piece → State → AccR
  | [], s => .ok s []
  | p :: ps, s =>
    match s.loadPiece r p with
    | .ok s1 bs =>
      match State.loadPieces r ps s1 with
      | .ok s2 cs => .ok s2 (bs ++ cs)
      | x => x
    | x => x

/-- The bytes of write-back memory that a load wants of its pieces. -/
def State.wanted (s : State) (ps : List Piece) : List Nat :=
  (ps.filter (fun p => (p.kind == .mem || p.kind == .cxl) && p.ty == 0 && (p.x.sec || !s.lineSec p.line))).flatMap (fun p => (List.range p.n).map (p.x.pa + ·))

/-- How a load meets the older stores of its thread (04 R116): unless the youngest that overlaps it, of whose lines each counts as a store, covers all of its bytes, those of both halves of a split load, the load waits until that store is written, and LD_STALL_PARTIAL_FWD counts once. The line accesses of a vector load have met them already (06 R158). -/
def State.meetStores (s : State) (r : Acc) (ps : List Piece) : DrainR :=
  if r.vec then .ok s
  else match forwardBytes (s.thr r.t).stores (s.wanted ps) with
    | .partly k =>
      match State.drainTo r.t k (s.thr r.t).storeFuel s with
      | .ok s1 => .ok (s1.countThr r.t 0x010 .read ((s.wanted ps).head?) 1)
      | .wait s1 => .wait s1
    | _ => .ok s

/-- A load (02 R60–R67): checks, then data. One that a port's completion is awaited for goes on under the translation it was issued with (10 R297). -/
def State.load (s : State) (r : Acc) : AccR :=
  match s.loadOut r.t with
  | some o => (s.mmioEnd o r.n).load r r.va r.n false
  | none =>
    match s.check r with
    | .exc s1 e => .exc s1 e
    | .ok s1 ps =>
      match s1.meetStores r ps with
      | .wait s2 => .wait s2
      | .ok s2 =>
        match State.loadPieces r ps s2 with
        | .ok s3 bs => .ok (if ps.length = 2 then s3.countThr r.t 0x011 .read none 1 else s3) bs
        | x => x

/-! ### Stores -/

/-- What a piece in Normal memory writes when its store leaves the buffer; other pieces enter no buffer. -/
def Piece.part (p : Piece) (bs : List Byte) : List StorePart :=
  match p.kind with
  | .mem | .cxl => [StorePart.of p.x.pa bs p.x.sec (p.ty != 0)]
  | _ => []

/-- Perform one piece of a store to Device memory, at once and in program order; the boot ROM ignores writes (20 R597). -/
def State.storeDevice (r : Acc) (s : State) (pb : Piece × List Byte) : State :=
  let (p, bs) := pb
  let a := p.x.pa
  match p.kind with
  | .ccs => s.ccsWrite (s.threadCcs r.t p.x.sec a p.n (BitVec.ofNat 64 (leVal bs)))
  | .mmio => s.mmioStore r.t a p.n (leVal bs)
  | .rom => s
  | .unmapped => s
  | .mem => s
  | .cxl => s

/-- Put a store into the thread's store buffer (04 R114, R117): one entry, or none when it writes no Normal memory. -/
def State.bufferStore (s : State) (t : Nat) (parts : List StorePart) : State :=
  if parts.isEmpty then s
  else s.updThr t (fun th => { th with stores := th.stores ++ [⟨parts, s.clsOf t⟩] })

/-- Split a byte list over pieces. -/
def splitBytes : List Piece → List Byte → List (Piece × List Byte)
  | [], _ => []
  | p :: ps, bs => (p, bs.take p.n) :: splitBytes ps (bs.drop p.n)

/-- What a store answers before it enters the store buffer: the state with its Device pieces performed and the parts still to be buffered. -/
inductive StoR where
  | ok (s : State) (parts : List StorePart)
  | exc (s : State) (e : Exc)
  | wait (s : State)

/-- The checks and Device pieces of a store (02 R60–R67). A release store to Device memory waits until every older store is written (02 R64 rule 5), any Device store for the Device stores before it (rule 4), and a configuration write for a tag of its link (14 R431). -/
def State.storeParts (s : State) (r : Acc) (bs : List Byte) (release : Bool) : StoR :=
  match s.check r with
  | .exc s1 e => .exc s1 e
  | .ok s1 ps =>
    match (if release && ps.any (fun p => p.ty == 2) then s1.drainAll r.t else s1.devOrder r.t (ps.any (fun p => p.ty == 2))) with
    | .wait s2 => .wait s2
    | .ok s2 =>
      match ps.find? (fun p => p.kind == .mmio && s2.noTag r.t p.x.pa p.n) with
      | some p => .wait (s2.waitTag r.t p.x.pa p.n)
      | none =>
      let pbs := splitBytes ps bs
      let s3 := pbs.foldl (State.storeDevice r) s2
      .ok (if ps.length = 2 then s3.countThr r.t 0x012 .write none 1 else s3) (pbs.flatMap (fun pb => pb.1.part pb.2))

/-- A store (02 R60–R67): its parts enter the store buffer as one entry. -/
def State.store (s : State) (r : Acc) (bs : List Byte) (release : Bool) : AccR :=
  match s.storeParts r bs release with
  | .exc s1 e => .exc s1 e
  | .wait s1 => .wait s1
  | .ok s1 parts => .ok (s1.bufferStore r.t parts) []

end Sys2Proof.Machine
end

