-- ==== Sys2Proof/Machine/LoadStore.lean ====
section
/-! DEFINITION. Scalar and whole-register loads and stores (spec/03_instruction_set.md R79–R81, spec/04_core_pipeline.md R114–R117). -/
namespace Sys2Proof.Machine

/-- Outcome of a load as an instruction's effect: its bytes are handed on, and LD_RETIRED counts. -/
def AccR.loaded (x : AccR) (t : Nat) (k : State → List Byte → State) : Eff :=
  match x with
  | .ok s bs => .next ((k s bs).countThr t 0x002 .read none 1)
  | .exc s e => .trap s e false
  | .wait s => .wait s

/-- Outcome of a store as an instruction's effect: ST_RETIRED counts. -/
def AccR.stored (x : AccR) (t : Nat) : Eff :=
  match x with
  | .ok s _ => .next (s.countThr t 0x003 .write none 1)
  | .exc s e => .trap s e false
  | .wait s => .wait s

/-- How a loaded value fills its destination (03 R79, R81): an E register signed or unsigned, a pair, or an SV register. -/
inductive LdDst where
  | eS (rd : Reg)
  | eU (rd : Reg)
  | pair (rd : Reg)
  | sv (rd : Reg)

/-- Register number of a destination. -/
def LdDst.num : LdDst → Nat
  | .eS r => r.toNat | .eU r => r.toNat | .pair r => r.toNat | .sv r => r.toNat

/-- Write a loaded value of n bytes. -/
def Thread.putLoad (th : Thread) (d : LdDst) (n : Nat) (bs : List Byte) : Thread :=
  let v := leVal bs
  match d with
  | .eS r => th.wE r (if n = 1 then (BitVec.ofNat 8 v).signExtend 64 else if n = 2 then (BitVec.ofNat 16 v).signExtend 64 else if n = 4 then (BitVec.ofNat 32 v).signExtend 64 else BitVec.ofNat 64 v)
  | .eU r => th.wE r (BitVec.ofNat 64 v)
  | .pair r => th.wPair r (BitVec.ofNat 128 v)
  | .sv r => th.wSV r (BitVec.ofNat 256 v)

/-- Bytes a store takes from its data register (R79, R81). -/
def Thread.storeBytes (th : Thread) (d : LdDst) (n : Nat) : List Byte :=
  match d with
  | .eS r | .eU r => leBytes n (th.rE r).toNat
  | .pair r => leBytes n (th.rPair r).toNat
  | .sv r => leBytes n (th.rSV r).toNat

/-- A scalar or whole-register load of n bytes (R79–R81). -/
def loadOp (t : Nat) (enc : BitVec 32) (alloc : Bool) (n : Nat) (d : LdDst) (ea : Thread → Word) (s : State) : State :=
  runInstr t (fun _ => { enc := enc, alloc := alloc }) (fun s =>
    (s.load ⟨t, ea (s.thr t), n, .load, d.num, false, decide (8 < n)⟩).loaded t (fun s bs => s.updThr t (fun th => th.putLoad d n bs))) s

/-- A scalar or whole-register store of n bytes (R79–R81). -/
def storeOp (t : Nat) (enc : BitVec 32) (alloc : Bool) (n : Nat) (d : LdDst) (release : Bool) (ea : Thread → Word) (s : State) : State :=
  runInstr t (fun _ => { enc := enc, alloc := alloc }) (fun s =>
    (s.store ⟨t, ea (s.thr t), n, .store, d.num, false, decide (8 < n)⟩ ((s.thr t).storeBytes d n) release).stored t) s

/-- LB (R79). -/
def execLb (t : Nat) (rd ra : Reg) (imm : BitVec 16) (s : State) : Host.Outcome State Fault Refusal :=
  .next (loadOp t (encI 0x10 rd ra imm) true 1 (.eS rd) (fun th => eaImm th ra imm) s)
/-- LBU (R79). -/
def execLbu (t : Nat) (rd ra : Reg) (imm : BitVec 16) (s : State) : Host.Outcome State Fault Refusal :=
  .next (loadOp t (encI 0x11 rd ra imm) true 1 (.eU rd) (fun th => eaImm th ra imm) s)
/-- LH (R79). -/
def execLh (t : Nat) (rd ra : Reg) (imm : BitVec 16) (s : State) : Host.Outcome State Fault Refusal :=
  .next (loadOp t (encI 0x12 rd ra imm) true 2 (.eS rd) (fun th => eaImm th ra imm) s)
/-- LHU (R79). -/
def execLhu (t : Nat) (rd ra : Reg) (imm : BitVec 16) (s : State) : Host.Outcome State Fault Refusal :=
  .next (loadOp t (encI 0x13 rd ra imm) true 2 (.eU rd) (fun th => eaImm th ra imm) s)
/-- LW (R79). -/
def execLw (t : Nat) (rd ra : Reg) (imm : BitVec 16) (s : State) : Host.Outcome State Fault Refusal :=
  .next (loadOp t (encI 0x14 rd ra imm) true 4 (.eS rd) (fun th => eaImm th ra imm) s)
/-- LWU (R79). -/
def execLwu (t : Nat) (rd ra : Reg) (imm : BitVec 16) (s : State) : Host.Outcome State Fault Refusal :=
  .next (loadOp t (encI 0x15 rd ra imm) true 4 (.eU rd) (fun th => eaImm th ra imm) s)
/-- LD (R79). -/
def execLd (t : Nat) (rd ra : Reg) (imm : BitVec 16) (s : State) : Host.Outcome State Fault Refusal :=
  .next (loadOp t (encI 0x16 rd ra imm) true 8 (.eU rd) (fun th => eaImm th ra imm) s)
/-- LQ (R79). -/
def execLq (t : Nat) (rd ra : Reg) (imm : BitVec 16) (s : State) : Host.Outcome State Fault Refusal :=
  .next (loadOp t (encI 0x17 rd ra imm) (pairOk rd) 16 (.pair rd) (fun th => eaImm th ra imm) s)
/-- SB (R79). -/
def execSb (t : Nat) (rd ra : Reg) (imm : BitVec 16) (s : State) : Host.Outcome State Fault Refusal :=
  .next (storeOp t (encI 0x18 rd ra imm) true 1 (.eU rd) false (fun th => eaImm th ra imm) s)
/-- SH (R79). -/
def execSh (t : Nat) (rd ra : Reg) (imm : BitVec 16) (s : State) : Host.Outcome State Fault Refusal :=
  .next (storeOp t (encI 0x19 rd ra imm) true 2 (.eU rd) false (fun th => eaImm th ra imm) s)
/-- SW (R79). -/
def execSw (t : Nat) (rd ra : Reg) (imm : BitVec 16) (s : State) : Host.Outcome State Fault Refusal :=
  .next (storeOp t (encI 0x1A rd ra imm) true 4 (.eU rd) false (fun th => eaImm th ra imm) s)
/-- SD (R79). -/
def execSd (t : Nat) (rd ra : Reg) (imm : BitVec 16) (s : State) : Host.Outcome State Fault Refusal :=
  .next (storeOp t (encI 0x1B rd ra imm) true 8 (.eU rd) false (fun th => eaImm th ra imm) s)
/-- SQ (R79). -/
def execSq (t : Nat) (rd ra : Reg) (imm : BitVec 16) (s : State) : Host.Outcome State Fault Refusal :=
  .next (storeOp t (encI 0x1C rd ra imm) (pairOk rd) 16 (.pair rd) false (fun th => eaImm th ra imm) s)

/-- Size of a MEMX access by KIND (R80). -/
def memxSize (k : Nat) : Nat := if k < 2 then 1 else if k < 4 then 2 else if k < 6 then 4 else if k = 6 then 8 else if k = 7 then 16 else if k = 8 then 1 else if k = 9 then 2 else if k = 10 then 4 else if k = 11 then 8 else 16
/-- Destination or data register of a MEMX access. -/
def memxDst (k : Nat) (rd : Reg) : LdDst := if k = 7 || k = 12 then .pair rd else if k = 0 || k = 2 || k = 4 then .eS rd else .eU rd
/-- MEMX (R80): an indexed load (KIND 0–7) or store (8–12), with acquire or release ordering when ORD is 1. -/
def execMemx (t : Nat) (rd ra rb : Reg) (kind : BitVec 4) (scale : BitVec 2) (ord : Bool) (s : State) : Host.Outcome State Fault Refusal :=
  let k := kind.toNat
  let enc := encR 0x1E rd ra rb (k * 128 + scale.toNat * 32 + ord.toNat * 16)
  .next (if k < 8 then loadOp t enc (memxOk kind rd) (memxSize k) (memxDst k rd) (fun th => eaIdx th ra rb scale) s
    else storeOp t enc (memxOk kind rd) (memxSize k) (memxDst k rd) ord (fun th => eaIdx th ra rb scale) s)

/-- FLH (R81). -/
def execFlh (t : Nat) (sd ra : Reg) (off : BitVec 13) (s : State) : Host.Outcome State Fault Refusal :=
  .next (loadOp t (encFL 0x1D sd ra 0 false off) true 2 (.sv sd) (fun th => eaFls th ra off 2) s)
/-- FLW (R81). -/
def execFlw (t : Nat) (sd ra : Reg) (off : BitVec 13) (s : State) : Host.Outcome State Fault Refusal :=
  .next (loadOp t (encFL 0x1D sd ra 1 false off) true 4 (.sv sd) (fun th => eaFls th ra off 4) s)
/-- FLD (R81). -/
def execFld (t : Nat) (sd ra : Reg) (off : BitVec 13) (s : State) : Host.Outcome State Fault Refusal :=
  .next (loadOp t (encFL 0x1D sd ra 2 false off) true 8 (.sv sd) (fun th => eaFls th ra off 8) s)
/-- SVL (R81). -/
def execSvl (t : Nat) (sd ra : Reg) (off : BitVec 13) (s : State) : Host.Outcome State Fault Refusal :=
  .next (loadOp t (encFL 0x1D sd ra 3 false off) true 32 (.sv sd) (fun th => eaFls th ra off 32) s)
/-- FSH (R81). -/
def execFsh (t : Nat) (sd ra : Reg) (off : BitVec 13) (s : State) : Host.Outcome State Fault Refusal :=
  .next (storeOp t (encFL 0x1D sd ra 0 true off) true 2 (.sv sd) false (fun th => eaFls th ra off 2) s)
/-- FSW (R81). -/
def execFsw (t : Nat) (sd ra : Reg) (off : BitVec 13) (s : State) : Host.Outcome State Fault Refusal :=
  .next (storeOp t (encFL 0x1D sd ra 1 true off) true 4 (.sv sd) false (fun th => eaFls th ra off 4) s)
/-- FSD (R81). -/
def execFsd (t : Nat) (sd ra : Reg) (off : BitVec 13) (s : State) : Host.Outcome State Fault Refusal :=
  .next (storeOp t (encFL 0x1D sd ra 2 true off) true 8 (.sv sd) false (fun th => eaFls th ra off 8) s)
/-- SVS (R81). -/
def execSvs (t : Nat) (sd ra : Reg) (off : BitVec 13) (s : State) : Host.Outcome State Fault Refusal :=
  .next (storeOp t (encFL 0x1D sd ra 3 true off) true 32 (.sv sd) false (fun th => eaFls th ra off 32) s)

/-- STORE_BUFFER_DRAIN (04 R114): one line access of the thread's oldest retired store is written; while its line cannot be had, it is asked for. -/
def execStoreBufferDrain (t : Nat) (s : State) : Host.Outcome State Fault Refusal := 
  .next (match s.tick.drainStore t with | .ok s1 => s1 | .wait s1 => s1)

end Sys2Proof.Machine
end

