-- ==== Sys2Proof/Machine/Atomics.lean ====
section
/-! DEFINITION. Atomic read-modify-write instructions (spec/03_instruction_set.md R82, R83; spec/08_mesh_coherence.md R230–R232). -/
namespace Sys2Proof.Machine

/-- Index and tag of a line in the contention predictor: two hashes the spec does not give (08 R231, notes/assumptions/5.md). -/
def predIdx (line : Nat) : Nat := Config.pick line 13 % 256
/-- Tag of a line in the contention predictor. -/
def predTag (line : Nat) : Nat := Config.pick line 14 % 256

/-- Look up the predictor of a core: far or near; a miss allocates with a counter of 1 (08 R231). -/
def State.predict (s : State) (stop line : Nat) : State × Bool :=
  match smGet (fun _ => none) (s.core stop).pred (predIdx line) with
  | some (tag, k) => if tag = predTag line then (s, decide (2 ≤ k)) else
      (s.updCore stop (fun c => { c with pred := smSet (fun _ => none) c.pred (predIdx line) (some (predTag line, 1)) }), false)
  | none => (s.updCore stop (fun c => { c with pred := smSet (fun _ => none) c.pred (predIdx line) (some (predTag line, 1)) }), false)

/-- Train the predictor with a retired AUTO atomic (08 R231): +1, −1 or nothing, saturating at 0 and 3. -/
def State.trainPred (s : State) (stop line : Nat) (d : Int) : State :=
  match smGet (fun _ => none) (s.core stop).pred (predIdx line) with
  | some (tag, k) =>
    if tag = predTag line then
      s.updCore stop (fun c => { c with pred := smSet (fun _ => none) c.pred (predIdx line) (some (tag, (max 0 (min 3 ((k : Int) + d))).toNat)) })
    else s
  | none => s

/-- An atomic in Normal write-back memory, near or far (08 R230–R232). Answers the old value as bytes. -/
def State.atomRun (s : State) (r : Acc) (p : Piece) (hint : BitVec 2) (atop opnd cmp : Nat) : AccR :=
  let stop := s.stopOf r.t
  let line := p.line
  let off := p.x.pa % 64
  let upd (d : Line) : Line := putInLine d off r.n (atomNew atop r.n (fromLine d off r.n) opnd cmp)
  if !p.x.sec && s.lineSec line then .ok (s.coreViol r.t 2 p.x.pa) (leBytes r.n 0)
  else
    match s.drainAll r.t with
    | .wait s0 => .wait s0
    | .ok s0 =>
      let owned : Bool := match s0.coh.pl stop line with
        | some q => (q.st == .m || q.st == .e) && !q.victim && (q.l1d.isSome || q.l2.isSome)
        | none => false
      let (s1, far) := if hint = 1 then (s0, false) else if hint = 2 then (s0, true) else if owned then (s0, false) else s0.predict stop line
      let auto := hint == 0
      if far then
        let (c, d, po, con) := s1.coh.farOp s1.env stop line (s1.clsOf r.t) upd
        if s1.coh.blocked line || s1.coh.queued line || !s1.coh.lineFree stop line then .wait s1
        else match s1.tryCoh c (s1.rqrOf r.t) .atomic with
        | none => .wait (s1.askCoh c)
        | some s2a =>
          let s2 := s2a.countThr r.t 0x014 .atomic (some p.x.pa) 1
          if po then .exc s2 (r.abort 0x30 0 r.va false)
          else .ok (if auto then s2.trainPred stop line (if con then 1 else -1) else s2) (leBytes r.n (fromLine d off r.n))
      else
        match s1.ownLine r.t line (s1.clsOf r.t) .atomic (fun q c => if q.poison then c else c.writeOwned s1.env stop line (upd q.data) fullMask) with
        | .wait s2 => .wait s2
        | .got s1a q how =>
          let s2 := s1a.countThr r.t 0x013 .atomic (some p.x.pa) 1
          if q.poison then .exc s2 (r.abort 0x30 0 r.va false)
          else .ok (if !auto then s2 else match how with | .hit => s2.trainPred stop line (-1) | .forwarded => s2.trainPred stop line 1 | .other => s2)
            (leBytes r.n (fromLine q.data off r.n))

/-- An atomic instruction (R82): an unaligned address raises ALIGN before any translation (02 R60). -/
def atomOp (t : Nat) (rd ra rb : Reg) (ord hint size : BitVec 2) (atop : Nat) (wide : Bool) (s : State) : Host.Outcome State Fault Refusal :=
  .next (runInstr t (fun _ => { enc := encA rd ra rb atop ord hint size, alloc := atomOk wide size hint rd rb }) (fun s =>
    let th := s.thr t
    let n := if size = 0 then 4 else if size = 1 then 8 else 16
    let r : Acc := ⟨t, th.rE ra, n, .atomic, rd.toNat, false, false⟩
    let opnd := if n = 16 then (th.rPair rb).toNat else (th.rE rb).toNat
    let cmp := if n = 16 then (th.rPair rd).toNat else (th.rE rd).toNat
    if misaligned r.va n then .trap s (r.abort 0x22 0 r.va false) false
    else match s.check r with
    | .exc s1 e => .trap s1 e false
    | .ok s1 ps =>
      match ps with
      | [] => .next s1
      | p :: _ =>
        match s1.atomRun r p hint atop opnd cmp with
        | .exc s2 e => .trap s2 e false
        | .wait s2 => .wait s2
        | .ok s2 bs =>
          .next ((s2.updThr t (fun th => if n = 16 then th.wPair rd (BitVec.ofNat 128 (leVal bs)) else th.wE rd (BitVec.ofNat 64 (leVal bs)))).countThr t 0x002 .atomic none 1)) s)

/-- ATOM.ADD (R82). -/
def execAtomAdd (t : Nat) (rd ra rb : Reg) (ord hint size : BitVec 2) (s : State) : Host.Outcome State Fault Refusal := atomOp t rd ra rb ord hint size 0 false s
/-- ATOM.AND (R82). -/
def execAtomAnd (t : Nat) (rd ra rb : Reg) (ord hint size : BitVec 2) (s : State) : Host.Outcome State Fault Refusal := atomOp t rd ra rb ord hint size 1 false s
/-- ATOM.OR (R82). -/
def execAtomOr (t : Nat) (rd ra rb : Reg) (ord hint size : BitVec 2) (s : State) : Host.Outcome State Fault Refusal := atomOp t rd ra rb ord hint size 2 false s
/-- ATOM.XOR (R82). -/
def execAtomXor (t : Nat) (rd ra rb : Reg) (ord hint size : BitVec 2) (s : State) : Host.Outcome State Fault Refusal := atomOp t rd ra rb ord hint size 3 false s
/-- ATOM.SMIN (R82). -/
def execAtomSmin (t : Nat) (rd ra rb : Reg) (ord hint size : BitVec 2) (s : State) : Host.Outcome State Fault Refusal := atomOp t rd ra rb ord hint size 4 false s
/-- ATOM.SMAX (R82). -/
def execAtomSmax (t : Nat) (rd ra rb : Reg) (ord hint size : BitVec 2) (s : State) : Host.Outcome State Fault Refusal := atomOp t rd ra rb ord hint size 5 false s
/-- ATOM.UMIN (R82). -/
def execAtomUmin (t : Nat) (rd ra rb : Reg) (ord hint size : BitVec 2) (s : State) : Host.Outcome State Fault Refusal := atomOp t rd ra rb ord hint size 6 false s
/-- ATOM.UMAX (R82). -/
def execAtomUmax (t : Nat) (rd ra rb : Reg) (ord hint size : BitVec 2) (s : State) : Host.Outcome State Fault Refusal := atomOp t rd ra rb ord hint size 7 false s
/-- ATOM.SWAP (R82). -/
def execAtomSwap (t : Nat) (rd ra rb : Reg) (ord hint size : BitVec 2) (s : State) : Host.Outcome State Fault Refusal := atomOp t rd ra rb ord hint size 8 true s
/-- ATOM.CAS (R82). -/
def execAtomCas (t : Nat) (rd ra rb : Reg) (ord hint size : BitVec 2) (s : State) : Host.Outcome State Fault Refusal := atomOp t rd ra rb ord hint size 9 true s
/-- ATOM.FADD (R82). -/
def execAtomFadd (t : Nat) (rd ra rb : Reg) (ord hint size : BitVec 2) (s : State) : Host.Outcome State Fault Refusal := atomOp t rd ra rb ord hint size 10 false s

end Sys2Proof.Machine
end

