-- ==== Sys2Proof/Machine/Mesh.lean ====
section
/-! DEFINITION. The Obley mesh: link errors, lane sparing and reroute (spec/08_mesh_coherence.md R211–R215; spec/16_power.md R494). -/
namespace Sys2Proof.Machine

/-! ### Link errors (R211–R215) -/

/-- Key of a link direction: AB from the lower-numbered end, BA the other. -/
def linkKey (e : Elem) (ba : Bool) : Nat := 8 * e.stop + 2 * (if e.kind = 4 then 2 else e.kind) + ba.toNat

/-- An element is declared failed (R213 step 4). -/
def State.elemFails (s : State) (e : Elem) (since : Nat) : State :=
  if s.msh.failing.any (fun x => x.1 == e) || s.meshFaults.contains e then s
  else { s with msh := { s.msh with failing := s.msh.failing ++ [(e, since)], retrain := s.msh.retrain.filter (fun x => x.1 != e) } }

/-- FLIT_CRC_ERROR (R211): the receiver of a link direction discards the flit and requests replay; `again` names the flit of the replay before, so that this replay of it has failed. When the eighth consecutive replay fails, retraining starts. Times count from the first failed replay (R213). -/
def execFlitCrcError (kind stop : Nat) (ba again : Bool) (s : State) : Host.Outcome State Fault Refusal :=
  let e : Elem := ⟨kind, stop⟩
  if !e.ok || kind = 2 || kind = 3 || s.linkStuck e ba || s.meshFaults.contains e then .next s
  else
    let k := linkKey e ba
    let old := smGet (fun _ => (0, 0)) s.msh.replays k
    let n := if again && old.1 != 0 then old.1 + 1 else 1
    let since := if n ≤ 2 then s.time.mt else old.2
    if 9 ≤ n then .next { s with msh := { s.msh with replays := smSet (fun _ => (0, 0)) s.msh.replays k (0, 0), retrain := s.msh.retrain ++ [(e, ba, since)] } }
    else
      let s1 := match e.aq with
        | some n => (s.addSat (a_MSH_AQ_STAT n) f_MSH_AQ_STAT_REPLAYS 1).countUnc (a_UNC_CFG_AQ n 0) 4 none 0x030 {} .none none 1
        | none => s.countSlice (if ba then e.far else stop) 0x030 {} .none none 1
      .next { s1 with msh := { s1.msh with replays := smSet (fun _ => (0, 0)) s1.msh.replays k (n, since) } }

/-- One more failed lane of an aqueduct direction (R212): a spare takes its place, then half width, then the link fails. Answers whether the link still works. -/
def State.laneFails (s : State) (n : Nat) (ba : Bool) (lane : Nat) : State × Bool :=
  let a := a_MSH_AQ_STAT n
  let fs := if ba then f_MSH_AQ_STAT_SPARES_BA else f_MSH_AQ_STAT_SPARES_AB
  let fh := if ba then f_MSH_AQ_STAT_HALF_BA else f_MSH_AQ_STAT_HALF_AB
  let k := s.rf a fs
  if s.rf a fh = 1 then (s, false)
  else if k < 2 then
    ((s.wf a fs (k + 1)).logArea.hostEv 0x0603 1 (672 + n) 0 (n + ba.toNat * 2 ^ 8 + lane % 64 * 2 ^ 16 + (k + 1) * 2 ^ 24) 0, true)
  else ((s.wf a fh 1).logArea.replaceReq 4 0x0604 (672 + n) (n + ba.toNat * 2 ^ 8) 0, true)

/-- Every failed lane in turn. -/
def State.lanesFail (n : Nat) (ba : Bool) : List Nat → State → State × Bool
  | [], s => (s, true)
  | l :: r, s =>
    match s.laneFails n ba l with
    | (s1, true) => State.lanesFail n ba r s1
    | x => x

/-- LINK_RETRAIN_END (R212, R213 step 3): retraining of a link direction ends, `ok` or not, having found the named lanes failed. An aqueduct substitutes lanes or goes to half width; a link that cannot resume has failed. -/
def execLinkRetrainEnd (kind stop : Nat) (ba ok : Bool) (lanes : List Nat) (s : State) : Host.Outcome State Fault Refusal :=
  let e : Elem := ⟨kind, stop⟩
  match s.msh.retrain.find? (fun x => x.1 == e && x.2.1 == ba) with
  | none => .next s
  | some (_, _, since) =>
    let s1 := { s with msh := { s.msh with retrain := s.msh.retrain.filter (fun x => !(x.1 == e && x.2.1 == ba)) } }
    match e.aq with
    | none => .next (if ok then s1 else s1.elemFails e since)
    | some n =>
      match State.lanesFail n ba lanes s1 with
      | (s2, alive) => .next (if ok && alive then s2 else s2.elemFails e since)

/-- MESH_LINK_FAILED (R213 steps 5–7, R215): the element enters the next free MSH_FAULT_n and traffic is rerouted; a ninth element, or a pair of stops left without a route, is fatal. A half-junction fails without a retraining before it. While the Lengthsman restarts it waits (17 R516). -/
def execMeshLinkFailed (kind stop : Nat) (s : State) : Host.Outcome State Fault Refusal :=
  let e : Elem := ⟨kind, stop⟩
  let start : Option Nat := match s.msh.failing.find? (fun x => x.1 == e) with
    | some x => some x.2
    | none => if (kind = 2 || kind = 3) && e.ok && !s.meshFaults.contains e then some s.time.mt else none
  match (if s.gal.restart.isSome then none else start) with
  | none => .next s
  | some since =>
    let s0 := { s with msh := { s.msh with failing := s.msh.failing.filter (fun x => x.1 != e) } }
    let src := match e.aq with | some n => 672 + n | none => 804
    let s1 := match e.aq with | some n => s0.wf (a_MSH_AQ_STAT n) f_MSH_AQ_STAT_FAILED 1 | none => s0
    match (List.range 8).find? (fun n => s.rf (a_MSH_FAULT n) f_MSH_FAULT_VALID == 0) with
    | none => .next (s1.fatal 0x0602 src (e.image + 8 * 2 ^ 16) 0)
    | some n =>
      let s2 := (s1.setReg (a_MSH_FAULT n) (BitVec.ofNat 64 e.image)).logArea
      .next (if routable s2.meshFaults then s2.hostEv 0x0601 2 src 0 (e.image + n * 2 ^ 16) (s.time.mt - since)
        else s2.fatal 0x0602 src (e.image + n * 2 ^ 16) 0)

/-- AQUEDUCT_IDLE_TIMEOUT (16 R494): 100 µs of MT after the last message crossed, the aqueduct withdraws its DEP vote. -/
def execAqueductIdleTimeout (n : Nat) (s : State) : Host.Outcome State Fault Refusal :=
  let last := smGet (fun _ => 0) s.msh.aqLast n
  .next (if 38 ≤ n || s.time.mt + 1 < last + 100000 then s else s.setVote (672 + n) 4 false)

end Sys2Proof.Machine
end

