-- ==== Sys2Proof/Machine/System.lean ====
section
/-! DEFINITION. System instructions: MFS, MTS, SYNCS, XRET, WAIT, fences, SEND and the traps (spec/02_programmers_model.md R43–R56, R65; spec/03_instruction_set.md R86–R88; spec/11_tenancy.md R328). -/
namespace Sys2Proof.Machine

/-! ### System state: access (R47, R49) -/

/-- Level required to read system state; none if the number is unallocated (R47). -/
def sysReadLvl (num : Nat) : Option Nat :=
  if num ≤ 4 || num == 0x40 then some 0
  else if num = 0x10 || num = 0x20 || num = 0x21 || (0x30 ≤ num && decide (num ≤ 0x37)) then some 0
  else if (0x400 ≤ num && decide (num ≤ 0x405)) || num == 0x410 || num == 0x411 || num == 0x420 || (0x430 ≤ num && decide (num ≤ 0x438)) ||
    num == 0x440 || num == 0x450 || num == 0x460 then some 1
  else if (0x800 ≤ num && decide (num ≤ 0x806)) || (0x810 ≤ num && decide (num ≤ 0x812)) then some 2
  else if (0xC00 ≤ num && decide (num ≤ 0xC05)) || num == 0xC10 then some 3
  else none

/-- Level required to write system state; none if it cannot be written. -/
def sysWriteLvl (num : Nat) : Option Nat :=
  if num = 0x10 || num = 0x40 then none
  else if num = 0x20 || num = 0x21 || (0x30 ≤ num && decide (num ≤ 0x37)) then some 1
  else sysReadLvl num

/-- Bit of PMU_USER_EN that opens a counter to level 0 (19 R581). -/
def userBit (num : Nat) : Nat := if num = 0x20 then 8 else if num = 0x21 then 9 else num - 0x30

/-- May a level-0 read see the state: counters by PMU_USER_EN, MT_NOW by TIMECTL.MT_USER? -/
def State.userMay (s : State) (t num : Nat) : Bool :=
  if num = 0x10 then bit ((s.thr t).committed 0x440) 0
  else if num = 0x20 || num = 0x21 || (0x30 ≤ num && decide (num ≤ 0x37)) then bit ((s.core (s.stopOf t)).seen 0x430 (t % 4) (s.core (s.stopOf t)).pmuUserEn) (userBit num)
  else true

/-- State a guest kernel may not touch (R49): taken to level 2. -/
def guestTrapped (num : Nat) : Bool := num == 0x450 || num == 0x460 || (decide (0x431 ≤ num) && decide (num ≤ 0x438))

/-- What the access checks of R49 answer. -/
inductive SysAcc where
  | ok | fail | trap2
  deriving DecidableEq, Repr

/-- The checks of an access to system state (R46, R49). -/
def State.sysCheck (s : State) (t num : Nat) (write : Bool) : SysAcc :=
  let th := s.thr t
  match (if write then sysWriteLvl num else sysReadLvl num) with
  | none => .fail
  | some l =>
    if th.pl < max l (num / 1024) then .fail
    else if th.secure && num / 1024 == 2 then .fail
    else if !write && th.pl == 0 && !s.userMay t num then .fail
    else if guestTrapped num && th.pl == 1 && s.guest t then .trap2
    else .ok

/-! ### System state: values -/

/-- The value MFS reads (R47). -/
def State.sysRead (s : State) (t num : Nat) : Word :=
  let stop := s.stopOf t
  let c := s.core stop
  if num = 0x10 then BitVec.ofNat 64 (s.mtAt stop)
  else if num = 0x20 then smGet (fun _ => 0) c.pmcCyc (t % 4)
  else if num = 0x21 then smGet (fun _ => 0) c.pmcRet (t % 4)
  else if 0x30 ≤ num && decide (num ≤ 0x37) then c.seen num (t % 4) (smGet (fun _ => 0) c.pmc (num - 0x30))
  else if num = 0x40 then BitVec.ofNat 64 t
  else if num = 0x420 then 0
  else if num = 0x430 then c.seen num (t % 4) c.pmuUserEn
  else if num = 0x450 then s.clkselOf (s.stopOf t) (s.view t num)
  else s.view t num

/-- A value keeping only the bits of a mask. -/
def maskW (v : Word) (m : Nat) : Word := v &&& BitVec.ofNat 64 m

/-- The value sync-required or plain state takes from a written value, given its value before: reserved bits zero, refused fields kept (R43–R48, 06 R143, 10 R305–R307, 15 R459, R475, 16 R510, 19 R580). -/
def sysWritten (num : Nat) (pl : Nat) (lv : Bool) (old v : Word) : Word :=
  if num = 0 then (if pl = 0 then setFld old 0 2 (fld v 0 2) else setFld old 0 4 (fld v 0 4))
  else if num = 1 then (let m := fld v 0 3; maskW (if m ≤ 4 then v else setFld v 0 3 (fld old 0 3)) 0x1F)
  else if num = 2 then maskW v 0x3F
  else if num = 3 then
    if !lv then 0
    else
      let vl := fld v 0 6
      let x := setFld 0 0 6 (if vl = 0 || 32 < vl then fld old 0 6 else vl)
      setBit x 8 (if pl = 0 then bit old 8 else bit v 8)
  else if num = 4 then maskW v 0xFF
  else if num = 0x400 || num = 0x800 || num = 0xC00 then maskW v 0xFFFFFFFFFFFFF000
  else if num = 0x402 || num = 0x802 || num = 0xC02 then maskW v 0x7F
  else if num = 0x403 || num = 0x803 || num = 0xC03 then maskW v 0xFFFFFFFF001FFFFF
  else if num = 0x410 then maskW v 0x0000FFFF00000003
  else if num = 0x411 || num = 0x812 then maskW v 0x000FFFFFFFFFF000
  else if num = 0x811 then maskW v 0x000FFFFFFFFFF001
  else if num = 0x810 then maskW v 0xFFFF0003
  else if num = 0x430 then maskW v 0x3FF
  else if 0x431 ≤ num && decide (num ≤ 0x438) then maskW v 0x0000FFFF3FFFFFFF
  else if num = 0x440 then maskW v 1
  else if num = 0x450 then
    let f := fld v 8 8
    setFld (setBit old 0 (bit v 0)) 8 8 (if 32 ≤ f && decide (f ≤ 132) then f else fld old 8 8)
  else if num = 0x460 then maskW v 7
  else if num = 0xC10 then maskW v 3
  else v

/-- Is the state sync-required (R47)? -/
def syncReq (num : Nat) : Bool :=
  num == 3 || num == 0x410 || num == 0x411 || num == 0x420 || coreSync num || num == 0x460 || num == 0x810 || num == 0x811 || num == 0x812 || num == 0xC10

/-- What a change of VL does when its MTS retires (06 R144, R145): every LV register becomes zero and LVDIRTY 1; until the SYNCS a read may still give the content from before. -/
def Thread.zeroLv (th : Thread) : Thread := { th with lvOld := if th.lvWin then th.lvOld else th.lv, lvWin := true, lv := [] }

/-- FPFLAGS after an MTS (02 R45): a flag raised by an older instruction that is still executing stays set; which are is a free choice (notes/assumptions/98.md). -/
def State.fpflagsWritten (s : State) (t : Nat) (v : Word) : Word :=
  maskW v 0x3F ||| (BitVec.ofNat 64 ((s.thr t).fpRecent % 64) &&& Config.freeWord s.freeCtr 0x002)

/-- A write of system state by MTS. Shared core state that needs no SYNCS is seen by its writer at once and by the core's other threads after its SYNCS (02 R52). A write of BTBKEY discards the staged block (04 R106). -/
def State.sysWrite (s : State) (t num : Nat) (v : Word) : State :=
  let th := s.thr t
  let stop := s.stopOf t
  if num = 0x20 then s.updCore stop (fun c => { c with pmcCyc := smSet (fun _ => 0) c.pmcCyc (t % 4) v })
  else if num = 0x21 then s.updCore stop (fun c => { c with pmcRet := smSet (fun _ => 0) c.pmcRet (t % 4) v })
  else if 0x30 ≤ num && decide (num ≤ 0x37) then s.updCore stop (fun c => { c.hide num (t % 4) (smGet (fun _ => 0) c.pmc (num - 0x30)) with pmc := smSet (fun _ => 0) c.pmc (num - 0x30) v })
  else if num = 0x430 then s.updCore stop (fun c => { c.hide num (t % 4) c.pmuUserEn with pmuUserEn := sysWritten num th.pl true 0 v })
  else if num = 2 then s.updThr t (fun th => { th with fpflags := s.fpflagsWritten t v })
  else
    let old := s.latest t num
    let w0 := sysWritten num th.pl (Config.hasLv s.variant) old v
    let pmu := decide (0x431 ≤ num) && decide (num ≤ 0x438)
    -- S of PMU_CFGn from the Normal world needs SN or SI (19 R583)
    let w := if pmu && !th.secure && !s.dbgEnabled 1 then setBit w0 17 false else w0
    let s := if pmu then s.noteS (2 ^ 40 + 8 * stop + (num - 0x431)) th.secure (bit w 17) else s
    if num = 3 then
      let chg := fld w 0 6 != fld old 0 6
      let w1 := if chg then setBit w 8 true else w
      s.updThr t (fun th =>
        let th1 := if chg then th.zeroLv else th
        { th1 with pend := smSet (fun _ => []) th1.pend 3 (th1.pending 3 ++ [w1]) })
    else if syncReq num then
      let s1 := if num = 0x420 then s.dropStaged t else s
      s1.updThr t (fun th => { th with pend := smSet (fun _ => []) th.pend num (th.pending num ++ [w]) })
    else s.updThr t (fun th => th.setCommitted num w)

/-- SYS_ACCESS (R49). -/
def sysExc (num reg : Nat) : Exc := { code := 0x04, info := num, reg := reg }

/-- MFS (R46, R86). -/
def execMfs (t : Nat) (rd : Reg) (num : BitVec 12) (s : State) : Host.Outcome State Fault Refusal :=
  .next (runInstr t (fun _ => { enc := encS 0x30 rd num }) (fun s =>
    match s.sysCheck t num.toNat false with
    | .ok => .next (s.updThr t (fun th => { th.wE rd (s.sysRead t num.toNat) with fpRecent := if num = 2 then 0 else th.fpRecent }))
    | .fail => .trap s (sysExc num.toNat rd.toNat) false
    | .trap2 => .trap s (sysExc num.toNat rd.toNat) true) s)

/-- MTS (R46, R86); it ends loop capture (04 R107). -/
def execMts (t : Nat) (num : BitVec 12) (rs : Reg) (s : State) : Host.Outcome State Fault Refusal :=
  .next (runInstr t (fun _ => { enc := encS 0x31 rs num, ends := true }) (fun s =>
    match s.sysCheck t num.toNat true with
    | .ok => .next (s.sysWrite t num.toNat ((s.thr t).rE rs))
    | .fail => .trap s (sysExc num.toNat rs.toNat) false
    | .trap2 => .trap s (sysExc num.toNat rs.toNat) true) s)

/-! ### SYS (R87) -/

/-- Encoding of a SYS instruction without operands. -/
def encSys (fn : Nat) : BitVec 32 := encR 0x32 0 0 0 fn

/-- Completing a SYNCS (R50, R52; 04 R103, R118): every written value is the committed one; the trip counters become invalid, and the staged block and the loop buffer are discarded. -/
def State.syncs (s : State) (t : Nat) : State :=
  ((s.dropStaged t).syncThread t).updThr t (fun th => { th with lcnt := [], loopBuf := none })

/-- SYNCS (R50). -/
def execSyncs (t : Nat) (s : State) : Host.Outcome State Fault Refusal :=
  .next (runInstr t (fun _ => { enc := encSys 0, ends := true }) (fun s => .next (s.syncs t)) s)

/-- XRET (R55): PRIV_INSTR at level 0, ILLEGAL_RETURN where XSTAT may not be restored. -/
def execXret (t : Nat) (s : State) : Host.Outcome State Fault Refusal :=
  .next (runInstr t (fun s => { enc := encSys 1, priv := (s.thr t).pl != 0, ends := true }) (fun s =>
    let th := s.thr t
    if !xretOk th.pl th.secure (th.committed (excRegs th.pl + 2)) then .trap s { code := 0x05 } false
    else
      let s1 := (s.dropStaged t).returnExc t
      .goto s1 (s1.thr t).pc) s)

/-- WAIT (R87): the thread is suspended unless an interrupt is pending; a STEP exception then waits until it leaves. -/
def execWait (t : Nat) (s : State) : Host.Outcome State Fault Refusal :=
  .next (runInstr t (fun s => { enc := encSys 2, priv := (s.thr t).pl != 0, ends := true }) (fun s =>
    if s.irqPending t then .next s
    else .next ((s.updThr t (fun th => { th with waiting := true, waitStep := th.step })).coreDep (s.stopOf t))) s)

/-- WAIT_WAKE (R87; 16 R494): a suspended thread of a core that is on leaves WAIT when an interrupt for it is pending; a STEP exception due at the WAIT is taken first. -/
def execWaitWake (t : Nat) (s : State) : Host.Outcome State Fault Refusal :=
  .next (
    let p := s.stopOf t
    if (s.thr t).waiting && s.irqPending t && s.running && decide (t / 4 < s.activeCores) && s.clocked p && s.rf (a_STP_RAS_STAT p) f_STP_RAS_STAT_FROZEN == 0 then
      let step := (s.thr t).waitStep
      let s1 := (s.tick.updThr t (fun th => { th with waiting := false, waitStep := false })).coreDep (s.stopOf t)
      if step then s1.raise t { code := 0x0F } false else s1
    else s)

/-- A fence (R65): one with stores on its first side waits until every older store is written. Loads and Device accesses are performed in program order already. -/
def fenceOp (t fn : Nat) (stores : Bool) (s : State) : Host.Outcome State Fault Refusal :=
  .next (runInstr t (fun _ => { enc := encSys fn }) (fun s =>
    if stores then
      match s.drainAll t with
      | .ok s1 => .next s1
      | .wait s1 => .wait s1
    else .next s) s)

/-- FENCE.LL (R65). -/
def execFenceLl (t : Nat) (s : State) : Host.Outcome State Fault Refusal := fenceOp t 0x10 false s
/-- FENCE.LS (R65). -/
def execFenceLs (t : Nat) (s : State) : Host.Outcome State Fault Refusal := fenceOp t 0x11 false s
/-- FENCE.SL (R65). -/
def execFenceSl (t : Nat) (s : State) : Host.Outcome State Fault Refusal := fenceOp t 0x12 true s
/-- FENCE.SS (R65). -/
def execFenceSs (t : Nat) (s : State) : Host.Outcome State Fault Refusal := fenceOp t 0x13 true s
/-- FENCE.FULL (R65). -/
def execFenceFull (t : Nat) (s : State) : Host.Outcome State Fault Refusal := fenceOp t 0x14 true s
/-- FENCE.IO (R65). -/
def execFenceIo (t : Nat) (s : State) : Host.Outcome State Fault Refusal := fenceOp t 0x15 true s

/-- FENCE.FETCH (R65; 04 R106, R108): older stores and maintenance are visible to later fetches; staged blocks and the loop buffer are discarded. -/
def execFenceFetch (t : Nat) (s : State) : Host.Outcome State Fault Refusal :=
  .next (runInstr t (fun _ => { enc := encSys 0x16, ends := true }) (fun s =>
    match s.drainAll t with
    | .ok s1 => .next ((s1.dropStaged t).updThr t (fun th => { th with loopBuf := none }))
    | .wait s1 => .wait s1) s)

/-! ### SEND (11 R328) -/

/-- IPI_DROPPED. -/
def State.ipiDropped (s : State) (t vmid cause tgt id : Nat) : State :=
  s.hostEv 0x0302 0 797 vmid (t + cause * 2 ^ 16) (tgt % 2 ^ 16 + (id % 2 ^ 10) * 2 ^ 16)

/-- A virtual SEND (R328): through the VM table and the vCPU table to a posting record. -/
def State.sendVirt (s : State) (t vmid vcpu v : Nat) : State :=
  let drop (c : Nat) : State := s.ipiDropped t vmid c vcpu v
  let tab := s.reg a_IRT_VM
  if !bit (s.reg a_IRT_CTL) 0 || !bit tab 0 || decide (2 ^ fld tab 52 5 ≤ vmid) then drop 1
  else
    match s.entryAt (fld tab 12 40 * 4096 + 16 * vmid) with
    | none => drop 1
    | some (w0, w1) =>
      if fld w1 0 16 ≤ vcpu then drop 2
      else
        match s.rtrRead (fld w0 12 40 * 4096 + 8 * vcpu) with
        | none => drop 2
        | some e =>
          let addr := fld e 7 45 * 128
          if !bit e 0 then drop 2
          else
            match s.rtrRead addr with
            | none => drop 2
            | some r0 =>
              if fld r0 48 16 != vmid then drop 2
              else if s.vmidBlocked 4 vmid then drop 4
              else
                let (s1, ok) := s.postV addr vmid v
                if ok then s1 else s1.irtFault ⟨false, (Config.freeWord s.freeCtr 0x304).toNat % 2 ^ 20, v⟩ vmid 3 addr

/-- A physical SEND (R328): the Secure bank only from the Secure world. -/
def State.sendPhys (s : State) (t : Nat) (sec : Bool) (tgt id : Nat) : State :=
  if s.nThreads ≤ tgt then s.ipiDropped t (s.reqVmid t) 3 tgt id
  else if 192 ≤ id && !sec then
    (s.ipiDropped t (s.reqVmid t) 5 tgt id).secViol 784 (s.reqVmid t) 0 t 5 tgt
  else s.raisePhys tgt id

/-- SEND (R87; 11 R328): performed after every older store is visible. -/
def execIsend (t : Nat) (ra rb : Reg) (s : State) : Host.Outcome State Fault Refusal :=
  .next (runInstr t (fun s => { enc := encR 0x32 0 ra rb 0x20, priv := (s.thr t).pl != 0, reg := ra.toNat }) (fun s =>
    let th := s.thr t
    let a := th.rE ra
    let b := th.rE rb
    match s.drainAll t with
    | .wait s1 => .wait s1
    | .ok s1 =>
      .next (if s.guest t then s1.sendVirt t (s.vmid t) (fld a 0 16) (fld b 0 10)
        else if th.pl = 2 && bit a 63 then s1.sendVirt t (fld a 32 16) (fld a 0 16) (fld b 0 10)
        else s1.sendPhys t th.secure (fld a 0 10) (fld b 0 8))) s)

/-! ### TRAP (R88) -/

/-- A trap instruction: the call or debug exception of its kind (R59). -/
def trapOp (t kind code : Nat) (next : Bool) (imm : BitVec 16) (priv : State → Bool) (s : State) : Host.Outcome State Fault Refusal :=
  .next (runInstr t (fun s => { enc := encI 0x33 (BitVec.ofNat 5 kind) 0 imm, priv := priv s, ends := true })
    (fun s => .trap s { code := code, info := imm.toNat, xpcNext := next } false) s)

/-- SYSCALL (R88). -/
def execSyscall (t : Nat) (imm : BitVec 16) (s : State) : Host.Outcome State Fault Refusal := trapOp t 0 0x08 true imm (fun _ => true) s
/-- HYPCALL (R88, R56): PRIV_INSTR at level 0, in the Secure world, or while VMEN is 0. -/
def execHypcall (t : Nat) (imm : BitVec 16) (s : State) : Host.Outcome State Fault Refusal :=
  trapOp t 1 0x09 true imm (fun s => (s.thr t).pl != 0 && !(s.thr t).secure && s.vmen t) s
/-- MONCALL (R88, R56): PRIV_INSTR at level 0. -/
def execMoncall (t : Nat) (imm : BitVec 16) (s : State) : Host.Outcome State Fault Refusal := trapOp t 2 0x0A true imm (fun s => (s.thr t).pl != 0) s
/-- BREAK (R88). -/
def execIbreak (t : Nat) (imm : BitVec 16) (s : State) : Host.Outcome State Fault Refusal := trapOp t 3 0x0C false imm (fun _ => true) s

end Sys2Proof.Machine
end

