-- ==== Sys2Proof/Machine/Cmo.lean ====
section
/-! DEFINITION. Cache maintenance instructions (spec/03_instruction_set.md R89; spec/07_caches.md R181–R188). -/
namespace Sys2Proof.Machine

/-- The three operations (07 R181). -/
inductive CmoKind where
  | c | i | ci
  deriving DecidableEq, Repr

/-- FN of the by-address form. -/
def CmoKind.fn : CmoKind → Nat
  | .c => 0 | .i => 1 | .ci => 2
/-- Permission the operation checks (R89): an invalidate checks write, the others read. -/
def CmoKind.acc : CmoKind → AccKind
  | .c => .clean | .i => .inval | .ci => .clean

/-- A guest's invalidate is performed as clean and invalidate (07 R183). -/
def State.cmoKind (s : State) (t : Nat) (k : CmoKind) : CmoKind := if k = .i && s.guest t then .ci else k

/-- The memory system after maintenance of one line for a thread (07 R181, R183), with its messages. -/
def State.cmoCoh (s : State) (t : Nat) (k : CmoKind) (line : Nat) : Coh :=
  let home := s.homeOf line
  let c0 := (s.coh.hops [(s.stopOf t, home, 1), (home, s.stopOf t, 1)]).count evCmo home 0 (64 * line)
  let c := match s.coh.de line with | some e => c0.noteSnoops home line (s.cmoKind t k != CmoKind.i) e.holders | none => c0
  let cls := s.clsOf t
  match s.cmoKind t k with
  | .c => c.cleanLine s.env line cls
  | .i => c.invalLine s.env line
  | .ci => (c.cleanLine s.env line cls).invalLine s.env line

/-- One line at its home (07 R181, R183, R185): `none` while the line is busy or in a hold window, a message cannot cross or memory not serve. -/
def State.cmoLine (s : State) (t : Nat) (k : CmoKind) (sec : Bool) (pa : Nat) : Option State :=
  let line := pa / 64
  if !s.isMem pa then some s
  else if !sec && s.lineSec line then some (s.coreViol t 4 (64 * line))
  else if s.coh.blocked line then none
  else s.tryCoh (s.cmoCoh t k line) (s.rqrOf t) .write
/-- Maintenance that has to wait asks for what it needs. -/
def State.askCmo (s : State) (t : Nat) (k : CmoKind) (pa : Nat) : State := if s.coh.blocked (pa / 64) then s else s.askCoh (s.cmoCoh t k (pa / 64))

/-- Faults of a maintenance operation by address or range (R89, 02 R58): SIZE 6. -/
def cmoExc (k : CmoKind) (reg code info : Nat) (va : Word) : Exc :=
  { code := code, addrValid := true, wnr := k == .i, size := 6, reg := reg, info := info, addr := va }

/-- Translate and check one address; Device memory raises MEM_TYPE (07 R184). -/
def State.cmoXl (s : State) (t : Nat) (k : CmoKind) (reg : Nat) (va : Word) : Except (State × Exc) (State × Xl) :=
  match s.translate t va k.acc with
  | .error (f, w) => .error (s.walkLeft t w, { f.exc k.acc va 6 reg with wnr := if f.table then (f.exc k.acc va 6 reg).wnr else k == .i })
  | .ok (x, w) =>
    let s1 := s.walkLeft t w
    if s1.memType x = 2 then .error (s1, cmoExc k reg 0x24 2 va)
    else if s1.paKind x.pa = .unmapped then .error (s1, cmoExc k reg 0x23 0 va)
    else .ok (s1.commitXl t k.acc x, x)

/-- CMO by address (R89). -/
def cmoOp (t : Nat) (ra : Reg) (k : CmoKind) (s : State) : Host.Outcome State Fault Refusal :=
  .next (runInstr t (fun s => { enc := encR 0x34 0 ra 0 k.fn, priv := k != .i || (s.thr t).pl != 0, ends := true, reg := ra.toNat }) (fun s =>
    match s.cmoXl t k ra.toNat ((s.thr t).rE ra) with
    | .error (s1, e) => .trap s1 e false
    | .ok (s1, x) =>
      match s1.drainAll t with
      | .wait s2 => .wait s2
      | .ok s2 =>
        match s2.cmoLine t k x.sec x.pa with
        | none => .wait (s2.askCmo t k x.pa)
        | some s3 => .next s3) s)

/-- Lines of physical range [pa, pa + n). -/
def linesIn (pa n : Nat) : List Nat := (List.range ((pa + n - 1) / 64 + 1 - pa / 64)).map (fun i => pa / 64 + i)

/-- Every line of one 4 KiB step; the line that has to wait, if one has. -/
def cmoStep (t : Nat) (k : CmoKind) (sec : Bool) : List Nat → State → Except Nat State
  | [], s => .ok s
  | l :: r, s =>
    match s.cmoLine t k sec (64 * l) with
    | none => .error l
    | some s1 => cmoStep t k sec r s1

/-- The progress of a range operation (07 R186): the first address not yet processed in Ea and the remaining length in Eb. -/
def Thread.rangeLeft (th : Thread) (ra rb : Reg) (va : Word) (len : Nat) : Thread := (th.wE ra va).wE rb (BitVec.ofNat 64 len)

/-- A range in 4 KiB steps (07 R186): a fault in a step, or an event recognised before the end of step `upto`, leaves the progress in Ea and Eb. A range that has to wait for a line starts over with what it found. -/
def cmoRange (t : Nat) (ra rb : Reg) (k : CmoKind) (upto : Option Nat) (s0 : State) : Nat → Nat → Word → Nat → State → Eff
  | 0, _, _, _, s => .next s
  | f + 1, i, va, len, s =>
    if len = 0 then .next s
    else if upto.map (max 1) = some i then .stop (s.updThr t (·.rangeLeft ra rb va len))
    else
      let n := min len (4096 - va.toNat % 4096)
      match s.cmoXl t k ra.toNat va with
      | .error (s1, e) => .trap (s1.updThr t (·.rangeLeft ra rb va len)) e false
      | .ok (s1, x) =>
        match cmoStep t k x.sec (linesIn x.pa n) s1 with
        | .error l => .wait (s0.askCmo t k (64 * l))
        | .ok s2 => cmoRange t ra rb k upto s0 f (i + 1) (va + BitVec.ofNat 64 n) (len - n) s2

/-- CMO.RANGE (R89; 07 R186). -/
def cmoRangeOp (t : Nat) (ra rb : Reg) (k : CmoKind) (upto : Option Nat) (s : State) : Host.Outcome State Fault Refusal :=
  .next (runInstr t (fun s => { enc := encR 0x34 0 ra rb (0x10 + k.fn), alloc := rangeOk ra rb, priv := k != .i || (s.thr t).pl != 0, ends := true, reg := ra.toNat }) (fun s =>
    match s.drainAll t with
    | .wait s1 => .wait s1
    | .ok s1 =>
      let len := ((s.thr t).rE rb).toNat
      cmoRange t ra rb k upto s (len / 4096 + 2) 0 ((s.thr t).rE ra) len s1) s)

/-- Is a set/way form permitted (R89)? -/
def State.swOk (s : State) (t : Nat) : Bool :=
  let th := s.thr t
  if th.secure then decide (1 ≤ th.pl) else if s.vmen t then decide (2 ≤ th.pl) else decide (1 ≤ th.pl)

/-- A set/way operation on a private slot (07 R187, R188). -/
def State.swPrivate (s : State) (t level set way : Nat) (k : CmoKind) : Option State :=
  let stop := s.stopOf t
  let sets := if level = 0 then 128 else if level = 1 then 256 else 2048
  let ways := if level = 0 then 8 else if level = 1 then 4 else 16
  let dis := s.waysOff level stop
  if sets ≤ set || ways ≤ way || dis.testBit way then some s
  else
    match s.coh.slotLine stop level set way with
    | none => some s
    | some (line, p) =>
      if (s.coh.txn line).isSome then none
      else
        let k' := if k = .i && !(s.thr t).secure && p.sec then .ci else s.cmoKind t k
        let c := if k' != .i && level != 1 && p.st.dirty then s.coh.cleanLine s.env line (s.clsOf t) else s.coh
        let c1 := if k' = .c then c else match c.pl stop line with | some q => c.invalSlot stop level line q | none => c
        s.tryCoh c1 (s.rqrOf t) .write

/-- A set/way operation on an LLC slot (07 R188): private copies are left untouched. -/
def State.swLlc (s : State) (t slice set way : Nat) (k : CmoKind) : State :=
  if 384 ≤ set || 16 ≤ way || 224 ≤ slice || (s.waysOff 3 slice).testBit way then s
  else
    match (s.coh.blocksOf slice set).find? (fun b => b.2.way == way) with
    | none => s
    | some (blk, b) =>
      let k' := if k = .i && !(s.thr t).secure && (b.valid &&& b.sec) != 0 then .ci else s.cmoKind t k
      let c := if k' = .i then s.coh else [0, 1, 2, 3].foldl (Coh.flushSector s.env blk (s.clsOf t) b) s.coh
      let gone (c : Coh) : Coh := ([0, 1, 2, 3].filter (fun i => b.valid.getLsbD i)).foldl (fun c i => c.countQuoin s.env b (4 * blk + i)) (c.setBlk blk none)
      let c1 := if k' = .c then c.setBlk blk (some { b with dirty := 0 }) else gone c
      ({ s with coh := c1 }).drainEvs (s.rqrOf t) .write

/-- CMO.SW (R89; 07 R187). -/
def cmoSwOp (t : Nat) (ra : Reg) (k : CmoKind) (s : State) : Host.Outcome State Fault Refusal :=
  .next (runInstr t (fun s => { enc := encR 0x34 0 ra 0 (0x20 + k.fn), priv := s.swOk t, ends := true, reg := ra.toNat }) (fun s =>
    let a := (s.thr t).rE ra
    let level := fld a 0 2
    match s.drainAll t with
    | .wait s1 => .wait s1
    | .ok s1 =>
      if level = 3 then .next (s1.swLlc t (fld a 20 8) (fld a 8 11) (fld a 4 4) k)
      else match s1.swPrivate t level (fld a 8 11) (fld a 4 4) k with
        | none => .wait s1
        | some s2 => .next s2) s)

/-- CMO.C (R89). -/
def execCmoC (t : Nat) (ra : Reg) (s : State) : Host.Outcome State Fault Refusal := cmoOp t ra .c s
/-- CMO.I (R89). -/
def execCmoI (t : Nat) (ra : Reg) (s : State) : Host.Outcome State Fault Refusal := cmoOp t ra .i s
/-- CMO.CI (R89). -/
def execCmoCi (t : Nat) (ra : Reg) (s : State) : Host.Outcome State Fault Refusal := cmoOp t ra .ci s
/-- CMO.RANGE.C (R89). -/
def execCmoRangeC (t : Nat) (ra rb : Reg) (s : State) (upto : Option Nat := none) : Host.Outcome State Fault Refusal := cmoRangeOp t ra rb .c upto s
/-- CMO.RANGE.I (R89). -/
def execCmoRangeI (t : Nat) (ra rb : Reg) (s : State) (upto : Option Nat := none) : Host.Outcome State Fault Refusal := cmoRangeOp t ra rb .i upto s
/-- CMO.RANGE.CI (R89). -/
def execCmoRangeCi (t : Nat) (ra rb : Reg) (s : State) (upto : Option Nat := none) : Host.Outcome State Fault Refusal := cmoRangeOp t ra rb .ci upto s
/-- CMO.SW.C (R89). -/
def execCmoSwC (t : Nat) (ra : Reg) (s : State) : Host.Outcome State Fault Refusal := cmoSwOp t ra .c s
/-- CMO.SW.I (R89). -/
def execCmoSwI (t : Nat) (ra : Reg) (s : State) : Host.Outcome State Fault Refusal := cmoSwOp t ra .i s
/-- CMO.SW.CI (R89). -/
def execCmoSwCi (t : Nat) (ra : Reg) (s : State) : Host.Outcome State Fault Refusal := cmoSwOp t ra .ci s

end Sys2Proof.Machine
end

