-- ==== Sys2Proof/Machine/VecMem.lean ====
section
/-! DEFINITION. Vector memory instructions: VLS, gathers and scatters (spec/03_instruction_set.md R95, R96; spec/06_vectors.md R156–R168). -/
namespace Sys2Proof.Machine

/-- A vector memory instruction with its operands read: thread, LONG, VD, element size in bytes, element count, addresses by element, activity by element, and the element boundary at which an event of the thread was recognised, if it can be interrupted (R157, R166). -/
structure VMem where
  t : Nat
  long : Bool
  vd : Reg
  esz : Nat
  n : Nat
  addr : Nat → Word
  act : Nat → Bool
  upto : Option Nat

/-- The access of one element (R158, R162): vector accesses to Device memory are wide. -/
def VMem.acc (v : VMem) (i : Nat) (st : Bool) : Acc := ⟨v.t, v.addr i, v.esz, if st then .store else .load, v.vd.toNat, true, true⟩

/-- Do the lanes of VD hold data lane i (R96)? A data lane beyond the register does not exist. -/
def VMem.hasLane (v : VMem) (len i : Nat) : Bool := decide (8 * v.esz * (i + 1) ≤ len)

/-- Where a run over elements ended: complete, at an element that raises an exception, at the boundary before an element, or at one that has to wait. -/
inductive VRun where
  | done (s : State)
  | exc (s : State) (k : Nat) (e : Exc)
  | stop (s : State) (k : Nat)
  | wait (s : State)

/-- Set VPROG (R163–R165). -/
def Thread.setVprog (th : Thread) (k : Nat) : Thread := { th with vprog := BitVec.ofNat 64 (k % 256) }

/-- First element performed (R164). -/
def State.vprogOf (s : State) (t : Nat) : Nat := fld (s.thr t).vprog 0 8

/-- The element before which the instruction stops: at least one element is committed first (R166). -/
def VMem.stopAt (v : VMem) (k : Nat) : Option Nat := v.upto.map (max (k + 1))

/-- Elements committed in index order from element i (R165): `one` performs an element. -/
def vmemGo (one : Nat → State → AccR) (put : Nat → List Byte → State → State) (act : Nat → Bool) (stopAt : Option Nat) : Nat → Nat → State → VRun
  | 0, _, s => .done s
  | f + 1, i, s =>
    if stopAt = some i then .stop s i
    else if act i then
      match one i s with
      | .ok s1 bs => vmemGo one put act stopAt f (i + 1) (put i bs s1)
      | .exc s1 e => .exc s1 i e
      | .wait s1 => .wait s1
    else vmemGo one put act stopAt f (i + 1) s

/-- Write a loaded element into its lane. An LV write sets LVDIRTY at each lane, so that a load that faults after committing lanes has set it and one with no active element has not (06 R143 speaks of the retired instruction alone; DESIGN CHOICE, notes/assumptions/100.md). -/
def VMem.putLane (v : VMem) (i : Nat) (bs : List Byte) (s : State) : State :=
  if v.hasLane (s.vlen v.t v.long) i then
    s.updThr v.t (fun th => th.wVec v.long v.vd (setLane (s.rVec v.t v.long v.vd) (8 * v.esz) i (leVal bs)))
  else s

/-- Bytes of data lane i of VD; a lane the register does not have gives bytes the spec does not state (notes/assumptions/6.md). -/
def VMem.laneBytes (v : VMem) (s : State) (i : Nat) : List Byte :=
  leBytes v.esz (if v.hasLane (s.vlen v.t v.long) i then lane (s.rVec v.t v.long v.vd) (8 * v.esz) i else (Config.freeWord s.freeCtr (0x600 + i)).toNat)

/-- One element of a far gather read by its home slice (R159; 08 R222 GatherReq): uncached memory and addresses outside memory run near. -/
def State.farPiece (s : State) (r : Acc) (p : Piece) : AccR :=
  if (p.kind == .mem || p.kind == .cxl) && p.ty == 0 then
    if !p.x.sec && s.lineSec p.line then .ok (s.coreViol r.t 1 p.x.pa) (leBytes p.n 0)
    else if (s.coh.txn p.line).isSome || s.coh.queued p.line then .wait s
    else
      let home := s.homeOf p.line
      let c := match (s.coh.de p.line).bind (·.owner) with
        | some b => s.coh.hops [(home, b, 1), (b, home, 2), (b, home, 1)]
        | none => s.coh.homeFill s.env p.line (s.env.secLine p.line) (s.clsOf r.t) (s.stopOf r.t)
      match s.tryCoh c (s.rqrOf r.t) .read with
      | none => .wait (s.askCoh c)
      | some s1 =>
        let (d, po) := s1.coh.current s1.env p.line
        if po then .exc s1 (r.abort 0x30 0 p.va p.second) else .ok s1 (bytesOf d p.x.pa p.n)
  else s.loadPiece r p

/-- Pieces of a far element in order. -/
def State.farPieces (r : Acc) : List Piece → State → AccR
  | [], s => .ok s []
  | p :: ps, s =>
    match s.farPiece r p with
    | .ok s1 bs =>
      match State.farPieces r ps s1 with
      | .ok s2 cs => .ok s2 (bs ++ cs)
      | x => x
    | x => x

/-- A far element: the checks of a load, then the home's data. -/
def State.farElem (s : State) (r : Acc) : AccR :=
  match s.check r with
  | .exc s1 e => .exc s1 e
  | .ok s1 ps => State.farPieces r ps s1

/-- Checked pieces of an element in the state the instruction starts from; none when a check fails. -/
def VMem.pieces (v : VMem) (s : State) (i : Nat) : Option (List Piece) :=
  match s.check (v.acc i false) with
  | .ok _ ps => some ps
  | .exc _ _ => none

/-- The active elements from k on that are performed: those below the boundary at which the instruction stops and below the first whose checks fail. -/
def VMem.reached (v : VMem) (s : State) (k : Nat) : List Nat :=
  ((List.range v.n).filter (fun i => decide (k ≤ i) && v.act i && (v.stopAt k).all (fun j => decide (i < j)))).takeWhile (fun i => (v.pieces s i).isSome)

/-- Their pieces in write-back memory, in order. -/
def VMem.cached (v : VMem) (s : State) (k : Nat) : List Piece :=
  ((v.reached s k).flatMap (fun i => (v.pieces s i).getD [])).filter (fun p => (p.kind == .mem || p.kind == .cxl) && p.ty == 0)

/-- Home slices of those pieces, by piece, for GATHER_FAR_REQ (R159 step 3). -/
def VMem.slices (v : VMem) (s : State) (k : Nat) : List Nat := (v.cached s k).filterMap (fun p => (s.homeLoc p.line).map (·.slice))

/-- One line access of a near load (R158): when an older store overlaps the bytes wanted without covering them, the access waits until it is written and LD_STALL_PARTIAL_FWD counts once (04 R116). -/
def State.lineLoad (t : Nat) (s : State) (line : Nat) (want : List Nat) : DrainR :=
  match forwardBytes (s.thr t).stores want with
  | .partly k => match State.drainTo t k (s.thr t).storeFuel s with
    | .ok s1 => .ok (s1.countThr t 0x010 .read (some (64 * line)) 1)
    | .wait s1 => .wait s1
  | _ => .ok s

/-- The line accesses of a near load, one for each line its performed elements touch (R158). -/
def VMem.lineLoads (v : VMem) (s : State) (k : Nat) : DrainR :=
  let ps := (v.cached s k).filter (fun p => p.x.sec || !s.lineSec p.line)
  ((ps.map (·.line)).dedup).foldl (fun o l => match o with
    | .ok s => State.lineLoad v.t s l ((ps.filter (fun p => p.line == l)).flatMap (fun p => (List.range p.n).map (p.x.pa + ·)))
    | .wait s => .wait s) (.ok s)

/-- Requests a far gather sends: one for each 16 elements or fewer of a slice. -/
def farReqs (l : List Nat) : Nat := (l.dedup.map (fun x => (l.count x + 15) / 16)).sum

/-- Messages of a far gather: a request and a packed response for each 16 elements or fewer of a slice (R159, 08 R201). -/
def gatherHops (stop esz : Nat) (l : List Nat) : List (Nat × Nat × Nat) :=
  l.dedup.flatMap (fun x => (List.range ((l.count x + 15) / 16)).flatMap (fun j => [(stop, x, 1), (x, stop, 1 + (min 16 (l.count x - 16 * j) * esz + 63) / 64)]))

/-- Distinct 64-byte lines the remaining active elements touch, by virtual address (R160). -/
def VMem.lines (v : VMem) (k : Nat) : List Nat :=
  ((List.range v.n).flatMap (fun i =>
    if k ≤ i && v.act i then [(v.addr i).toNat / 64, (v.addr i + BitVec.ofNat 64 (v.esz - 1)).toNat / 64] else [])).dedup

/-- The vector registers as an earlier state of the thread has them. -/
def Thread.vecOf (th th0 : Thread) : Thread := { th with sv := th0.sv, lv := th0.lv, lvOld := th0.lvOld, vcfg := th0.vcfg }

/-- End of a vector memory instruction (R164–R166): VPROG, and the counts of one that retires. One that stops part-way keeps its PC. One that waits for an element has committed none yet: its lanes are as `s0` has them (R157, R165). -/
def VMem.finish (v : VMem) (codes : List Nat) (a : AccCls) (s0 : State) (r : VRun) : Eff :=
  match r with
  | .wait s => .wait (s.updThr v.t (fun th => th.vecOf (s0.thr v.t)))
  | .exc s k e => .trap (s.updThr v.t (·.setVprog k)) e false
  | .stop s k => .stop (s.updThr v.t (fun th => { th.setVprog k with midVec := true }))
  | .done s => .next (codes.foldl (fun s c => s.countThr v.t c a none 1) (s.updThr v.t (fun th => { th.setVprog 0 with midVec := false })))

/-- Performs a vector load near. -/
def VMem.loadNear (v : VMem) (s : State) : VRun :=
  let k := s.vprogOf v.t
  match v.lineLoads s k with
  | .wait s1 => .wait s1
  | .ok s1 => vmemGo (fun i s => s.load (v.acc i false)) v.putLane v.act (v.stopAt k) (v.n - k) k s1

/-- One element of a store into the store buffer: a scatter's as an entry of its own (R162), a VLS store's joined to the entry that the instruction's first element made when the buffer held `len` entries (R156). -/
def State.bufferElem (s : State) (t : Nat) (vls : Option Nat) (parts : List StorePart) : State :=
  match vls with
  | none => s.bufferStore t parts
  | some len =>
    if (s.thr t).stores.length ≤ len then s.bufferStore t parts
    else s.updThr t (fun th => { th with stores := th.stores.take len ++ ((th.stores.drop len).take 1).map (fun e => { e with parts := parts.foldl (fun l p => joinPart p l) e.parts }) })

/-- One element of a vector store. -/
def VMem.storeElem (v : VMem) (vls : Option Nat) (i : Nat) (s : State) : AccR :=
  match s.storeParts (v.acc i true) (v.laneBytes s i) false with
  | .ok s1 parts => .ok (s1.bufferElem v.t vls parts) []
  | .exc s1 e => .exc s1 e
  | .wait s1 => .wait s1

/-- Performs a vector store or a scatter: element i enters the store buffer as it is committed (R162). -/
def VMem.store (v : VMem) (vls : Bool) (s : State) : VRun :=
  let k := s.vprogOf v.t
  let len := if vls then some (s.thr v.t).stores.length else none
  vmemGo (v.storeElem len) (fun _ _ s => s) v.act (v.stopAt k) (v.n - k) k s

/-- The state after translating one address, with its walks. -/
def State.walked (s : State) (t : Nat) (va : Word) : State :=
  match s.translate t va .load with
  | .error (_, w) => s.walkLeft t w
  | .ok (_, w) => s.walkLeft t w

/-- Translate the address of every active element from k on, and of its second half where it crosses a line (R159 step 2). -/
def VMem.translateAll (v : VMem) (s : State) (k : Nat) : State :=
  (List.range v.n).foldl (fun s i =>
    if k ≤ i && v.act i then
      let s1 := s.walked v.t (v.addr i)
      let h := firstHalf (v.addr i) v.esz
      if h = v.esz then s1 else s1.walked v.t (v.addr i + BitVec.ofNat 64 h)
    else s) s

/-- Performs a far gather (R159): older stores are written first, every active element is translated, and requests go out for the elements below the first whose checks fail. They are noted and counted once, when no element has to wait. -/
def VMem.loadFar (v : VMem) (s : State) : VRun :=
  match s.drainAll v.t with
  | .wait s0 => .wait s0
  | .ok sd =>
    let k := sd.vprogOf v.t
    let s0 := v.translateAll sd k
    let go (s : State) : VRun := vmemGo (fun i s => s.farElem (v.acc i false)) v.putLane v.act (v.stopAt k) (v.n - k) k s
    let q := farReqs (v.slices s0 k)
    let c := s0.coh.hops (gatherHops (s0.stopOf v.t) v.esz (v.slices s0 k))
    match s0.tryCoh c (s0.rqrOf v.t) .read with
    | none => .wait (s0.askCoh c)
    | some s1 =>
      match go s0 with
      | .wait s2 => .wait s2
      | _ => go (if q = 0 then s1 else s1.countThr v.t 0x017 .read none q)

/-- Operands of a VLS (R95). -/
def vlsMem (t : Nat) (long : Bool) (vd ra rb : Reg) (mask : BitVec 3) (esize : BitVec 2) (upto : Option Nat) (s : State) : VMem :=
  let th := s.thr t
  let esz := 2 ^ esize.toNat
  let m := s.rMask t mask
  { t := t, long := long, vd := vd, esz := esz, n := s.vlen t long / (8 * esz), act := fun i => m.getLsbD i,
    upto := if rb = 0 then none else upto
    addr := fun i => if rb = 0 then th.rE ra + BitVec.ofNat 64 (i * esz) else th.rE ra + BitVec.ofNat 64 i * th.rE rb }

/-- Operands of a gather or scatter (R96). -/
def vgMem (t : Nat) (long : Bool) (vd ra vidx : Reg) (mask : BitVec 3) (scale esize : BitVec 2) (idx64 : Bool) (upto : Option Nat) (s : State) : VMem :=
  let th := s.thr t
  let iw := if idx64 then 64 else 32
  let m := s.rMask t mask
  let ix := s.rVec t long vidx
  { t := t, long := long, vd := vd, esz := 2 ^ esize.toNat, n := s.vlen t long / iw, act := fun i => m.getLsbD i, upto := upto,
    addr := fun i => th.rE ra + ((BitVec.ofNat iw (lane ix iw i)).signExtend 64 <<< scale.toNat) }

/-- VLS load (R95, R156). -/
def execVlsLoad (t : Nat) (long : Bool) (vd ra rb : Reg) (mask : BitVec 3) (esize : BitVec 2) (s : State) (upto : Option Nat := none) : Host.Outcome State Fault Refusal :=
  .next (runInstr t (fun _ => { enc := encVM vd ra rb mask esize false long, alloc := vOk long vd, lv := long })
    (fun s => let v := vlsMem t long vd ra rb mask esize upto s; v.finish [0x002] .read s (v.loadNear s)) s)

/-- VLS store (R95, R156). -/
def execVlsStore (t : Nat) (long : Bool) (vd ra rb : Reg) (mask : BitVec 3) (esize : BitVec 2) (s : State) (upto : Option Nat := none) : Host.Outcome State Fault Refusal :=
  .next (runInstr t (fun _ => { enc := encVM vd ra rb mask esize true long, alloc := vOk long vd, lv := long })
    (fun s => let v := vlsMem t long vd ra rb mask esize upto s; v.finish [0x003] .write s (v.store true s)) s)

/-- VGATHER (R96, R158–R161): FAR by hint, or by AUTO when more than eight lines are touched. -/
def execVgather (t : Nat) (long : Bool) (vd ra vidx : Reg) (mask : BitVec 3) (scale hint esize : BitVec 2) (idx64 : Bool) (s : State) (upto : Option Nat := none) : Host.Outcome State Fault Refusal :=
  .next (runInstr t (fun _ => { enc := encVG long vd ra vidx mask scale hint esize idx64 false, alloc := gatherOk long vd vidx hint, lv := long })
    (fun s =>
      let v := vgMem t long vd ra vidx mask scale esize idx64 upto s
      let far := hint == 2 || (hint == 0 && decide (8 < (v.lines (s.vprogOf t)).length))
      v.finish [0x002, if far then 0x016 else 0x015] .read s (if far then v.loadFar s else v.loadNear s)) s)

/-- VSCATTER (R96, R162). -/
def execVscatter (t : Nat) (long : Bool) (vd ra vidx : Reg) (mask : BitVec 3) (scale hint esize : BitVec 2) (idx64 : Bool) (s : State) (upto : Option Nat := none) : Host.Outcome State Fault Refusal :=
  .next (runInstr t (fun _ => { enc := encVG long vd ra vidx mask scale hint esize idx64 true, alloc := vOk long vd && vOk long vidx, lv := long })
    (fun s => let v := vgMem t long vd ra vidx mask scale esize idx64 upto s; v.finish [0x003] .write s (v.store false s)) s)

end Sys2Proof.Machine
end

