-- ==== Sys2Proof/Machine/Coherence.lean ====
section
/-! DEFINITION. Coherence requests, snoops and responses as commands (spec/08_mesh_coherence.md R206–R237; spec/07_caches.md R173, R185, R189; spec/06_vectors.md R159). A request names the thread, or the I/O agent, that sends it; a message in flight is named by its receiver (or, towards a home, its sender) and line. -/
namespace Sys2Proof.Machine

/-- RDSHARED (R222): a load miss, or with `pf` a hardware prefetch into L2 (07 R174). -/
def execRdshared (t line : Nat) (sec : Bool) (s : State) (pf : Bool := false) : Host.Outcome State Fault Refusal := .next (s.tick.coreReq t line sec .rdShared (if pf then .prefetch else .read) pf)
/-- RDCODE (R222): an instruction fetch miss. -/
def execRdcode (t line : Nat) (sec : Bool) (s : State) : Host.Outcome State Fault Refusal := .next (s.tick.coreReq t line sec .rdCode .ifetch false)
/-- RDOWN (R222): a store or near-atomic miss. -/
def execRdown (t line : Nat) (sec : Bool) (s : State) : Host.Outcome State Fault Refusal := .next (s.tick.coreReq t line sec .rdOwn .write false)
/-- UPGRADE (R222): ownership of a line held. -/
def execUpgrade (t line : Nat) (sec : Bool) (s : State) : Host.Outcome State Fault Refusal := .next (s.tick.coreReq t line sec .upgrade .write false)

/-- The VMID of a stream's context (10 R299), or 0 when it has none. -/
def State.streamVmid (s : State) (stream : Nat) : Nat := match (s.ctxOf stream).2 with | .ok c => c.vmid | .error _ => 0

/-- A request of an I/O agent (numbers 224–255, R216); the device's traffic class is that of its stream, here the class given. -/
def State.agentReq (s : State) (rq : HomeReq) (a : AccCls) (sec : Bool) (stream : Nat) : State :=
  if rq.req < 224 || 256 ≤ rq.req || !s.isMem (64 * rq.line) then s
  else if !sec && s.lineSec rq.line then
    s.secViol (448 + s.homeOf rq.line) (s.streamVmid stream) 1 stream (if rq.kind = .rdCur then 1 else 2) (64 * rq.line)
  else s.sendReq { rq with sec := sec } (if rq.kind = .rdCur then 1 else 2) { stream := some stream } a

/-- RDCUR (R222): an agent reads the current value and keeps no copy. -/
def execRdcur (agent line : Nat) (sec : Bool) (cls stream : Nat) (s : State) : Host.Outcome State Fault Refusal :=
  .next (s.tick.agentReq (mkReq .rdCur agent line false (cls % 64) 0) .read sec stream)
/-- WRLINE (R222): a full-line write of an agent; its data carry a poison mark (R206). -/
def execWrline (agent line : Nat) (sec : Bool) (cls stream : Nat) (data : BitVec 512) (s : State) (poison : Bool := false) : Host.Outcome State Fault Refusal :=
  .next (s.tick.agentReq { mkReq .wrLine agent line false (cls % 64) 0 with data := data, mask := fullMask, poison := poison } .write sec stream)
/-- WRPART (R222): a partial write of an agent; its data carry a poison mark (R206). -/
def execWrpart (agent line : Nat) (sec : Bool) (cls stream : Nat) (data : BitVec 512) (mask : BitVec 64) (s : State) (poison : Bool := false) : Host.Outcome State Fault Refusal :=
  .next (s.tick.agentReq { mkReq .wrPart agent line false (cls % 64) 0 with data := data, mask := mask, poison := poison } .write sec stream)

/-- Bytes of an atomic's size code. -/
def atomBytes (size : Nat) : Nat := if size = 0 then 4 else if size = 1 then 8 else 16

/-- ATOMFAR (R232): a far atomic of thread t at virtual address va, whose low six bits are the offset in the line, for register rd; `auto` when its HINT is AUTO. The operand is naturally aligned. A Normal request to a Secure line changes nothing and is answered with zero (15 R458). -/
def execAtomfar (t line : Nat) (sec : Bool) (va : BitVec 64) (rd : Reg) (atop size : Nat) (operand cmp : BitVec 128) (auto : Bool) (s : State) : Host.Outcome State Fault Refusal :=
  let s0 := s.tick
  let off := va.toNat % 64
  let bad := 10 < atop || 2 < size || off % atomBytes size != 0
  .next (if bad || !s0.canRun t || !s0.isMem (64 * line) || !(s0.thr t).stores.isEmpty then s0
    else if !sec && s0.lineSec line then
      let s1 := s0.coreViol t 2 (64 * line + off)
      { s1 with coh := s1.coh.send { mkMsg .atomResp (s0.homeOf line) (s0.stopOf t) line (s0.stopOf t) with
          thread := t, elems := [(rd.toNat, auto.toNat), (size, va.toNat)] } }
    else s0.sendReq { mkReq .atomFar (s0.stopOf t) line sec (s0.clsOf t) t with
        atom := ⟨atop, size, off, operand, cmp⟩, elems := [rd.toNat, auto.toNat, va.toNat] } 1 (s0.rqrOf t) .atomic)

/-- A request of a kind for a line is not already on its way from a stop, nor its data being pulled. -/
def State.quietEvict (s : State) (k : ReqKind) (stop line : Nat) : Bool :=
  s.coh.msgs.all (fun m => !((m.kind == .wbPull || m.kind == .wbCancel) && m.dst == stop && m.line == line)) && s.coh.waiting.all (fun r => !(r.kind == k && r.req == stop && r.line == line))

/-- WBREQ (R222): a core's dirty line in its victim buffer asks to be written back, though a snoop may have taken it meanwhile (R234). -/
def execWbreq (stop line : Nat) (s : State) : Host.Outcome State Fault Refusal :=
  let s0 := s.tick
  .next (if !s0.quietEvict .wbReq stop line then s0
    else match s0.coh.pl stop line with
    | some p => if p.victim && p.st.dirty then s0.sendReq (mkReq .wbReq stop line p.sec p.cls 0) 1 { core := some stop } .write else s0
    | none => if s0.coh.gone.contains (privKey stop line) then s0.sendReq (mkReq .wbReq stop line (s0.env.secLine line) noClass 0) 1 { core := some stop } .write else s0)

/-- EVICTCLEAN (R222): a clean line has left the last private cache of the core. -/
def execEvictclean (stop line : Nat) (s : State) : Host.Outcome State Fault Refusal :=
  let s0 := s.tick
  .next (match s0.coh.pl stop line with
    | some p => if p.victim && !p.st.dirty && s0.quietEvict .evictClean stop line then s0.sendReq (mkReq .evictClean stop line p.sec p.cls 0) 1 { core := some stop } .none else s0
    | none => s0)

/-- CMOREQ (07 R185, R183): maintenance of one line for thread t; op 0 C, 1 I, 2 CI. -/
def execCmoreq (t line : Nat) (sec : Bool) (op : Nat) (s : State) : Host.Outcome State Fault Refusal :=
  let s0 := s.tick
  let k := s0.cmoKind t (if op = 0 then .c else if op = 1 then .i else .ci)
  .next (if 3 ≤ op || !s0.coreUp (t / 4) || !s0.isMem (64 * line) then s0
    else if !sec && s0.lineSec line then s0.coreViol t 4 (64 * line)
    else s0.sendReq (mkReq (match k with | .c => .cmoC | .i => .cmoI | .ci => .cmoCI) (s0.stopOf t) line sec (s0.clsOf t) t) 1 (s0.rqrOf t) .write)

/-- One more response of a far gather is awaited by the instruction at the PC (06 R159). -/
def Thread.awaitGather (th : Thread) (dst : Nat) : Thread :=
  match th.gath with
  | some g => if g.pc = th.pc && g.dst == dst then { th with gath := some { g with left := g.left + 1 } } else { th with gath := some ⟨th.pc, dst, 1, [], []⟩ }
  | none => { th with gath := some ⟨th.pc, dst, 1, [], []⟩ }

/-- GATHERREQ (06 R159 steps 4 and 5): a home slice reads up to 16 elements of `esz` bytes, given by lane, physical address and virtual address, and packs the response; GATHER_FAR_REQ counts the request. An element whose line has an open transaction waits for the close (R237). A Normal request reads zero from a Secure line. -/
def execGatherreq (t : Nat) (sec long : Bool) (vd : Reg) (esz : Nat) (elems : List (Nat × Nat × Nat)) (s : State) : Host.Outcome State Fault Refusal :=
  let s0 := s.tick
  let lines := elems.map (fun x => x.2.1 / 64)
  let slice := s0.homeOf (lines.getD 0 0)
  let bad := elems.isEmpty || 16 < elems.length || elems.any (fun x => !s0.isMem x.2.1 || x.2.1 % 64 + esz > 64) || lines.any (fun l => s0.homeOf l != slice) || esz = 0 || 8 < esz
  .next (if bad || !s0.canRun t then s0
    else
      let stop := s0.stopOf t
      let open_ (x : Nat × Nat × Nat) : Bool := sec || !s0.lineSec (x.2.1 / 64)
      let g : Gather := ⟨t, stop, slice, lines.getD 0 0, vd.toNat + long.toNat * 64 + 128 * esz, esz, s0.clsOf t,
        (elems.filter open_).map (fun x => ⟨x.1, x.2.1, BitVec.ofNat 64 x.2.2⟩), (elems.filter (fun x => !open_ x)).map (fun x => (x.1, 0)), []⟩
      let c := (s0.coh.hop stop slice 1).gatherGo s0.env g
      match s0.tryCoh c (s0.rqrOf t) .read with
      | none => s0.askCoh c
      | some s1 => (elems.filter (fun x => !open_ x)).foldl (fun s x => s.coreViol t 1 x.2.1) ((s1.countThr t 0x017 .read none 1).updThr t (·.awaitGather g.rqr)))

/-! ### Delivery -/

/-- The oldest message of a kind to (or, towards a home, from) a stop about a line. -/
def State.findMsg (s : State) (k : MsgKind) (fromSrc : Bool) (stop line : Nat) : Option Msg :=
  s.coh.msgs.find? (fun m => m.kind == k && (if fromSrc then m.src else m.dst) == stop && m.line == line)

/-- Deliver a message that concerns the memory system alone; one whose route has an aqueduct that is off or a link out of use waits (16 R494, R213), and so does one that memory cannot serve yet. -/
def State.deliverMsg (s : State) (k : MsgKind) (fromSrc : Bool) (stop line : Nat) : State :=
  let s0 := s.tick
  match s0.findMsg k fromSrc stop line with
  | none => s0
  | some m =>
    if !s0.routeUp m.src m.dst then s0.askRoute m.src m.dst
    else
      let c := s0.coh.deliver s0.env m
      (s0.tryCoh c (if m.rqr < 224 then { core := some m.rqr } else {}) .none).getD (s0.askCoh c)

/-- Deliver a snoop, which is answered or parked (R224). -/
def State.deliverSnoop (s : State) (k : MsgKind) (stop line : Nat) : State := s.deliverMsg k false stop line

/-- SNPSHARED (R218). -/
def execSnpshared (stop line : Nat) (s : State) : Host.Outcome State Fault Refusal := .next (s.deliverSnoop .snpShared stop line)
/-- SNPOWN (R218). -/
def execSnpown (stop line : Nat) (s : State) : Host.Outcome State Fault Refusal := .next (s.deliverSnoop .snpOwn stop line)
/-- SNPINV (R218). -/
def execSnpinv (stop line : Nat) (s : State) : Host.Outcome State Fault Refusal := .next (s.deliverSnoop .snpInv stop line)
/-- SNPCUR (R218, R224): answered at once, even in the hold window. -/
def execSnpcur (stop line : Nat) (s : State) : Host.Outcome State Fault Refusal := .next (s.deliverSnoop .snpCur stop line)
/-- SNPRECALL (R218). -/
def execSnprecall (stop line : Nat) (s : State) : Host.Outcome State Fault Refusal := .next (s.deliverSnoop .snpRecall stop line)
/-- WBPULL (R222). -/
def execWbpull (stop line : Nat) (s : State) : Host.Outcome State Fault Refusal := .next (s.deliverMsg .wbPull false stop line)
/-- SNPRESP (R206): a holder's response reaches the home. -/
def execSnpresp (stop line : Nat) (s : State) : Host.Outcome State Fault Refusal := .next (s.deliverMsg .snpResp true stop line)
/-- CMP (R222). -/
def execCmp (stop line : Nat) (s : State) : Host.Outcome State Fault Refusal := .next (s.deliverMsg .cmp false stop line)
/-- COMPACK (R217): the requester's acknowledgement reaches the home. -/
def execCompack (stop line : Nat) (s : State) : Host.Outcome State Fault Refusal := .next (s.deliverMsg .compAck true stop line)
/-- WBCANCEL (R222). -/
def execWbcancel (stop line : Nat) (s : State) : Host.Outcome State Fault Refusal := .next (s.deliverMsg .wbCancel false stop line)
/-- DATA (R222): an I/O agent's data leave the mesh with it. -/
def execData (stop line : Nat) (s : State) : Host.Outcome State Fault Refusal := .next (s.deliverMsg .data false stop line)
/-- FWDDATA (R222). -/
def execFwddata (stop line : Nat) (s : State) : Host.Outcome State Fault Refusal := .next (s.deliverMsg .fwdData false stop line)
/-- SNPDATA (R206): data returned on a snoop reach the home. -/
def execSnpdata (stop line : Nat) (s : State) : Host.Outcome State Fault Refusal := .next (s.deliverMsg .snpData true stop line)
/-- WBDATA (R222): written-back data reach the home. -/
def execWbdata (stop line : Nat) (s : State) : Host.Outcome State Fault Refusal := .next (s.deliverMsg .wbData true stop line)

/-- Remove a message that its thread consumes. -/
def State.takeMsg (s : State) (m : Msg) : State := { s with coh := { s.coh with msgs := s.coh.msgs.erase m } }

/-- ATOMRESP (R231, R232): the old value reaches rd and the predictor is trained; a poisoned sector raises POISON_DATA. -/
def execAtomresp (t line : Nat) (s : State) : Host.Outcome State Fault Refusal :=
  let s0 := s.tick
  .next (match s0.coh.msgs.find? (fun m => m.kind == .atomResp && m.thread == t && m.line == line) with
    | none => s0
    | some m =>
      if !s0.routeUp m.src m.dst then s0.askRoute m.src m.dst
      else
        let s1 := (s0.takeMsg m).countThr t 0x014 .atomic (some (64 * line)) 1
        let (rd, auto) := m.elems.getD 0 (0, 0)
        let (size, va) := m.elems.getD 1 (0, 0)
        if m.poison then s1.raise t { code := 0x30, addrValid := true, wnr := true, size := size + 2, reg := rd % 32, addr := BitVec.ofNat 64 va } false
        else
          let v := m.data.extractLsb' 0 128
          let r : Reg := BitVec.ofNat 5 rd
          let s2 := s1.updThr t (fun th => if size = 2 then th.wPair r v else th.wE r (v.extractLsb' 0 64))
          if auto = 1 then s2.trainPred (s2.stopOf t) line (if m.contended then 1 else -1) else s2)

/-- CMODONE (07 R185): the issuing core records that the line is done. -/
def execCmodone (t line : Nat) (s : State) : Host.Outcome State Fault Refusal :=
  .next (match s.coh.msgs.find? (fun m => m.kind == .cmoDone && m.thread == t && m.line == line) with
    | none => s
    | some m => if !s.routeUp m.src m.dst then s.askRoute m.src m.dst else s.takeMsg m)

/-- A far gather's responses have all arrived: its lanes are committed in index order (06 R159 step 6, R165). With a poisoned element, the lanes below the lowest one are written, VPROG names it, and POISON_DATA reports it with its address (02 R58, R59; 06 R167). -/
def State.commitGather (s : State) (t : Nat) (g : GathWait) : State :=
  let vd : Reg := BitVec.ofNat 5 (g.dst % 64)
  let long := g.dst / 64 % 2 == 1
  let esz := g.dst / 128
  let low : Option (Nat × Word) := g.bad.foldl (fun r x => match r with | some y => if x.1 < y.1 then some x else r | none => some x) none
  let put (s : State) (l : List (Nat × Nat)) : State := s.updThr t (fun th => { th.wVec long vd (l.foldl (fun r e => setLane r (8 * esz) e.1 e.2) (s.rVec t long vd)) with gath := none })
  match low with
  | some (k, va) =>
    ((put s (g.got.filter (fun e => decide (e.1 < k)))).updThr t (·.setVprog k)).raise t
      { code := 0x30, addrValid := true, size := log2n esz, reg := vd.toNat, vec := true, addr := va } false
  | none => put s g.got

/-- GATHERDATA (06 R159 step 6): a packed response reaches the core, which commits the lanes once every response of the gather has arrived. The data of a gather that an exception or interrupt has ended are discarded (R166). -/
def execGatherdata (t line : Nat) (s : State) : Host.Outcome State Fault Refusal :=
  .next (match s.coh.msgs.find? (fun m => m.kind == .gatherData && m.thread == t && m.line == line) with
    | none => s
    | some m =>
      if !s.routeUp m.src m.dst then s.askRoute m.src m.dst
      else
        let s1 := s.takeMsg m
        match (s.thr t).gath.filter (fun g => g.pc == (s.thr t).pc && g.dst == m.rqr) with
        | none => s1
        | some g =>
          let g1 : GathWait := { g with left := g.left - 1, got := g.got ++ m.elems, bad := g.bad ++ m.bad }
          if g1.left = 0 then s1.commitGather t g1 else s1.updThr t (fun th => { th with gath := some g1 }))

/-- Is the access that a line was requested for still to be made: its thread stands at it, or has a buffered store to the line (R224)? -/
def State.accessDue (s : State) (stop line : Nat) : Bool :=
  match (s.coh.pl stop line).bind (·.fresh) with
  | some (t, pc) => (s.thr t).pc == pc || (s.thr t).stores.any (fun e => e.parts.any (fun p => p.line == line))
  | none => false

/-- HOLD_WINDOW_END (R224, R225): the cache answers the snoops it parked, not before the access that caused the request has been performed, unless that access is no longer to be made. -/
def execHoldWindowEnd (stop line : Nat) (s : State) : Host.Outcome State Fault Refusal :=
  let s0 := s.tick
  let c := s0.coh.endHold s0.env stop line (!s0.accessDue stop line)
  .next ((s0.tryCoh c { core := some stop } .none).getD (s0.askCoh c))

/-- A line that a controller has read for its home is put into its LLC sector (09 R253): its memory read is counted already. -/
def State.fillFetched (s : State) (line cls : Nat) : State :=
  let c := s.coh.homeFill s.env line (s.env.secLine line) cls 0
  let evs := c.evs.filter (fun e => e.code != 0x040)
  ({ s.updMem (fun x => { x with fetched := x.fetched.erase line }) with coh := { c with evs := evs } }).drainEvs {} .none

/-- LINE_FILL (07 R173): the last byte of a fill arrives: from L2 into L1D (level 0) or L1I (1), or from memory into the home's LLC sector (3). A fill of L2 comes with DATA or FWDDATA. -/
def execLineFill (stop line level cls : Nat) (s : State) : Host.Outcome State Fault Refusal :=
  let s0 := s.tick
  .next (if level = 3 then
      (if s0.isMem (64 * line) && s0.homeOf line = stop && (s0.coh.sectorOf line).isNone && (s0.coh.txn line).isNone && s0.fromMem line then
        (if s0.memx.fetched.contains line then s0.fillFetched line (cls % 64)
         else
          let c := s0.coh.homeFill s0.env line (s0.env.secLine line) (cls % 64) stop
          (s0.tryCoh c { core := some stop } .prefetch).getD (s0.askCoh c))
      else s0)
    else match s0.coh.pl stop line with
      | some p => if p.victim || p.l2.isNone then s0
          else if level = 0 then ({ s0 with coh := s0.coh.fillL1d s0.env stop line (cls % 64) }).drainEvs { core := some stop } .none
          else if level = 1 && decide (s0.missCount stop < 64) then ({ s0 with coh := s0.coh.fillL1i s0.env stop line (cls % 64) }).drainEvs { core := some stop } .none
          else s0
      | none => s0)

end Sys2Proof.Machine
end

