-- ==== Sys2Proof/Machine/Ras.lean ====
section
/-! DEFINITION. Faults and recovery: array errors, way disable, directory errors, core sparing (spec/07_caches.md R175–R180; spec/08_mesh_coherence.md R223; spec/18_ras.md R548–R563, R574; spec/11_tenancy.md R343). -/
namespace Sys2Proof.Machine

/-- Change the fault state. -/
def State.updRas (s : State) (f : RasSt → RasSt) : State := { s with ras := f s.ras }

/-! ### Core sparing (18 R555–R563) -/

/-- Write every retired store of a thread to its home at once: the drain of a core that stops (18 R556). -/
def State.flushStores (s : State) (t : Nat) : State :=
  let go (s : State) (e : StoreEnt) : State :=
    e.parts.foldl (fun s p =>
      if !s.isMem (64 * p.line) then s
      else if !p.sec && s.lineSec p.line then s.coreViol t 2 (64 * p.line)
      else ({ s with coh := s.coh.writeNow s.env p.line p.data p.mask e.cls }).drainEvs (s.rqrOf t) .write) s
  ((s.thr t).stores.foldl go s).updThr t (fun th => { th with stores := [] })

/-- Lost retired stores: each one's sector is poisoned at its home (18 R561). -/
def State.loseStores (s : State) (t : Nat) : State :=
  let lines := ((s.thr t).stores.flatMap (fun e => e.parts.map (·.line))).dedup
  (lines.foldl (fun s l => if s.isMem (64 * l) then { s with coh := (s.coh.settle s.env l).poisonLine s.env l } else s) s).updThr t (fun th => { th with stores := [] })

/-- The lowest spare of a stop's tile that can be brought into service (18 R555). -/
def State.pickSpare (s : State) (stop : Nat) : Option Nat :=
  (List.range 224).find? (fun p => p / 56 == stop / 56 && s.coreMap.any (fun e => e.phys == p && e.st == .spare) &&
    s.domState p != 4 && s.ras.sparing.all (fun x => x.spare != p))

/-- A GAL_REPLACE bit, GAL_HEALTH.REPLACE and the MT of the first trigger, for an event that is written apart (18 R568, R569). -/
def State.replaceBit (s : State) (b : Nat) : State :=
  let g := s.reg a_GAL_REPLACE
  if bit g b then s
  else
    let g1 := if fld g 0 8 = 0 then setFld g 32 32 s.time.mt else g
    (s.setReg a_GAL_REPLACE (setBit g1 b true)).wf a_GAL_HEALTH f_GAL_HEALTH_REPLACE 1

/-- CORE_SPARED (18 R574). -/
def State.sparedEv (s : State) (l old new cause result since : Nat) : State :=
  let sev := if result = 1 then 6 else if result = 2 then 3 else if cause = 3 then 0 else 2
  (if result = 1 then s.replaceBit 0 else s).hostEv 0x0A01 sev old 0
    (l + old * 2 ^ 8 + new * 2 ^ 16 + cause * 2 ^ 24 + result * 2 ^ 28) (s.time.mt - since)

/-- Switches a 25-year life allows (16 R503). -/
def switchBudget : Nat := 78894000000

/-- A switch-off uses a token and is counted for life; beyond the budget OVER is set and replacement requested (16 R496, R503). -/
def State.useSwitch (s : State) (d : Nat) : State :=
  let t := s.rf (a_PVC_DOM d) f_PVC_DOM_TOKENS
  let n := s.rf (a_PVC_WEAR d) f_PVC_WEAR_SWITCHES + 1
  let s1 := (s.wf (a_PVC_DOM d) f_PVC_DOM_TOKENS (t - 1)).wf (a_PVC_WEAR d) f_PVC_WEAR_SWITCHES n
  if switchBudget < n && s.rf (a_PVC_WEAR d) f_PVC_WEAR_OVER = 0 then (s1.wf (a_PVC_WEAR d) f_PVC_WEAR_OVER 1).replaceReq 6 0x0105 d d n else s1

/-- Freeze a core (18 R556, R558): every unretired effect is discarded, an instruction decoded and not retired among them, and retired stores drain. -/
def State.freeze (s : State) (stop : Nat) (lostStores : List Nat) : State :=
  let l := s.lcoreOf stop
  let s1 := s.wf (a_STP_RAS_STAT stop) f_STP_RAS_STAT_FROZEN 1
  [0, 1, 2, 3].foldl (fun s k =>
    let t := 4 * l + k
    let s1 := ((s.dropStaged t).updThr t (fun th => { th with loopBuf := none, lcnt := [], held := none, gath := none })).freezeTake t
    if lostStores.contains k then s1.loseStores t else s1.flushStores t) s1

/-- Entries of a core map by group, each in ascending physical order (01 R36). A spare whose domain has failed stands in the failed group (01 R33). -/
def State.mapGroups (s : State) (l : List CoreMapEnt) (sts : List CoreState) : List CoreMapEnt :=
  let now (e : CoreMapEnt) : CoreMapEnt := if e.st == .spare && s.domState e.phys == 4 then { e with st := .failed } else e
  sts.flatMap (fun st => ((List.range 224).filter (fun p => l.any (fun e => e.phys == p && (now e).st == st))).map (fun p => ⟨p, st⟩))

/-- The core map as a cold reset rebuilds it (01 R36): active, spare, failed, fused-off cores, each in ascending physical order. -/
def State.rebuiltMap (s : State) : State :=
  let map := s.mapGroups s.coreMap [.active, .spare, .failed, .fusedOff]
  { s with coreMap := map, activeCores := (map.filter (fun (e : CoreMapEnt) => e.st == CoreState.active)).length }

/-- A rewrite of the core map (01 R36): position l takes an entry, the tail keeps its order, and SPARING_GEN advances by 2. The Logbook keeps the map (18 R570). -/
def State.rewriteMap (s : State) (l : Nat) (e : CoreMapEnt) (tail : List CoreMapEnt) : State :=
  ({ s with coreMap := (s.coreMap.take s.activeCores).set l e ++ s.mapGroups tail [.spare, .failed, .fusedOff], sparingGen := s.sparingGen + 2 }).logArea

/-- A sparing in the core map (01 R36): the spare takes position l, the old core joins the failed ones. -/
def State.spareMap (s : State) (l spare old : Nat) : State :=
  s.rewriteMap l ⟨spare, .active⟩ ((s.coreMap.drop s.activeCores).filter (fun e => e.phys != spare) ++ [⟨old, .failed⟩])

/-- A core is retired without a replacement (18 R562): its threads stop for good, their state is discarded, its position keeps its physical number with STATE 2. RESULT 1 no spare, 2 sparing disabled. -/
def State.retireCore (s : State) (stop cause result since : Nat) : State :=
  let l := s.lcoreOf stop
  let s1 := s.rewriteMap l ⟨stop, .failed⟩ (s.coreMap.drop s.activeCores)
  let s2 := [0, 1, 2, 3].foldl (fun s k => s.setThr (4 * l + k) (Thread.reset (vcfgReset s.variant))) s1
  let s3 := (s2.wf (a_STP_RAS_STAT stop) f_STP_RAS_STAT_CORE_STATE 2).updRas (fun x => { x with sparing := x.sparing ++ [⟨stop, l, cause, since, [], 0xFF, true⟩] })
  (s3.coreDep stop).sparedEv l stop 0xFF cause result since

/-- Sparing of a core begins (18 R555, R558 steps 1–3): cause 1 array error, 2 way limit, 3 CORE_RETIRE, 4 wake failure. The LEN vote wakes the spare, and both cores hold DEP while state moves (16 R494). A core without an active position (a spare, a failed core) is not spared. -/
def State.startSparing (s : State) (stop cause : Nat) (masks : List Nat) : State :=
  if s.ras.sparing.any (fun x => x.old == stop) || !s.mapped stop then s
  else
    let s1 := if cause = 4 then s else s.freeze stop ((List.range 4).filter (fun k => (masks.getD k 0).testBit 5))
    if s.rf a_GAL_RAS_CTL f_GAL_RAS_CTL_SPARE_EN = 0 then s1.retireCore stop cause 2 s.time.mt
    else match s.pickSpare stop with
      | none => s1.retireCore stop cause 1 s.time.mt
      | some p =>
        let s2 := (s1.updRas (fun x => { x with sparing := x.sparing ++ [⟨stop, s.lcoreOf stop, cause, s.time.mt, masks, p, false⟩] })).setVote p 3 true
        if cause = 4 then s2 else (s2.coreDep p).coreDep stop

/-- Zero or reset the lost state of a thread (18 R561). -/
def Thread.lose (th : Thread) (mask : Nat) (vl : Word) : Thread :=
  let b (i : Nat) : Bool := mask.testBit i
  let th1 := { th with
    e := if b 0 then [] else th.e
    sv := if b 1 then [] else th.sv
    lv := if b 2 then [] else th.lv
    lvOld := if b 2 then [] else th.lvOld
    m := if b 3 then [] else th.m }
  if b 4 then { th1 with fpctl := 0, fpflags := 0, vcfg := vl, vprog := 0, sys := [], pend := [], btbKey := none, keyGen := th1.keyGen + 1 } else th1

/-- The MC_THREAD exception and event of a thread with lost state (18 R561): THREAD_STATE_LOST is fatal when a store's target is unknown. -/
def State.threadLost (s : State) (t old mask : Nat) (fatal : Bool) : State :=
  if mask = 0 then s
  else
    let w2 := t + mask % 64 * 2 ^ 16
    let vm := s.reqVmid t
    let pc := (s.thr t).pc.toNat
    let s1 := (s.dropLoads t).updThr t (fun th => { th.lose mask (vcfgReset s.variant) with waiting := false, waitStep := false })
    let e : Exc := { code := 0x3C, info := mask % 64 }
    let s2 := s1.enterExc t (s1.excLevel t .mcheck e false) .mcheck e
    if fatal then s2.fatal 0x0A02 old w2 pc vm else s2.post 1 ⟨0x0A02, 3, old, vm, s.time.mt, BitVec.ofNat 64 w2, BitVec.ofNat 64 pc⟩

/-- The core registers in a stop's pages (counters, shadows, samples, comparators) move to another stop (R563). -/
def State.movePages (s : State) (old new : Nat) : State :=
  let b (p : Nat) : Nat := 0x10000000 + 0x100000 * p
  let s1 := (s.ccs.filter (fun x => inRange x.1 (b new) 0x30000)).foldl (fun s x => s.setReg x.1 (ccsReset s.variant x.1)) s
  (s.ccs.filter (fun x => inRange x.1 (b old) 0x30000)).foldl (fun s x => s.setReg (x.1 - b old + b new) x.2) s1

/-- The state of a core moves to its spare (18 R558 steps 7–9, R559, R560). A mask above 63 marks a store whose target is unknown. -/
def State.moveCore (s : State) (x : Sparing) : State :=
  let old := s.core x.old
  let fresh : CoreSt := { old with itlb := [], dtlb := [], l2tlb := [], walkc := [], btb := [], pred := [], sample := old.sample }
  let s1 := s.spareMap x.lcore x.spare x.old
  let s2 := s1.setCore x.spare (if x.cause = 4 then CoreSt.reset else fresh)
  let s3 := (s2.wf (a_STP_RAS_STAT x.spare) f_STP_RAS_STAT_CORE_STATE 0).wf (a_STP_RAS_STAT x.old) f_STP_RAS_STAT_CORE_STATE 2
  let hyp := s.rf (a_PVC_HYP_VOTE x.old) f_PVC_HYP_VOTE_VOTE
  let sec := s.rf (a_PVC_SEC_VOTE x.old) f_PVC_SEC_VOTE_VOTE
  let s4 := ((s3.wf (a_PVC_HYP_VOTE x.spare) f_PVC_HYP_VOTE_VOTE hyp).wf (a_PVC_SEC_VOTE x.spare) f_PVC_SEC_VOTE_VOTE sec).wf (a_STP_CORE_CACHESTAT x.spare) f_STP_CORE_CACHESTAT_AUTODIS_EN
    (s.rf (a_STP_CORE_CACHESTAT x.old) f_STP_CORE_CACHESTAT_AUTODIS_EN)
  let s5 := s4.movePages x.old x.spare
  let s6 := [0, 1, 2, 3].foldl (fun s k =>
    let t := 4 * x.lcore + k
    if x.cause = 4 then s.resetThread t else s.threadLost t x.old (x.masks.getD k 0 % 64) (decide (64 ≤ x.masks.getD k 0))) s5
  let s7 := s6.updRas (fun r => { r with sparing := r.sparing.map (fun y => if y.old == x.old then { y with moved := true } else y) })
  let s8 := (((s7.setVote x.spare 1 (hyp == 1)).setVote x.spare 0 (sec == 1)).coreDep x.spare).coreDep x.old
  (s8.sparedEv x.lcore x.old x.spare x.cause 0 x.since).setVote x.spare 3 false

/-- CORE_SPARED (18 R558 steps 6–9), which takes longer than 4 ns (12 R361): once the spare of the first waiting core is on and the Lengthsman runs, the state is moved and the threads resume. -/
def execCoreSpared (stop : Nat) (s : State) : Host.Outcome State Fault Refusal :=
  .next (match s.ras.sparing.find? (fun x => !x.moved) with
    | some x => if x.old = stop && s.domState x.spare == 2 && s.gal.restart.isNone && (!s.mtRuns || decide (x.since + 4 < s.time.mt)) then s.tick.moveCore x else s
    | none => s)

/-- SPARING_FLUSH_END (18 R558 step 10): the frozen core's caches are empty, its domain is switched off, which uses a token (16 R496, R503), and FAILED. -/
def execSparingFlushEnd (stop : Nat) (s : State) : Host.Outcome State Fault Refusal :=
  .next (match s.ras.sparing.find? (fun x => x.old == stop && x.moved) with
    | none => s
    | some _ =>
      let s0 := s.tick
      let s1 := ({ s0 with coh := s0.coh.emptyStop s0.env stop }).drainEvs { core := some stop } .none
      let s2 := ((if s1.domOn stop then s1.useSwitch stop else s1).wf (a_PVC_DOM stop) f_PVC_DOM_STATE 4).logArea
      (s2.wf (a_STP_RAS_STAT stop) f_STP_RAS_STAT_FROZEN 0).updRas (fun x => { x with sparing := x.sparing.filter (fun y => y.old != stop) }))

/-- CORE_ARRAY_UE (18 R554, R558 step 1): an uncorrectable error in a core array (UE_ARRAY of R577). For arrays 7 and 8 the masks give the lost state of each thread (R561), with 64 added when a lost store's target is unknown. -/
def execCoreArrayUe (stop array : Nat) (masks : List Nat) (s : State) : Host.Outcome State Fault Refusal :=
  let l := s.lcoreOf stop
  let serving := decide (stop < 224) && (s.mapEnt l).st == .active && decide (l < s.activeCores) && s.domOn stop && s.rf (a_STP_RAS_STAT stop) f_STP_RAS_STAT_FROZEN == 0
  .next (if !serving || array = 0 || 8 < array then s
    else
      let s1 := (s.tick.wf (a_STP_RAS_STAT stop) f_STP_RAS_STAT_UE_ARRAY array).wf (a_STP_RAS_STAT stop) f_STP_RAS_STAT_VALID 1
      s1.startSparing stop 1 (if 7 ≤ array then masks.map (· % 128) else []))

/-- Is the core at a stop active: in the core map with STATE 0 and not being spared (17 R532)? -/
def State.coreActive (s : State) (p : Nat) : Bool :=
  s.coreMap.any (fun e => e.phys == p && e.st == .active) && s.ras.sparing.all (fun x => x.old != p && x.spare != p) &&
    s.rf (a_STP_RAS_STAT p) f_STP_RAS_STAT_FROZEN == 0

/-- CORE_RETIRE (18 R555, 17 R532): spares an active core without a fault; BUSY while it is being spared, NO_RESOURCE without a spare in its tile. -/
def State.coreRetire (s : State) (c : GalCmd) : State × GalRes :=
  if !s.coreActive c.target then (s, gBusy)
  else if (s.pickSpare c.target).isNone then (s, gNoRes)
  else (s.startSparing c.target 3 [], gAccepted)

/-- CORE_RETIRE. -/
def execCoreRetire (r : Nat) (s : State) : Host.Outcome State Fault Refusal := .next (s.tick.galNow r 0x0203 State.coreRetire)

/-! ### Way disable (07 R177–R180) -/

/-- Ways of an array. -/
def arrayWays (level : Nat) : Nat := if level = 0 then 8 else if level = 1 then 4 else 16

/-- Ways of an array that can be disabled: R179 for private caches, every LLC way, and all but four directory ways (08 R223). -/
def disLimit (level : Nat) : Nat := if level = 0 then 2 else if level = 1 then 1 else if level = 2 then 4 else if level = 3 then 16 else 12

/-- Number of bits set among the first n. -/
def countBits (m n : Nat) : Nat := ((List.range n).filter (fun i => m.testBit i)).length

/-- Automatic way disable of an array (R177). -/
def State.autoDis (s : State) (level stop : Nat) : Bool :=
  if level < 3 then s.rf (a_STP_CORE_CACHESTAT stop) f_STP_CORE_CACHESTAT_AUTODIS_EN == 1 else s.rf (a_STP_LLC_CTL stop) f_STP_LLC_CTL_AUTODIS_EN == 1

/-- Begin to disable a way (R178 step 1); beyond the limit of a private cache core sparing begins (R179), and beyond the directory's the way stays. -/
def State.startDisable (s : State) (level stop way cause : Nat) : State :=
  let out := s.waysOut level stop
  if !s.autoDis level stop || out.testBit way || arrayWays level ≤ way then s
  else if disLimit level ≤ countBits out (arrayWays level) then (if level < 3 then s.startSparing stop 2 [] else s)
  else
    let s1 := s.updRas (fun x => { x with draining := x.draining ++ [⟨level, stop, way, cause⟩] })
    if level = 3 then s1.wf (a_STP_LLC_WAYSTAT stop) f_STP_LLC_WAYSTAT_DRAINING (s1.rf (a_STP_LLC_WAYSTAT stop) f_STP_LLC_WAYSTAT_DRAINING ||| 2 ^ way) else s1

/-- A way logs a corrected error: the third within 24 h disables it (R177). -/
def State.wayCe (s : State) (level stop way : Nat) : State :=
  let k := 2 ^ 16 * level + 16 * stop + way
  let old := smGet (fun _ => []) s.ras.wayCe k
  let s1 := s.updRas (fun x => { x with wayCe := smSet (fun _ => []) x.wayCe k ((old ++ [s.time.mt]).drop (old.length - 1)) }) |>.logArea
  if old.length = 2 && old.all (fun m => decide (s.time.mt ≤ m + day)) then s1.startDisable level stop way 1 else s1

/-- Empty a way: an L1D line goes to L2, an L2 line to its home, an LLC sector to memory, directory entries are recalled (R178 steps 2 and 3). A cache that loses a line answers the snoops it parked for it. -/
def State.emptyWay (s : State) (level stop way : Nat) : Coh :=
  let c := s.coh
  if level < 3 then
    let out (c : Coh) (l : Nat) : Coh := (Coh.flushLine s.env stop (c.settle s.env l) l).unpark s.env stop l
    (c.linesAt stop).foldl (fun c l => match c.pl stop l with
      | some p =>
        if p.victim then c
        else if level = 0 && p.l1d = some way then c.setPl stop l (some { p with l1d := none, l2old := none })
        else if level = 1 && p.l1i = some way then (if p.l2.isNone then out c l else c.setPl stop l (some { p with l1i := none }))
        else if level = 2 && p.l2 = some way then out c l
        else c
      | none => c) c
  else if level = 3 then
    (c.llc.filterMap (fun x => match x.2 with | some b => if b.slice = stop && b.way = way then some x.1 else none | none => none)).foldl (fun c b => c.evictBlk s.env b noClass) c
  else
    (c.dir.filterMap (fun x => match x.2 with | some d => if d.slice = stop && d.way = way then some x.1 else none | none => none)).foldl (fun c l => (c.settle s.env l).recall s.env l noClass) c

/-- Mark a way disabled in its register (R178 step 4). -/
def State.markWay (s : State) (level stop way : Nat) : State :=
  let m := s.waysOff level stop ||| 2 ^ way
  if level = 0 then s.wf (a_STP_CORE_CACHESTAT stop) f_STP_CORE_CACHESTAT_L1D_DIS m
  else if level = 1 then s.wf (a_STP_CORE_CACHESTAT stop) f_STP_CORE_CACHESTAT_L1I_DIS m
  else if level = 2 then s.wf (a_STP_CORE_CACHESTAT stop) f_STP_CORE_CACHESTAT_L2_DIS m
  else if level = 3 then
    ((s.wf (a_STP_LLC_WAYSTAT stop) f_STP_LLC_WAYSTAT_DISABLED m).wf (a_STP_LLC_WAYSTAT stop) f_STP_LLC_WAYSTAT_DIS_COUNT (countBits m 16)).wf
      (a_STP_LLC_WAYSTAT stop) f_STP_LLC_WAYSTAT_DRAINING ((s.rf (a_STP_LLC_WAYSTAT stop) f_STP_LLC_WAYSTAT_DRAINING) &&& (2 ^ 16 - 1 - 2 ^ way))
  else s.wf (a_STP_DIR_STAT stop) f_STP_DIR_STAT_DIS_WAYS m

/-- A slice with three or more disabled ways counts once towards LLC_WAYS_EXHAUSTED, which the ninth triggers (R180, 18 R568, R574). -/
def State.sliceCheck (s : State) (stop : Nat) : State :=
  let n := countBits (s.waysOff 3 stop) 16 + countBits (s.waysOff 4 stop) 16
  if n < 3 || s.ras.exhausted.contains stop then s
  else
    let s1 := s.updRas (fun x => { x with exhausted := x.exhausted ++ [stop] })
    if s1.ras.exhausted.length = 9 then s1.replaceReq 1 0x0A03 (448 + stop) 9 0 else s1

/-- WAY_DISABLE_COMPLETE (R178): the way's lines are written back and invalidated, the way is marked, and WAY_DISABLED is written. -/
def execWayDisableComplete (level stop way : Nat) (s : State) : Host.Outcome State Fault Refusal :=
  .next (match s.ras.draining.find? (fun w => w.level == level && w.stop == stop && w.way == way) with
    | none => s
    | some w =>
      let s0 := s.tick
      let s1 := ({ s0 with coh := s0.emptyWay level stop way }).drainEvs { core := some stop } .none
      let s2 := (s1.markWay level stop way).logArea.updRas (fun x => { x with draining := x.draining.erase w })
      let s3 := s2.hostEv 0x0204 2 (if level < 3 then stop else 448 + stop) 0
        (stop + level * 2 ^ 8 + way * 2 ^ 12 + w.cause * 2 ^ 16 + countBits (s2.waysOff level stop) (arrayWays level) * 2 ^ 20) 0
      if level < 3 then s3 else s3.sliceCheck stop)

/-! ### Array errors (07 R175, 08 R223, 18 R554) -/

/-- Word 2 of CACHE_CE, CACHE_UE and CACHE_TAG_ERROR (17 R543). -/
def rasWord2 (e : RasErr) (dirty recov : Bool) : Nat :=
  e.stop + e.level * 2 ^ 8 + e.way % 16 * 2 ^ 12 + e.set % 2048 * 2 ^ 16 + e.sector % 4 * 2 ^ 28 + e.found % 8 * 2 ^ 32 + dirty.toNat * 2 ^ 35 + recov.toNat * 2 ^ 36

/-- The line that the errored slot holds, and whether it is dirty. A tag error is one of a whole LLC block, whichever sector the report names. An L1D entry of a line in M or O counts as dirty though L2 may hold the same data: the spec does not say (07 R175; DESIGN CHOICE, notes/assumptions/113.md). -/
def State.slotOfErr (s : State) (e : RasErr) : Option (Nat × Bool) :=
  if e.level < 3 then (s.coh.slotLine e.stop e.level e.set e.way).map (fun x => (x.1, e.level != 1 && x.2.st.dirty))
  else match (s.coh.blocksOf e.stop e.set).find? (fun b => b.2.way == e.way) with
    | some (blk, b) => if b.valid.getLsbD (e.sector % 4) || e.kind == 2 || e.kind == 3 then some (4 * blk + e.sector % 4, b.dirty.getLsbD (e.sector % 4)) else none
    | none => none

/-- Drop the errored copy, its data lost. -/
def Coh.loseCopy (c : Coh) (e : RasErr) (line : Nat) (dirty : Bool) : Coh :=
  if e.level < 3 then
    match c.pl e.stop line with
    | some p => if dirty then c.dropCopy e.stop line else c.invalSlot e.stop e.level line p
    | none => c
  else match c.blk line with
    | some b => c.setBlk (line / 4) (some (b.drop (line % 4)))
    | none => c

/-- Lines of an errored entry that are dirty: the line of a private entry, every dirty sector of an LLC block. -/
def State.dirtyOfErr (s : State) (e : RasErr) (line : Nat) : List Nat :=
  if e.level < 3 then [line]
  else match s.coh.blk line with
    | some b => ([0, 1, 2, 3].filter (fun i => b.valid.getLsbD i && b.dirty.getLsbD i)).map (fun i => line / 4 * 4 + i)
    | none => []

/-- An error of a cache array (R175): kind 0 single-bit data, 1 double-bit data, 2 tag parity with good state, 3 tag error with bad state parity, 4 recovery-copy parity. A slot that holds nothing has no data to lose; a tag or state error in it is reported, and with bad state parity its way is disabled. -/
def State.cacheErr (s : State) (e : RasErr) : State :=
  let src := if e.level < 3 then e.stop else 448 + e.stop
  match s.slotOfErr e with
  | none => if e.kind = 0 || e.kind = 4 then (s.hostEv 0x0201 1 src 0 (rasWord2 e false (e.kind == 4)) 0).wayCe e.level e.stop e.way
      else if e.kind = 2 then (s.hostEv 0x0203 1 src 0 (rasWord2 e false false) 0).wayCe e.level e.stop e.way
      else if e.kind = 3 then (s.hostEv 0x0203 3 src 0 (rasWord2 e false false) 0).startDisable e.level e.stop e.way 3
      else s
  | some (line, dirty) =>
    let s0 := { s with coh := s.coh.settle s.env line }
    let pa := 64 * line
    if e.kind = 0 || e.kind = 4 then (s.hostEv 0x0201 1 src 0 (rasWord2 e dirty (e.kind == 4)) pa).wayCe e.level e.stop e.way
    else if e.kind = 1 then
      let c := s0.coh.loseCopy e line dirty
      if dirty then (({ s0 with coh := c.poisonLine s0.env line }).hostEv 0x0202 3 src 0 (rasWord2 e true false) pa).startDisable e.level e.stop e.way 2
      else (({ s0 with coh := c }).hostEv 0x0202 2 src 0 (rasWord2 e false false) pa).startDisable e.level e.stop e.way 2
    else
      let lines := s0.dirtyOfErr e line
      let hurt := if e.level < 3 then dirty else !lines.isEmpty
      if e.kind = 2 && !hurt then
        (({ s0 with coh := if e.level < 3 then s0.coh.loseCopy e line false else s0.coh.setBlk (line / 4) none }).hostEv 0x0203 1 src 0 (rasWord2 e false false) pa).wayCe e.level e.stop e.way
      else
        let c := if e.level < 3 then s0.coh.loseCopy e line hurt else s0.coh.setBlk (line / 4) none
        let c1 := if hurt then lines.foldl (fun c l => c.poisonLine s0.env l) c else c
        (({ s0 with coh := c1 }).hostEv 0x0203 3 src 0 (rasWord2 e hurt false) pa).startDisable e.level e.stop e.way 3

/-- The line of an errored directory entry. -/
def State.dirLine (s : State) (e : RasErr) : Option Nat := ((s.coh.entriesOf e.stop e.set).find? (fun x => x.2.way == e.way)).map (·.1)

/-- Every stop's copy of a line is recalled, whatever the entry says (08 R223): dirty data go to memory, and the home's LLC sector, if valid, holds them clean, so that the outcome equals an eviction of every copy. -/
def State.recallAll (s : State) (line : Nat) : Coh :=
  let c := (s.coh.settle s.env line).noteSnoops (s.homeOf line) line true (List.range 224)
  let hs := (List.range 224).filter (fun p => (c.pl p line).isSome)
  let c1 := match c.dirtyFrom line hs with
    | some (d, p) =>
      let c0 := c.memWrite s.env line d fullMask p noClass
      (match c0.sectorOf line, c0.blk line with
       | some _, some b => c0.setBlk (line / 4) (some (b.put (line % 4) d false p (b.sec.getLsbD (line % 4))))
       | _, _ => c0)
    | none => c
  (c1.dropAll line hs).setDe line none

/-- An error of a directory entry (08 R223): kind 5 single-bit, 6 double-bit, 7 double-bit with the recovery copy in error. -/
def State.dirErr (s : State) (e : RasErr) : State :=
  let w2 := e.stop + e.way % 16 * 2 ^ 12 + e.set % 4096 * 2 ^ 16
  let pa := match s.dirLine e with | some l => 64 * l | none => 0
  if e.kind = 5 then (s.hostEv 0x0205 1 (448 + e.stop) 0 w2 pa).wayCe 4 e.stop e.way
  else if e.kind = 6 then
    let s1 := match s.dirLine e with | some l => ({ s with coh := s.recallAll l }).drainEvs {} .none | none => s
    (s1.hostEv 0x0206 2 (448 + e.stop) 0 w2 pa).startDisable 4 e.stop e.way 2
  else s.fatal 0x0207 (448 + e.stop) w2 0

/-- A corrected error of a core array (18 R554): kind 8 corrected in place; 9 parity in a translation array (set 0 ITLB, 1 L1 DTLB, 2 L2 TLB, 3 walk cache), whose entry `way` is invalidated. -/
def State.coreErr (s : State) (e : RasErr) : State :=
  let s1 := s.addSat (a_STP_RAS_STAT e.stop) f_STP_RAS_STAT_CE_COUNT e.count
  if e.kind = 8 then s1
  else s1.updCore e.stop (fun c =>
    if e.set = 0 then { c with itlb := c.itlb.eraseIdx e.way } else if e.set = 1 then { c with dtlb := c.dtlb.eraseIdx e.way }
    else if e.set = 2 then { c with l2tlb := c.l2tlb.eraseIdx e.way } else { c with walkc := c.walkc.eraseIdx e.way })

/-- RAS_REPORT (18 R548): a collector's report of an array error reaches the Lengthsman; the error's outcome and its event. -/
def execRasReport (e : RasErr) (s : State) : Host.Outcome State Fault Refusal :=
  let s0 := s.tick
  .next (if 224 ≤ e.stop then s0
    else if e.kind ≤ 4 then (if e.level ≤ 3 && e.way < arrayWays e.level then s0.cacheErr e else s0)
    else if e.kind ≤ 7 then (if e.way < 16 then s0.dirErr e else s0)
    else if e.kind ≤ 9 then s0.coreErr e else s0)

end Sys2Proof.Machine
end

