-- ==== Sys2Proof/Machine/PowerCtl.lean ====
section
/-! DEFINITION. The power voting controller's own events and commands: switching, waking and its failures, PLLs, SYS_REFCLK, the switch budget, HOST_DIRECT, frequency and the power cap (spec/16_power.md R494–R514). -/
namespace Sys2Proof.Machine

/-- Change the power controller's own state. -/
def State.updPwr (s : State) (f : PwrSt → PwrSt) : State := { s with pwr := f s.pwr }

/-! ### DEP votes that follow other domains (R494) -/

/-- Domains of the units of an I/O fabric segment, 0–3 (01 R17). -/
def segDomains (k : Nat) : List Nat :=
  if k = 0 then [750, 751, 752, 753, 758, 759, 760, 761]
  else if k = 1 then [754, 755, 756, 757, 762, 763, 764, 765, 766, 767]
  else if k = 2 then (List.range 8).map (768 + ·)
  else (List.range 8).map (776 + ·)

/-- DEP of a segment: a unit of it is on; segment 0 also while another segment is on. -/
def State.segDep (s : State) (k : Nat) : State :=
  s.setVote (784 + k) 4 ((segDomains k).any s.domOn || (k == 0 && ([785, 786, 787].any s.domOn)))

/-- Place or withdraw the DEP votes that depend on domain d, which has just been switched on or off. -/
def State.depChain (s : State) (d : Nat) : State :=
  if 710 ≤ d && d < 726 then s.setVote (d + 16) 4 (s.domOn d || s.inSr (d - 710))
  else if 742 ≤ d && d < 746 then s.setVote (d + 4) 4 (s.domOn d || s.inSr (d - 742 + 16))
  else
    let s1 := if 750 ≤ d && d < 758 then s.setVote (d + 8) 4 (s.domOn d) else if d = 766 then s.setVote 767 4 (s.domOn d) else s
    match (List.range 4).find? (fun k => (segDomains k).contains d) with
    | some k => s1.segDep k
    | none => if 785 ≤ d && d < 788 then s1.segDep 0 else s1

/-! ### Switching off (R496, R503) -/

/-- What draining leaves of the unit: a core's stores retire and its caches empty, a vINTID on its way to it goes back to its record (DEDUCED from 11 R329, notes/assumptions/106.md), a slice's contents return to memory, a memory controller pays its owed refreshes, a port's links go down. -/
def State.drainUnit (s : State) (d : Nat) : State :=
  if d < 224 then
    let l := s.lcoreOf d
    let s1 := [0, 1, 2, 3].foldl (fun s k => (s.returnTake (4 * l + k)).flushStores (4 * l + k)) s
    (({ s1 with coh := s1.coh.emptyStop s1.env d }).drainEvs { core := some d } .none).resetCore d
  else if 448 ≤ d && d < 672 then
    let home (line : Nat) : Bool := (s.homeLoc line).elim false (fun h => h.slice == d - 448)
    let c0 := s.coh
    let c1 := (c0.dir.map (·.1)).foldl (fun c l => if home l then (c.settle s.env l).recall s.env l noClass else c) c0
    let c2 := (c1.llc.map (·.1)).foldl (fun c b => if home (4 * b) then c.evictBlk s.env b noClass else c) c1
    ({ s with coh := c2 }).drainEvs {} .none
  else if 710 ≤ d && d < 726 then (List.range 32).foldl (fun s r => s.setDebt (d - 710) r 0) s
  else if 742 ≤ d && d < 746 then (List.range 32).foldl (fun s r => s.setDebt (d - 742 + 16) r 0) s
  else if 750 ≤ d && d < 758 then (List.range 4).foldl (fun s l => s.linkDown (d - 750) l 5) s
  else if d = 766 then (List.range 4).foldl (fun s l => s.linkDown 8 l 5) s
  else s

/-- A commanded switch has ended: the domain is in the state DOMAIN_SET asked for, or has failed. -/
def State.domainSetEnd (s : State) (d : Nat) : State :=
  [0, 1, 3].foldl (fun s r => s.galFinish r 0x0104 (fun s c =>
    if c.par 1 0 12 != d then none
    else
      let st := s.domState d
      if st = 4 then some (s, { gFailed with w2 := 4 })
      else if (st = 2 && c.par 1 12 1 == 1) || (st = 0 && c.par 1 12 1 == 0) then some (s, { gDone with w2 := BitVec.ofNat 64 st })
      else none)) s

/-- A domain that has just reached ON or OFF follows what is asked of it: its votes, or the command in HOST_DIRECT (R495, R504). -/
def State.settleDom (s : State) (d : Nat) : State :=
  if s.byVotes d then s.followVotes d
  else match (s.pwr.direct.find? (fun x => x.1 == d)).map (·.2) with
    | some true => if s.domState d = 0 then s.startWake d else s
    | some false => if s.domState d = 2 then s.startOff d else s
    | none => s

/-- DOMAIN_DRAINED (R496): the unit has drained, a Barge engine once it has no manifest in flight; its clock stops, it is isolated and reset, and its switch opens. A core that is being spared ends its flush instead (18 R558 step 10). -/
def execDomainDrained (d : Nat) (s : State) : Host.Outcome State Fault Refusal :=
  .next (if 788 ≤ d || s.domState d != 3 || s.ras.sparing.any (fun x => x.old == d) || (768 ≤ d && d < 784 && !s.brgDrained (d - 768)) then s
    else
      let s1 := ((s.tick.drainUnit d).useSwitch d).wf (a_PVC_DOM d) f_PVC_DOM_STATE 0
      (((s1.wf (a_PVC_DOM d) f_PVC_DOM_DEFERRED 0).depChain d).domainSetEnd d).settleDom d)

/-! ### Waking (R497–R500) -/

/-- Can power-good still arrive in the wake attempt under way (R497, R499): within 20 µs of the first, or of the second, which begins 30 µs after it? -/
def State.wakeOpen (s : State) (d : Nat) : Bool :=
  let first := smGet (fun _ => 0) s.pwr.firstMt d
  !s.mtRuns || (if smGet (fun _ => 0) s.pwr.attempts d ≤ 1 then decide (s.time.mt ≤ first + 20000) else decide (first + 30000 ≤ s.time.mt) && decide (s.time.mt ≤ first + 50000))

/-- POWER_GOOD (R497 steps 2–4): reset is released, the unit runs on FIC and its PLL starts. A core's threads start (R343), which places its DEP vote, and interrupts pending in their records ring again; a spare waits for its state (18 R558). DEGRADED after a PLL failure clears here, at the wake that tries the PLL again (R500), without an event: the spec says neither when it clears nor how that is reported (01 R35; DESIGN CHOICE, notes/assumptions/110.md). -/
def execPowerGood (d : Nat) (s : State) : Host.Outcome State Fault Refusal :=
  .next (if 788 ≤ d || s.domState d != 1 || !s.wakeOpen d then s
    else
      let z (m : SMap Nat) : SMap Nat := smSet (fun _ => 0) m d 0
      let s1 := (s.wf (a_PVC_DOM d) f_PVC_DOM_STATE 2).updPwr (fun x =>
        { x with attempts := z x.attempts, firstMt := z x.firstMt, goodMt := smSet (fun _ => 0) x.goodMt d s.time.mt
                 unlocked := if hasPll d && !x.unlocked.contains d then x.unlocked ++ [d] else x.unlocked
                 pllFailed := x.pllFailed.filter (fun y => y != d)
                 granted := smSet (fun _ => 48) x.granted d 48, glide := smSet (fun _ => Glide.still) x.glide d Glide.still })
      let bells (s : State) : State := [0, 1, 2, 3].foldl (fun s k =>
        match s.loadedOn (4 * s.lcoreOf d + k) with | some r => if r.prio != 0 then s.ringBell (4 * s.lcoreOf d + k) else s | none => s) s
      let s2 := if d < 224 && s.ras.sparing.all (fun x => x.spare != d || x.moved) then (bells s1).coreDep d else s1
      ((s2.depChain d).domainSetEnd d).settleDom d)

/-- A record of a domain that goes to the Secure Event Queue as well while the domain holds the SEC vote (R509). -/
def State.pwrEv (s : State) (typ sev d w2 w3 : Nat) : State :=
  let r : EvRec := ⟨typ, sev, d, 0, s.time.mt, BitVec.ofNat 64 w2, BitVec.ofNat 64 w3⟩
  let s1 := s.post 1 r
  if (s.votes d).testBit 0 then s1.offer 0 r else s1

/-- A core's domain has failed: the next spare of its tile is woken in its place, or its position is marked failed (R499, 01 R36). Before DONE of a cold boot the map is not yet written: it comes to stand in the boot order of 01 R36 with the spare in service, and SPARING_GEN stays 0 (20 R600; DEDUCED, notes/assumptions/101.md). -/
def State.coreWakeFails (s : State) (d : Nat) : State :=
  match s.ras.sparing.find? (fun x => x.spare == d && !x.moved) with
  | some x =>
    let s1 := (((s.updRas (fun r => { r with sparing := r.sparing.filter (fun y => y.old != x.old) })).setVote d 3 false).coreDep d).wf (a_STP_RAS_STAT d) f_STP_RAS_STAT_CORE_STATE 2
    (match s.pickSpare x.old with
     | none => s1.retireCore x.old x.cause 1 x.since
     | some p => (s1.updRas (fun r => { r with sparing := r.sparing ++ [{ x with spare := p }] })).setVote p 3 true |> fun y => if x.cause = 4 then y else y.coreDep p)
  | none =>
    if s.rf a_GAL_BOOT_STAT f_GAL_BOOT_STAT_STAGE = 8 then s.startSparing d 4 []
    else
      match s.pickSpare d with
      | some p =>
        let s1 := if s.boot.warm then s.spareMap (s.lcoreOf d) p d
          else State.rebuiltMap { s with coreMap := s.coreMap.map (fun e => if e.phys == d then ⟨d, .failed⟩ else if e.phys == p then ⟨p, .active⟩ else e) }
        let s2 := (s1.wf (a_STP_RAS_STAT p) f_STP_RAS_STAT_CORE_STATE 0).wf (a_STP_RAS_STAT d) f_STP_RAS_STAT_CORE_STATE 2
        (s2.wf (a_PVC_HYP_VOTE p) f_PVC_HYP_VOTE_VOTE 1).setVote p 1 true
      | none =>
        (if s.boot.warm then s.rewriteMap (s.lcoreOf d) ⟨d, .failed⟩ (s.coreMap.drop s.activeCores)
         else State.rebuiltMap { s with coreMap := s.coreMap.map (fun e => if e.phys == d then ⟨d, .failed⟩ else e) }).wf (a_STP_RAS_STAT d) f_STP_RAS_STAT_CORE_STATE 2

/-- The aqueduct n as a mesh element (01 R16). -/
def aqElem (n : Nat) : Elem := if n < 14 then ⟨0, stopAt n 7⟩ else if n < 30 then ⟨1, stopAt 6 (n - 14)⟩ else ⟨4, ioStops.getD (n - 30) 0⟩

/-- Severity of WAKE_FAILED by the kind of domain (R499). -/
def State.wakeSev (s : State) (d : Nat) : Nat :=
  if d < 224 then (if (s.pickSpare d).isNone then 6 else 2)
  else if d < 448 then 3
  else if d < 672 then 4
  else if d < 710 then 2
  else if d < 742 then (if s.rf a_MSH_MEM_CFG f_MSH_MEM_CFG_MIRROR = 1 then 2 else 3)
  else if d < 750 then (if s.hbmCached then 4 else 3)
  else if d < 784 then 3
  else 4

/-- The domain is FAILED (R499): recorded, reported, and acted on by its kind. Before DONE a failed slice or segment halts the boot instead (20 R600). -/
def State.wakeFails (s : State) (d : Nat) : State :=
  let sev := s.wakeSev d
  let w2 := d + 2 * 2 ^ 12
  let since := smGet (fun _ => 0) s.pwr.firstMt d
  let s1 := (s.wf (a_PVC_DOM d) f_PVC_DOM_STATE 4).logArea
  let s2 := if sev = 6 then s1.replaceBit 0 else s1
  let fatal := sev == 4 && (decide (784 ≤ d) || decide (d < 672)) && s.rf a_GAL_BOOT_STAT f_GAL_BOOT_STAT_STAGE == 8
  let s3 := if fatal then
      let x := s2.fatal 0x0101 d w2 since
      if (s.votes d).testBit 0 then x.offer 0 ⟨0x0101, sev, d, 0, s.time.mt, BitVec.ofNat 64 w2, BitVec.ofNat 64 since⟩ else x
    else s2.pwrEv 0x0101 sev d w2 since
  let links (s : State) (p : Nat) : State :=
    (List.range 4).foldl (fun s l => if s.linkExists p l then s.hostEv 0x0703 0 (portSource p) 0 (l + 5 * 2 ^ 8) 0 else s) s
  let s4 :=
    if d < 224 then s3.coreWakeFails d
    else if d < 448 then s3
    else if 448 ≤ d && d < 672 then s3
    else if d < 710 then s3.elemFails (aqElem (d - 672)) since
    else if d < 726 then s3.chFail (d - 710) 3
    else if d < 742 then s3.chFail (d - 726) 3
    else if d < 750 then (List.range 32).foldl (fun s pc => s.pcFail ((d - 742) % 4) pc 3) s3
    else if d < 758 then links s3 (d - 750)
    else if d < 766 then links s3 (d - 758)
    else if d < 768 then links s3 8
    else if d < 784 then ((List.range 8).filter (fun k => !(s3.brg (8 * (d - 768) + k)).mans.isEmpty)).foldl (fun s k => s.brgError (8 * (d - 768) + k)) s3
    else s3
  s4.domainSetEnd d

/-- WAKE_TIMEOUT (R499): no power-good 20 µs after the first attempt began: a second one starts 10 µs later; 50 µs after the first, the domain has failed. -/
def execWakeTimeout (d : Nat) (s : State) : Host.Outcome State Fault Refusal :=
  let first := smGet (fun _ => 0) s.pwr.firstMt d
  .next (if 788 ≤ d || s.domState d != 1 then s
    else if smGet (fun _ => 0) s.pwr.attempts d ≤ 1 then
      (if s.notYet (first + 20000) then s else s.updPwr (fun x => { x with attempts := smSet (fun _ => 0) x.attempts d 2 }))
    else if s.notYet (first + 50000) then s
    else s.tick.wakeFails d)

/-- PLL_LOCK (R498): the domain's PLL has locked. -/
def execPllLock (d : Nat) (s : State) : Host.Outcome State Fault Refusal :=
  .next (if !s.pwr.unlocked.contains d || s.pwr.pllFailed.contains d || s.pwr.refLost.isSome || !s.domOn d then s
    else s.updPwr (fun x => { x with unlocked := x.unlocked.filter (fun y => y != d) }))

/-- PLL_LOCK_FAILED (R500): no lock 100 µs after power-good; the domain stays on FIC. -/
def execPllLockFailed (d : Nat) (s : State) : Host.Outcome State Fault Refusal :=
  .next (if !s.pwr.unlocked.contains d || s.pwr.pllFailed.contains d || !s.domOn d || s.notYet (smGet (fun _ => 0) s.pwr.goodMt d + 100000) then s
    else (s.updPwr (fun x => { x with pllFailed := x.pllFailed ++ [d] })).pwrEv 0x0102 2 d d 0)

/-! ### SYS_REFCLK (R501) -/

/-- CLOCK_REF_LOST: every domain on a PLL moves to FIC. In stage 4 or 5 of a boot, the boot returns to stage 2 (20 R601). -/
def execClockRefLost (s : State) : Host.Outcome State Fault Refusal :=
  .next (if s.pwr.refLost.isSome then s
    else
      let s1 := (s.updPwr (fun x => { x with refLost := some s.time.mt })).wf a_PVC_STAT f_PVC_STAT_SYSREF_OK 0
      let st := s.rf a_GAL_BOOT_STAT f_GAL_BOOT_STAT_STAGE
      if st < 3 then s1
      else
        let s2 := if st = 4 || st = 5 then { (s1.wf a_GAL_BOOT_STAT f_GAL_BOOT_STAT_STAGE 2).wf a_GAL_HEALTH f_GAL_HEALTH_STATE 3 with boot := { s1.boot with clearing := false } } else s1
        s2.hostEv 0x0103 2 1000 0 0 0)

/-- CLOCK_REF_RESTORED: the PLLs relock, and every domain whose clock selection names its PLL returns to it. -/
def execClockRefRestored (s : State) : Host.Outcome State Fault Refusal :=
  .next (match s.pwr.refLost with
    | none => s
    | some m =>
      let s1 := (s.updPwr (fun x => { x with refLost := none })).wf a_PVC_STAT f_PVC_STAT_SYSREF_OK 1
      if s.rf a_GAL_BOOT_STAT f_GAL_BOOT_STAT_STAGE < 3 then s1 else s1.hostEv 0x0104 0 1000 0 0 (s.time.mt - m))

/-! ### The switch budget (R503) -/

/-- SWITCH_TOKEN: a token for every bucket that is not full; a deferred switch-off proceeds when no vote is held, in HOST_DIRECT when DEP is not (R504). -/
def execSwitchToken (s : State) : Host.Outcome State Fault Refusal :=
  .next ((List.range 788).foldl (fun s d =>
    let t := s.rf (a_PVC_DOM d) f_PVC_DOM_TOKENS
    if 10000 ≤ t then s
    else
      let s1 := s.wf (a_PVC_DOM d) f_PVC_DOM_TOKENS (t + 1)
      if s1.rf (a_PVC_DOM d) f_PVC_DOM_DEFERRED = 1 && s1.domState d == 2 then (if s1.votes d = 0 || (!s1.byVotes d && !(s1.votes d).testBit 4) then s1.startOff d else s1) else s1) s)

/-- The counts copied to the Logbook. -/
def State.wearCopy (s0 : State) : State :=
  let s := s0.logArea
  { s with ev := { s.ev with log := { s.ev.log with switches := (List.range 788).foldl (fun m d => smSet (fun _ => 0) m d (s.rf (a_PVC_WEAR d) f_PVC_WEAR_SWITCHES)) s.ev.log.switches } } }

/-- WEAR_COPY. -/
def execWearCopy (s : State) : Host.Outcome State Fault Refusal := .next s.wearCopy

/-! ### HOST_DIRECT and the power commands (R504, R505) -/

/-- POWER_STATUS. -/
def execPowerStatus (r : Nat) (s : State) : Host.Outcome State Fault Refusal :=
  .next (s.galNow r 0x0101 (fun s c =>
    let d := c.par 1 0 12
    if 787 < d then (s, gBadParam) else if domAbsent s.variant d then (s, gAbsent) else (s, ⟨0, s.domReg d, s.reg (a_PVC_WEAR d)⟩)))

/-- The DEP votes of the LLC slices, which they hold outside HOST_DIRECT. -/
def State.sliceDep (s : State) (on : Bool) : State :=
  (List.range 224).foldl (fun s k =>
    let v := s.votes (448 + k)
    s.wf (a_PVC_DOM (448 + k)) f_PVC_DOM_VOTES (if on then (if v.testBit 4 then v else v + 16) else (if v.testBit 4 then v - 16 else v))) s

/-- HOST_DIRECT record. -/
def State.hostDirectEv (s : State) (enter : Bool) (ring : Nat) : State := s.hostEv 0x0107 0 1000 0 (enter.toNat + ring * 2) 0

/-- HOST_DIRECT_ENTER. -/
def State.directEnter (s : State) (c : GalCmd) : State × GalRes :=
  if s.hostDirect then (s, gBusy)
  else (((((s.sliceDep false).updPwr (fun x => { x with direct := [] })).wf a_PVC_STAT f_PVC_STAT_HOST_DIRECT 1).wf a_PVC_STAT f_PVC_STAT_RING c.ring).hostDirectEv true c.ring, gDone)

/-- HOST_DIRECT_ENTER. -/
def execHostDirectEnter (r : Nat) (s : State) : Host.Outcome State Fault Refusal := .next (s.tick.galNow r 0x0102 State.directEnter)

/-- HOST_DIRECT_EXIT: every domain takes the state its votes give; switches still commanded end where they stand. -/
def State.directExit (s : State) (_ : GalCmd) : State × GalRes :=
  if !s.hostDirect then (s, gBadParam)
  else
    let ring := s.rf a_PVC_STAT f_PVC_STAT_RING
    let s1 := (((s.sliceDep true).updPwr (fun x => { x with direct := [] })).wf a_PVC_STAT f_PVC_STAT_HOST_DIRECT 0).wf a_PVC_STAT f_PVC_STAT_RING 0
    let s2 := [0, 1, 3].foldl (fun s r => s.galFinish r 0x0104 (fun s c => some (s, { gDone with w2 := BitVec.ofNat 64 (s.domState (c.par 1 0 12)) }))) s1
    (((List.range 788).foldl (fun s d => s.followVotes d) s2).hostDirectEv false ring, gDone)

/-- HOST_DIRECT_EXIT. -/
def execHostDirectExit (r : Nat) (s : State) : Host.Outcome State Fault Refusal := .next (s.tick.galNow r 0x0103 State.directExit)

/-- DOMAIN_SET, its checks in the order of 17 R527. A held spare stays off whatever is asked (R491), and its STATE says so. -/
def State.domainSet (s : State) (c : GalCmd) : GalOut :=
  let d := c.par 1 0 12
  let on := c.par 1 12 1 == 1
  let st := s.domState d
  let done (s : State) : GalOut := .res s { gDone with w2 := BitVec.ofNat 64 (s.domState d) }
  if 787 < d then .res s gBadParam
  else if st = 5 then .res s gAbsent
  else if c.ring = 1 && (s.votes d).testBit 0 then .res (s.secViol 1000 0 2 1 6 d) gDenied
  else if !s.hostDirect then .res s gBadParam
  else if st = 4 then .res s { gFailed with w2 := 4 }
  else
    let s1 := s.updPwr (fun x => { x with direct := (x.direct.filter (fun y => y.1 != d)) ++ [(d, on)] })
    if on then
      if st = 2 then done (s1.wf (a_PVC_DOM d) f_PVC_DOM_DEFERRED 0)
      else if st = 3 then done (s1.wf (a_PVC_DOM d) f_PVC_DOM_STATE 2)
      else if st = 0 then (if s.domHeldSpare d then done s else .later (s1.startWake d))
      else .later s1
    else if st = 0 then done s1
    else if (s.votes d).testBit 4 then .res s gBusy
    else if s.rf (a_PVC_DOM d) f_PVC_DOM_TOKENS = 0 then .res s gNoRes
    else if st = 2 then .later (s1.startOff d)
    else .later s1

/-- DOMAIN_SET. -/
def execDomainSet (r : Nat) (s : State) : Host.Outcome State Fault Refusal := .next (s.tick.galDo r 0x0104 State.domainSet)

/-- POWER_CAP_SET: the package limit, 650–1000 W. -/
def execPowerCapSet (r : Nat) (s : State) : Host.Outcome State Fault Refusal :=
  .next (s.galNow r 0x0110 (fun s c =>
    let l := c.par 1 0 11
    if l < 650 || 1000 < l then (s, gBadParam)
    else (s.wf a_PVC_STAT f_PVC_STAT_LIMIT l, { gDone with w2 := BitVec.ofNat 64 (s.rf a_PVC_STAT f_PVC_STAT_LIMIT) })))

/-- POWER_CAP_STATUS. -/
def execPowerCapStatus (r : Nat) (s : State) : Host.Outcome State Fault Refusal :=
  .next (s.galNow r 0x0111 (fun s _ =>
    (s, ⟨0, BitVec.ofNat 64 (s.rf a_PVC_STAT f_PVC_STAT_LIMIT + s.pwr.measured % 2048 * 2 ^ 16), BitVec.ofNat 64 (s.rf a_PVC_STAT f_PVC_STAT_CAP)⟩)))

/-! ### Frequency and the power cap (R506–R508) -/

/-- Is the core at a stop a running core of R506: its domain on and a thread not suspended by WAIT? -/
def State.coreBusy (s : State) (p : Nat) : Bool :=
  s.domState p == 2 && s.coreMap.any (fun e => e.phys == p && e.st == .active) &&
    ([0, 1, 2, 3].any (fun k => !(s.thr (4 * s.lcoreOf p + k)).waiting))

/-- Ceiling of R506's table in 25 MHz units, by running cores of the tile and the core's long-vector domain. -/
def tileCeil (n : Nat) (lv : Bool) : Nat :=
  if n ≤ 4 then (if lv then 112 else 132) else if n ≤ 12 then (if lv then 100 else 120) else if n ≤ 28 then (if lv then 88 else 104) else if lv then 80 else 92

/-- Thermal ceiling of a tile (21 R617). -/
def State.thermCeil (s : State) (t : Nat) : Nat := fld (s.reg a_GAL_THERM) (8 * t) 8

/-- The frequency the core at a stop is granted: the least of FREQ_REQ, its tile's ceiling, CAP and the thermal ceiling, never below 0.8 GHz. -/
def State.grantOf (s : State) (p : Nat) : Nat :=
  let n := ((List.range 56).filter (fun k => s.coreBusy (56 * (p / 56) + k))).length
  max 32 (min (min (fld (s.core p).clksel 8 8) (tileCeil n (s.domOn (224 + p)))) (min (s.rf a_PVC_STAT f_PVC_STAT_CAP) (s.thermCeil (p / 56))))

/-- The glide of a core's PLL after a recomputation grants it g (R507): a core on FIC has its PLL at 1.2 GHz; a fall begins at once, a rise when the tile's rail has settled, at most 50 µs later, which is a free choice. -/
def State.glideTo (s : State) (p g : Nat) : Glide :=
  let now := s.pllFreq p
  let old := smGet (fun _ => Glide.still) s.pwr.glide p
  if !s.coreOnPll p then Glide.still
  else if old.dst = g then old
  else ⟨now, g, s.time.ticks + (if now < g then Config.pick s.freeCtr (7000 + p / 56) % 50001 else 0)⟩

/-- FREQUENCY_RECOMPUTE (R507), once per millisecond of MT: every core that is on is granted the frequency of R506 and its PLL glides to it. -/
def execFrequencyRecompute (s : State) : Host.Outcome State Fault Refusal :=
  let ms := s.time.mt / 1000000 + 1
  let on := (List.range 224).filter (fun p => s.domState p == 2)
  .next (if s.gal.restart.isSome || !s.running || (s.mtRuns && decide (ms ≤ s.pwr.freqMs)) then s
    else s.tick.updPwr (fun x => { x with
      freqMs := ms
      granted := on.foldl (fun m p => smSet (fun _ => 48) m p (s.grantOf p)) x.granted
      glide := on.foldl (fun m p => smSet (fun _ => Glide.still) m p (s.glideTo p (s.grantOf p))) x.glide }))

/-- POWER_CAP_LOOP (R508), once per millisecond of MT, with the package power averaged over it in W; suspended while the Lengthsman restarts (17 R516). -/
def execPowerCapLoop (p : Nat) (s : State) : Host.Outcome State Fault Refusal :=
  let ms := s.time.mt / 1000000 + 1
  .next (if s.gal.restart.isSome || !s.running || (s.mtRuns && decide (ms ≤ s.pwr.capMs)) then s
    else
      let cap := s.rf a_PVC_STAT f_PVC_STAT_CAP
      let lim := s.rf a_PVC_STAT f_PVC_STAT_LIMIT
      let s1 := s.updPwr (fun x => { x with measured := p, capMs := ms })
      if lim < p then
        let s2 := s1.wf a_PVC_STAT f_PVC_STAT_CAP (max 32 (cap - 1 - (p - lim) / 10))
        if cap = 32 && (match s.pwr.capUnmet with | some m => !s.notYet (m + 1000000000) | none => true) then
          (s2.updPwr (fun x => { x with capUnmet := some s.time.mt })).hostEv 0x0106 0 1000 0 lim p
        else s2
      else if p + 20 < lim && cap < 132 then s1.wf a_PVC_STAT f_PVC_STAT_CAP (cap + 1)
      else s1)

end Sys2Proof.Machine
end

