-- ==== Sys2Proof/Machine/Lengthsman.lean ====
section
/-! DEFINITION. The Lengthsman: its Galley commands, firmware staging, the management port, its restart, the Towpath (spec/17_lengthsman_galley.md R516–R521, R532–R534; spec/01_architecture.md R18; spec/11_tenancy.md R343; spec/18_ras.md R570–R573; spec/20_power_up_boot.md R593). -/
namespace Sys2Proof.Machine

/-! ### Plain commands (R532) -/

/-- NOP: w2 and w3 are copies of w1 and w2. -/
def execNop (r : Nat) (s : State) : Host.Outcome State Fault Refusal :=
  .next (s.galNow r 0x0001 (fun s c => (s, ⟨0, c.word 1, c.word 2⟩)))

/-- Address, prefix, gateway and services of the management port: the defaults of R519 until NET_CONFIG. -/
def State.netOf (s : State) : NetCfg :=
  s.gal.net.getD ⟨169 * 2 ^ 24 + 254 * 2 ^ 16 + (natField deviceId 8 8 % 254 + 1) * 2 ^ 8 + natField deviceId 0 8, 16, 0, true, false, 0, 0⟩

/-- NET_CONFIG (R519): the new configuration is kept; a changed address is announced. -/
def execNetConfig (r : Nat) (s : State) : Host.Outcome State Fault Refusal :=
  .next (s.galNow r 0x0002 (fun s c =>
    if 32 < c.par 1 32 6 then (s, gBadParam)
    else
      let n : NetCfg := ⟨c.par 1 0 32, c.par 1 32 6, c.par 2 0 32, c.par 1 40 1 == 1, c.par 1 41 1 == 1, c.par 3 0 32, c.par 3 32 16⟩
      let tx : List NetTx := if n.ipv4 = s.netOf.ipv4 then [] else [.announce n.ipv4]
      ((s.updGal (fun g => { g with net := some n, sent := g.sent ++ tx })).logArea, gDone)))

/-- CORE_STATUS: the core-map entry and CLKSEL of the core TARGET names. -/
def execCoreStatus (r : Nat) (s : State) : Host.Outcome State Fault Refusal :=
  .next (s.galNow r 0x0201 (fun s c =>
    let l := s.lcoreOf c.target
    let st := match (s.mapEnt l).st with | .active => 0 | .spare => 1 | .failed => 2 | .fusedOff => 3
    (s, ⟨0, BitVec.ofNat 64 (c.target + l * 2 ^ 16 + st * 2 ^ 24), s.clkselOf c.target (s.core c.target).clksel⟩)))

/-- A core reset (11 R343): retired stores drain, the caches empty, the router unloads the records of the four threads, whose IRT_THR then reads V 0 (R347), and discards their physical INTIDs, and the threads start anew. -/
def State.coreResetNow (s : State) (p : Nat) : State :=
  let l := s.lcoreOf p
  let s1 := [0, 1, 2, 3].foldl (fun s k => s.flushStores (4 * l + k)) s
  let s2 := ({ s1 with coh := s1.coh.emptyStop s1.env p }).drainEvs { core := some p } .none
  let s3 := [0, 1, 2, 3].foldl (fun s k => ((((s.returnTake (4 * l + k)).recUnload (4 * l + k)).wf (a_IRT_THR (4 * l + k)) f_IRT_THR_V 0).setPhys (4 * l + k) 0).endExpress (4 * l + k) (fun _ => true)) s2
  let s4 := s3.resetCore p
  if s4.domOn p then s4.coreDep p else s4

/-- CORE_RESET. -/
def execCoreReset (r : Nat) (s : State) : Host.Outcome State Fault Refusal :=
  .next (s.tick.galNow r 0x0202 (fun s c =>
    if c.ring = 1 && (s.votes c.target).testBit 0 then (s, gDenied)
    else if !s.coreActive c.target then (s, gBusy)
    else (s.coreResetNow c.target, gDone)))

/-- CHIP_RESET: the proof is written 10 µs before the reset begins. -/
def execChipReset (r : Nat) (s : State) : Host.Outcome State Fault Refusal :=
  .next (s.galNow r 0x0210 (fun s c =>
    let at' := some (s.time.mt + 10000)
    (if c.par 1 0 1 = 0 then { s with ev := { s.ev with fatalAt := s.ev.fatalAt.or at' } } else { s with boot := { s.boot with coldAt := s.boot.coldAt.or at' } }, gDone)))

/-- Does a SENSOR exist, and is its unit present (R533)? -/
def State.sensorAt (s : State) (n : Nat) : Option Bool :=
  if n ≤ 9 then some true
  else if inRange n 0x100 224 then some true
  else if inRange n 0x200 16 then some (ddrPresent s.variant (n - 0x200))
  else if inRange n 0x300 4 then some (Config.hasHbm s.variant)
  else none

/-- TELEMETRY_READ (R533): the sample the sensor last took comes with the command. -/
def execTelemetryRead (r : Nat) (value mt : BitVec 64) (s : State) : Host.Outcome State Fault Refusal :=
  .next (s.galNow r 0x0601 (fun s c =>
    match s.sensorAt (c.par 1 0 16) with
    | none => (s, gBadParam)
    | some false => (s, gAbsent)
    | some true => (s, ⟨0, value, mt⟩)))

/-! ### The Logbook (18 R570–R573) -/

/-- CRC-32 of bytes, reflected polynomial 0xEDB88320 (notes/assumptions/30.md). -/
def crc32 (bs : List Byte) : Nat :=
  let step (c : BitVec 32) (_ : Nat) : BitVec 32 := if c.getLsbD 0 then (c >>> 1) ^^^ 0xEDB88320#32 else c >>> 1
  (~~~(bs.foldl (fun c b => (List.range 8).foldl step (c ^^^ b.setWidth 32)) (BitVec.allOnes 32))).toNat

/-- The 64 bytes of a journal record (18 R571). -/
def JournalRec.bytes (j : JournalRec) : List Byte :=
  let b := j.ev.bytes j.seq ++ leBytes 8 (j.cold + j.warm * 2 ^ 32) ++ leBytes 8 j.kind ++ leBytes 8 j.detail
  b ++ leBytes 4 (crc32 b) ++ leBytes 4 0x4C4F4742

/-- LOGBOOK_INFO: the records retained and the wear. -/
def execLogbookInfo (r : Nat) (s : State) : Host.Outcome State Fault Refusal :=
  .next (s.galNow r 0x0701 (fun s _ => (s, ⟨0, BitVec.ofNat 64 s.ev.log.journal.length, BitVec.ofNat 64 (min 100 s.ev.log.wear)⟩)))

/-- LOGBOOK_READ: 16 bytes of a record; index 0 is the oldest retained. -/
def execLogbookRead (r : Nat) (s : State) : Host.Outcome State Fault Refusal :=
  .next (s.galNow r 0x0702 (fun s c =>
    match s.ev.log.journal[c.par 1 0 32]? with
    | none => (s, gBadParam)
    | some j =>
      let b := j.bytes.drop (16 * c.par 1 32 2)
      (s, ⟨0, BitVec.ofNat 64 (leVal (b.take 8)), BitVec.ofNat 64 (leVal ((b.drop 8).take 8))⟩)))

/-! ### Firmware staging (R532, R534; 20 R593) -/

/-- FW_STAGE_BEGIN. -/
def execFwStageBegin (r : Nat) (s : State) : Host.Outcome State Fault Refusal :=
  .next (s.galNow r 0x0801 (fun s c =>
    let len := c.par 1 32 20
    if c.par 1 0 2 = 3 || len = 0 then (s, gBadParam)
    else if s.gal.stage.any (fun x => x.ring != c.ring) then (s, gBusy)
    else (s.updGal (fun g => { g with stage := some ⟨c.ring, c.par 1 0 2, len, [], none⟩ }), gDone)))

/-- FW_STAGE_DATA: 48 bytes at an offset. -/
def execFwStageData (r : Nat) (s : State) : Host.Outcome State Fault Refusal :=
  .next (s.galNow r 0x0802 (fun s c =>
    let off := c.par 1 0 20
    match s.gal.stage with
    | none => (s, if off % 48 = 0 then gBusy else gBadParam)
    | some x =>
      if x.ring != c.ring then (s, gDenied)
      else if off % 48 != 0 || x.length ≤ off then (s, gBadParam)
      else
        let bs := ([2, 3, 4, 5, 6, 7].flatMap (fun k => leBytes 8 (c.word k).toNat)).take (x.length - off)
        (s.updGal (fun g => { g with stage := some { x with bytes := putBytes x.bytes off bs } }), gDone)))

/-- FW_STAGE_COMMIT: the staging closes and its image goes to verification. -/
def execFwStageCommit (r : Nat) (s : State) : Host.Outcome State Fault Refusal :=
  .next (s.galNow r 0x0803 (fun s c =>
    match s.gal.stage with
    | none => (s, gBusy)
    | some x =>
      if x.ring != c.ring then (s, gDenied)
      else (s.updGal (fun g => { g with stage := none, verify := g.verify ++ [{ x with commit := some c.tag }] }), gAccepted)))

/-- A slot of the flash. -/
def BootSt.slot (b : BootSt) (k : Nat) : FlashSlot := if k = 0 then b.slotA else b.slotB
/-- Replace a slot. -/
def BootSt.setSlot (b : BootSt) (k : Nat) (x : FlashSlot) : BootSt := if k = 0 then { b with slotA := x } else { b with slotB := x }

/-- The valid component of a TYPE in a slot (20 R593): exactly one, not below ROLLBACK, both signatures good under the keys its TYPE and LIFECYCLE name. -/
def State.compOf (s : State) (x : FlashSlot) (typ : Nat) : Option FlashComp :=
  match x.comps.filter (fun c => c.typ == typ) with
  | [c] =>
    let life := s.rf a_TOL_CTL f_TOL_CTL_LIFECYCLE
    let sig := if typ ≤ 2 || life = 2 then c.keys.contains 1 else if s.tol.ownerKeys then c.keys.contains (2 * s.tol.ownerHash.toNat) else life == 0
    if s.tol.rollback ≤ c.rbMin && sig then some c else none
  | _ => none

/-- Is a slot valid: one valid component of each type? -/
def State.slotOk (s : State) (x : FlashSlot) : Bool := [1, 2, 3, 4].all (fun t => (s.compOf x t).isSome)

/-- The valid slot with the higher GEN; slot A when equal (20 R593). -/
def State.newestSlot (s : State) : Option Nat :=
  match s.slotOk s.boot.slotA, s.slotOk s.boot.slotB with
  | true, true => some (if s.boot.slotA.gen < s.boot.slotB.gen then 1 else 0)
  | true, false => some 0
  | false, true => some 1
  | false, false => none

/-- An accepted firmware image is written into the slot not booted from at the last cold boot; the other components come from the valid slot with the higher GEN (20 R593). -/
def State.writeImage (s : State) (typ version rbMin : Nat) : State :=
  let k := 1 - s.boot.tolSlot
  let src := (s.boot.slot (s.newestSlot.getD s.boot.tolSlot)).comps.filter (fun c => c.typ != typ)
  let gen := max s.boot.slotA.gen s.boot.slotB.gen + 1
  { s with boot := s.boot.setSlot k ⟨gen, ⟨typ, version, rbMin, [1], 0, 0, []⟩ :: src⟩ }

/-- OWNER_KEYS of an owner-key image (15 R465): the SHA-384 hashes of its two public keys, 96 and 2,592 bytes long (notes/assumptions/125.md). -/
def ownerHashes (image : List Byte) : BitVec 768 := BitVec.ofNat 768 (leVal (sha384 (image.take 96) ++ sha384 ((image.drop 96).take 2592)))

/-- FW_VERIFY_DONE (R534): verification of the oldest committed image ends. What the Tollhouse finds in it comes with the command: its version, its ROLLBACK_MIN, and whether its signatures verify. An owner-key image lets a boot halted with HALT 7 go on (20 R600). -/
def execFwVerifyDone (version rbMin : Nat) (ok : Bool) (s : State) : Host.Outcome State Fault Refusal :=
  match s.gal.verify with
  | [] => .next s
  | x :: rest =>
    let s1 := s.updGal (fun g => { g with verify := rest })
    let tag := x.commit.getD 0
    if !ok then .next (s1.galResult x.ring 0x0803 tag 0x20 0)
    else if x.image = 2 then
      (if s.tol.ownerKeys then .next (s1.galResult x.ring 0x0803 tag 0x12 0)
       else
         let s2 := { s1 with tol := { s1.tol with ownerKeys := true, ownerHash := ownerHashes ((List.range x.length).map (smGet (fun _ => 0) x.bytes)) } }
         let s3 := if s2.rf a_GAL_BOOT_STAT f_GAL_BOOT_STAT_HALT = 7 then s2.wf a_GAL_BOOT_STAT f_GAL_BOOT_STAT_HALT 0 else s2
         .next (s3.galResult x.ring 0x0803 tag 0 0))
    else if rbMin < s.tol.rollback then .next (s1.galResult x.ring 0x0803 tag 0x12 0)
    else .next ((s1.writeImage (if x.image = 0 then 2 else 1) (version % 2 ^ 32) (rbMin % 64)).galResult x.ring 0x0803 tag 0 0)

/-- Does an accepted image wait for a reset: the firmware of the newest slot is not what runs? -/
def State.fwStaged (s : State) : Bool :=
  match s.newestSlot with
  | none => false
  | some k =>
    let ver (j t : Nat) : Option FlashComp := s.compOf (s.boot.slot j) t
    ver k 1 != ver s.boot.tolSlot 1 || ver k 2 != ver s.boot.lenSlot 2

/-- FW_STATUS. -/
def execFwStatus (r : Nat) (s : State) : Host.Outcome State Fault Refusal :=
  .next (s.galNow r 0x0804 (fun s _ =>
    (s, ⟨0, BitVec.ofNat 64 (s.boot.lenVer + s.boot.tolVer * 2 ^ 32),
      BitVec.ofNat 64 (s.tol.rollback + s.fwStaged.toNat * 2 ^ 8 + s.tol.ownerKeys.toNat * 2 ^ 9)⟩)))

/-! ### Snapshots and counters (R532) -/

/-- SNAPSHOT_NOW: a SNAPSHOT passage that uses no berth; it is answered when its snapshot is complete. -/
def execSnapshotNow (r : Nat) (s : State) : Host.Outcome State Fault Refusal :=
  .next (s.galDo r 0x0A01 (fun s c =>
    let f := snapFire c
    if !s.mtRuns || f < s.time.mt then .res s gLate
    else .later ((s.updLkp (fun x => { x with passages := x.passages ++ [⟨none, f, 2, 0, none⟩] })).wf a_LKP_SNAP_STAT f_LKP_SNAP_STAT_PENDING 1)))

/-- Registers that are counters or shadows. -/
def counterNames : List String :=
  ["IRT_CNT_COALESCED", "IRT_SHD_COALESCED", "PVC_CNT_DEFERRED", "PVC_SHD_DEFERRED", "STP_PMU_SHD", "STP_PMU_SHD_CYC", "STP_PMU_SHD_RET",
   "STP_PMU_CNT", "STP_PMU_CNT_CYC", "STP_PMU_CNT_RET", "UNC_CNT_SL", "UNC_SHD_SL", "UNC_CNT_DMC", "UNC_SHD_DMC", "UNC_CNT_HMC", "UNC_SHD_HMC",
   "UNC_CNT_AQ", "UNC_SHD_AQ", "UNC_CNT_RPT", "UNC_SHD_RPT", "UNC_CNT_WHF", "UNC_SHD_WHF", "UNC_CNT_BRG", "UNC_SHD_BRG"]

/-- Is a CCS offset that of a counter or a shadow (19 R578, R581, R582)? -/
def counterAt (off : Nat) : Bool :=
  match findReg off with
  | some (r, b) => b == 0 && counterNames.contains r.name
  | none => false

/-- COUNTER_READ: under the page check of the ring's world (15 R458). -/
def execCounterRead (r : Nat) (s : State) : Host.Outcome State Fault Refusal :=
  .next (s.galNow r 0x0A02 (fun s c =>
    let off := (c.word 1).toNat
    if !counterAt off then (s, gBadParam)
    else if (s.absentAt off).isSome then (s, gAbsent)
    else if s.pageSecure off && !ringSec c.ring then (s.secViol (pageSource off) 0 2 c.ring 1 off, gDone)
    else (s, { gDone with w2 := s.counterReg off })))

/-! ### The management port (R518, R519) -/

/-- Does the port serve: the Lengthsman runs its firmware and is not restarting? -/
def State.portServes (s : State) : Bool := s.gal.restart.isNone && decide (2 ≤ s.rf a_GAL_BOOT_STAT f_GAL_BOOT_STAT_STAGE)

/-- One second of the Lengthsman's clock in 10 ns cycles. -/
def second : Nat := 1000000000

/-- GALLEY_DATAGRAM to UDP port 5186: one 64-byte packet is a SERVICE-ring command; a repeat within 1 s of the last one is answered with the stored proof. -/
def execGalleyDatagram (addr port : Nat) (bytes : List Byte) (s : State) : Host.Outcome State Fault Refusal :=
  .next (if !s.portServes || !s.netOf.galleyEn || bytes.length != 64 then s
    else
      let p : NetPeer := ⟨addr, port⟩
      let x := galParse bytes 2 s.time.ticks s.time.mt (some p)
      let recent (since : Nat) : Bool := decide (s.time.ticks < since + second)
      match s.gal.kept.find? (fun k => k.peer == p && k.tag == x.tag && recent k.since) with
      | some k => s.updGal (fun g => { g with sent := g.sent ++ [.udp addr port k.bytes], kept := (g.kept.erase k) ++ [{ k with since := s.time.ticks }] })
      | none => if s.gal.taken.any (fun c => c.net == some p && c.tag == x.tag && recent c.since) then s else s.galAccept x)

/-- ARP_REQUEST for an address, from a sender. -/
def execArpRequest (target sender : Nat) (s : State) : Host.Outcome State Fault Refusal :=
  .next (if s.portServes && target == s.netOf.ipv4 then s.updGal (fun g => { g with sent := g.sent ++ [.arp sender] }) else s)

/-- ICMP_ECHO to an address, from a sender. -/
def execIcmpEcho (target sender : Nat) (bytes : List Byte) (s : State) : Host.Outcome State Fault Refusal :=
  .next (if s.portServes && target == s.netOf.ipv4 then s.updGal (fun g => { g with sent := g.sent ++ [.echo sender bytes] }) else s)

/-- MGMT_LINK_UP: the address is announced. -/
def execMgmtLinkUp (s : State) : Host.Outcome State Fault Refusal :=
  .next (if s.portServes then s.updGal (fun g => { g with sent := g.sent ++ [.announce s.netOf.ipv4] }) else s)

/-! ### Restart (R516) and the Towpath (R521; 01 R18) -/

/-- LENGTHSMAN_FAULT: 1 a lockstep disagreement, 2 an uncorrectable SRAM error; the Lengthsman stops. -/
def execLengthsmanFault (cause : Nat) (s : State) : Host.Outcome State Fault Refusal :=
  .next (if s.gal.restart.isSome || cause = 0 || 2 < cause || s.rf a_GAL_BOOT_STAT f_GAL_BOOT_STAT_STAGE < 2 then s
    else (s.updGal (fun g => { g with restart := some (cause, s.time.mt) })).wf a_GAL_HEALTH f_GAL_HEALTH_STATE 2)

/-- LEN_RESTART: the restart is complete; the Lengthsman's taken commands are proved FAILED, and the record of a thermal trip that fell in it is written (21 R621). -/
def execLenRestart (s : State) : Host.Outcome State Fault Refusal :=
  .next (match s.gal.restart with
    | none => s
    | some (cause, since) =>
      let s0 := (s.boot.tripRec.elim s (fun r => s.journal r 0 1 0))
      let s1 := { s0.updGal (fun g => { g with restart := none }) with boot := { s0.boot with tripRec := none } }
      let st := if s.rf a_GAL_BOOT_STAT f_GAL_BOOT_STAT_STAGE = 8 then 1 else if s.pwr.refLost.isSome && s.rf a_GAL_BOOT_STAT f_GAL_BOOT_STAT_STAGE = 2 then 3 else 0
      let s2 := (s1.wf a_GAL_HEALTH f_GAL_HEALTH_STATE st).addSat a_GAL_HEALTH f_GAL_HEALTH_RESTARTS 1
      let s3 := (s2.gal.taken.filter (fun c => executorOf c.op == 0)).foldl (fun s c => s.galProve c gFailed) s2
      s3.hostEv 0x0006 2 1001 0 (s2.rf a_GAL_HEALTH f_GAL_HEALTH_RESTARTS + cause * 2 ^ 8) (s.time.mt - since))

/-- TOWPATH_BREAK of ring 0 or 1 at a node or the link after it: one broken ring leaves every node reachable by the other; once both are broken, no ring carries the traffic any more (DEDUCED, notes/assumptions/108.md). -/
def execTowpathBreak (ring node : Nat) (s : State) : Host.Outcome State Fault Refusal :=
  .next (if 1 < ring || 288 ≤ node || s.gal.breaks.contains (ring, node) then s
    else
      let s1 := s.updGal (fun g => { g with breaks := g.breaks ++ [(ring, node)] })
      let w2 := node + ring * 2 ^ 9
      if s.gal.breaks.any (fun b => b.1 != ring) then s1.fatal 0x0005 1001 w2 0 else s1.hostEv 0x0005 2 1001 0 w2 0)

/-- TOWPATH_CLOCK_SOURCE_FAIL: the Towpath goes on on the remaining sources; a second failure requests replacement (18 R568). -/
def execTowpathClockSourceFail (k : Nat) (s : State) : Host.Outcome State Fault Refusal :=
  .next (if !s.gal.clocks.contains k then s
    else
      let left := s.gal.clocks.filter (fun x => x != k)
      let s1 := s.updGal (fun g => { g with clocks := left })
      let w2 := left.foldl (fun m x => m ||| 2 ^ x) 0 + k * 2 ^ 4
      if left.length = 2 then s1.hostEv 0x0004 2 1001 0 w2 0 else s1.replaceReq 7 0x0004 1001 w2 0)

/-- LONG_VECTOR_IDLE_TIMEOUT (06 R154): 1 ms of MT after its last long-vector instruction retired, a core withdraws its DEP vote on its long-vector domain. -/
def execLongVectorIdleTimeout (stop : Nat) (s : State) : Host.Outcome State Fault Refusal :=
  .next (if 224 ≤ stop then s
    else match (s.core stop).lvLast with
      | some m => if s.time.mt < m + 1000000 then s else (s.updCore stop (fun c => { c with lvLast := none })).setVote (224 + stop) 4 false
      | none => s)

end Sys2Proof.Machine
end

