-- ==== Sys2Proof/Machine/Boot.lean ====
section
/-! DEFINITION. Resets of the whole chip and the boot: what a cold and a warm chip reset leave, the boot stages, the rails, halts, thermal control (spec/20_power_up_boot.md R590–R602; spec/21_package_electrical.md R605–R607, R617–R620; spec/09_memory.md R244–R247; spec/11_tenancy.md R342). -/
namespace Sys2Proof.Machine

/-- Change the boot state. -/
def State.updBoot (s : State) (f : BootSt → BootSt) : State := { s with boot := f s.boot }
/-- STAGE of the boot (R595). -/
def State.stage (s : State) : Nat := s.rf a_GAL_BOOT_STAT f_GAL_BOOT_STAT_STAGE
/-- HALT (R600). -/
def State.halt (s : State) : Nat := s.rf a_GAL_BOOT_STAT f_GAL_BOOT_STAT_HALT
/-- Enter a stage. -/
def State.setStage (s : State) (n : Nat) : State := s.wf a_GAL_BOOT_STAT f_GAL_BOOT_STAT_STAGE n
/-- The boot goes on: not halted, RESET_N high, RAIL_EN's hold of a commanded cold reset over (R607). -/
def State.booting (s : State) (n : Nat) : Bool := s.stage == n && s.halt == 0 && !s.boot.held && decide (s.boot.holdUntil ≤ s.time.ticks)
/-- A strap as sampled (R590): 0 WHARF_EP, 1 GOLDEN, 2 TIME_GATE, 3 MFG. -/
def State.strap (s : State) (i : Nat) : Bool := (s.rf a_GAL_BOOT_STAT f_GAL_BOOT_STAT_STRAPS).testBit i
/-- The boot halts (R600); the kept choice of slot is cleared (R593), and after HALT 3 RAIL_EN is low (21 R607). -/
def State.haltBoot (s : State) (h : Nat) : State :=
  (s.wf a_GAL_BOOT_STAT f_GAL_BOOT_STAT_HALT h).updBoot (fun b => { b with first := none, railEn := b.railEn && h != 3 })

/-! ### What a reset leaves (00 R10; 01 R35, R36; 11 R342; 18 R570; 20 R598, R599) -/

/-- Is an offset one of `count` registers `stride` apart from `base`? -/
def regsAt (base stride count off : Nat) : Bool := (idxAt off base stride count).isSome

/-- Registers whose contents resets restore from the Logbook or never lose: disabled ways, mesh faults and lanes, memory repairs, wear, replacement. -/
def keptAlways (off : Nat) : Bool :=
  regsAt (a_STP_CORE_CACHESTAT 0) 0x100000 224 off || regsAt (a_STP_LLC_WAYSTAT 0) 0x100000 224 off || regsAt (a_STP_DIR_STAT 0) 0x100000 224 off ||
  regsAt (a_MSH_FAULT 0) 8 8 off || regsAt (a_MSH_AQ_STAT 0) 0x10000 38 off || regsAt (a_DMC_RAS_STAT 0) 0x10000 16 off ||
  regsAt (a_HMC_RAS_STAT 0) 0x100000 4 off || off == a_GAL_REPLACE

/-- Registers a warm chip reset keeps besides: RWS registers, always-on domain 1000, and the memory map of the last cold boot. -/
def keptWarm (off : Nat) : Bool :=
  keptAlways off || regsAt (a_STP_LLC_CTL 0) 0x100000 224 off || regsAt (a_DMC_RAS_CTL 0) 0x10000 16 off || regsAt (a_HMC_RAS_CTL 0) 0x100000 4 off ||
  off == a_GAL_RAS_CTL || off == a_GAL_THERM || off == a_GAL_BOOT_STAT || off == a_GAL_HEALTH || inRange off 0x300000 0x100000 ||
  inRange off 0x400000 0x30000 || regsAt (a_MSH_NODE 0) 8 8 off ||
  regsAt (a_DMC_CFG 0) 0x10000 16 off || regsAt (a_HMC_CFG 0) 0x100000 4 off || off == a_TOL_CTL || off == a_TOL_WDOG_STAT

/-- What is kept of a register of `keptAlways`: way masks without DRAINING, no replay count, no busy walk, patrol at its start (09 R278, R283). -/
def State.trimKept (s : State) (warm : Bool) : State :=
  let s1 := (List.range 224).foldl (fun s p =>
    let s1 := s.wf (a_STP_LLC_WAYSTAT p) f_STP_LLC_WAYSTAT_DRAINING 0
    if warm then s1 else s1.wf (a_STP_CORE_CACHESTAT p) f_STP_CORE_CACHESTAT_AUTODIS_EN 1) s
  let s2 := (List.range 38).foldl (fun s n => s.wf (a_MSH_AQ_STAT n) f_MSH_AQ_STAT_REPLAYS 0) s1
  let s3 := (List.range 16).foldl (fun s c => (s.wf (a_DMC_RAS_STAT c) f_DMC_RAS_STAT_SUBST_BUSY 0).wf (a_DMC_RAS_STAT c) f_DMC_RAS_STAT_SCRUB_POS 0) s2
  (List.range 4).foldl (fun s k => s.wf (a_HMC_RAS_STAT k) f_HMC_RAS_STAT_SCRUB_POS 0) s3

/-- Is a domain's unit in service: present, not failed, a core with STATE 0 in the core map? -/
def State.domServes (s : State) (d : Nat) : Bool :=
  !domAbsent s.variant d && s.domState d != 4 && (decide (448 ≤ d) || s.coreMap.any (fun e => e.phys == d % 224 && e.st == .active))

/-- Value of PVC_DOM_n and the votes after a reset (16 R514; 20 R598): HYP votes of units in service but long-vector units, the DEP votes hardware holds of what stays on; failed and absent domains keep their STATE. -/
def State.resetDoms (s : State) (warm : Bool) : State :=
  (List.range 788).foldl (fun x d =>
    let lv := decide (224 ≤ d) && decide (d < 448)
    let serves := s.domServes d
    let hyp := serves && !lv
    let on := warm && hyp && s.domState d != 0
    let st := if domAbsent s.variant d then 5 else if s.domState d = 4 then 4 else if on then 2 else 0
    let dep := (decide (448 ≤ d) && decide (d < 672)) || (on && (decide (d < 224) || (decide (710 ≤ d) && decide (d < 750)) ||
      (decide (758 ≤ d) && decide (d < 766)) || d == 767 || decide (784 ≤ d)))
    let tok := if warm then s.rf (a_PVC_DOM d) f_PVC_DOM_TOKENS else 10000
    ((x.setReg (a_PVC_DOM d) (BitVec.ofNat 64 (hyp.toNat * 2 + dep.toNat * 16 + st * 2 ^ 8 + tok * 2 ^ 16))).setReg (a_PVC_HYP_VOTE d)
      (BitVec.ofNat 64 hyp.toNat))) s

/-- CORE_STATE of every stop, from the core map. -/
def State.resetCoreStates (s : State) : State :=
  s.coreMap.foldl (fun s e => s.setReg (a_STP_RAS_STAT e.phys) (match e.st with | .active => 0 | .spare => 1 | .failed => 2 | .fusedOff => 3)) s

/-- Sparing in progress at a reset: before step 8 the frozen core is marked failed and the spare takes its position (18 R563), a rewrite like any other, which advances SPARING_GEN by 2 (01 R36), and the sparing is journalled with SEQ 0 (DEDUCED, notes/assumptions/101.md). -/
def State.endSparing (s : State) : State :=
  s.ras.sparing.foldl (fun s x =>
    let s1 := if x.moved then s
      else
        let w2 := x.lcore + x.old * 2 ^ 8 + x.spare * 2 ^ 16 + x.cause * 2 ^ 24
        (s.spareMap x.lcore x.spare x.old).journal
          ⟨0x0A01, if x.cause = 3 then 0 else 2, x.old, 0, s.time.mt, BitVec.ofNat 64 w2, BitVec.ofNat 64 (s.time.mt - x.since)⟩ 0 2 0
    s1.wf (a_PVC_DOM x.old) f_PVC_DOM_STATE 4) s

/-- State that every reset of the chip clears: threads, cores, queues, the router, IOTU, engines, ports, locks, regions. The chip's event state keeps the Logbook. The disturbance generators are reseeded (09 R257). -/
def State.clearChip (s : State) (keep : Nat → Bool) : State :=
  { s with
    ccs := s.ccs.filter (fun x => keep x.1)
    locks := [], seenPages := [], threads := [], cores := [], smrKey := []
    ev := { EvSt.reset with log := s.ev.log, msix := s.ev.msix }
    rtr := RtrSt.reset, iot := IotSt.reset, brgs := BrgSt.reset
    gal := { GalSt.reset with net := s.gal.net, clocks := s.gal.clocks, breaks := s.gal.breaks, sent := s.gal.sent }
    port := { PortSt.reset with perst := s.port.perst, tx := s.port.tx }
    msh := MshSt.reset
    ras := { RasSt.reset with wayCe := s.ras.wayCe, exhausted := s.ras.exhausted }
    pwr := { PwrSt.reset with refLost := s.pwr.refLost }
    memx := { MemSt.reset with devs := s.memx.devs, genSeed := s.memx.genSeed + 1, epoch := s.memx.epoch, repairs := s.memx.repairs, hbm := s.memx.hbm, ddrBad := s.memx.ddrBad, pcFailed := s.memx.pcFailed, rom := s.memx.rom } }

/-- A cold reset of the device (11 R342): fuses and the Logbook are kept, time and memory contents are not; which data DRAM then holds is open (20 R596). GAL_BOOT_STAT starts over; the straps stay as sampled until RESET_N is released. -/
def State.coldReset (s : State) : State :=
  let straps := s.rf a_GAL_BOOT_STAT f_GAL_BOOT_STAT_STRAPS
  let s0 := s.endSparing
  let s1 := { s0.rebuiltMap.clearChip keptAlways with
    sparingGen := 0
    coh := { Coh.empty with unwritten := s.keyGen + 1 }, keyGen := s.keyGen + 1
    time := { s.time with mt := 0, edge := 0, skew := s.freeCtr + 1 }, lkp := { LkpSt.reset with syncPin := s.lkp.syncPin, entered := s.time.ticks }
    tol := { TolSt.reset with ownerKeys := s.tol.ownerKeys, ownerHash := s.tol.ownerHash, rollback := s.tol.rollback, tokenGen := s.tol.tokenGen + 1 }
    jtag := JtagSt.reset }
  let s2 := { s1 with memx := { s1.memx with hbm := [], ddrBad := [], rom := [], pcFailed := [] }, ras := { s1.ras with wayCe := [] } }
  let s3 := ((s2.trimKept false).resetCoreStates)
  let failed := (List.range 788).filter (fun d => s0.domState d == 4)
  let s4 := failed.foldl (fun x d => x.wf (a_PVC_DOM d) f_PVC_DOM_STATE 4) s3
  let s5 := s4.resetDoms false
  let s6 := s.ev.log.switches.foldl (fun x e => x.setReg (a_PVC_WEAR e.1) (BitVec.ofNat 64 (e.2 + (decide (switchBudget < e.2)).toNat * 2 ^ 40))) s5
  let s7 := (List.range 8).foldl (fun x n => x.setReg (a_MSH_NODE n) 0) s6
  let s8 := (List.range 16).foldl (fun x c => x.setReg (a_DMC_CFG c) 0) s7
  let s9 := (List.range 4).foldl (fun x c => x.setReg (a_HMC_CFG c) 0) s8
  let s10 := (s9.setReg a_GAL_HEALTH 0).setReg a_GAL_BOOT_STAT (BitVec.ofNat 64 (2 ^ 13 + straps * 2 ^ 16))
  let s11 := (s10.wf a_GAL_THERM f_GAL_THERM_TRIP s.boot.therm.toNat).setReg a_PVC_STAT 0x3848400
  let s12 := (s11.setReg a_TOL_CTL (BitVec.ofNat 64 (s.lifecycle * 2 ^ 8))).setReg a_TOL_WDOG_STAT
    (BitVec.ofNat 64 ((Config.freeWord s.tol.tokenGen 0x477).toNat % 2 ^ 16))
  let s13 := (s12.setReg a_LKP_STATUS (BitVec.ofNat 64 (s.rf a_LKP_STATUS f_LKP_STATUS_REF_OK * 8))).wf a_WHF_ROLE f_WHF_ROLE_ROLE (straps % 2)
  s13.updBoot (fun b => { b with tried := [], warm := false, clearing := false, coldAt := none, railEn := false, railGrp := 0, startMt := 0, thermMs := 0 })

/-- Contents of memory as the coherent system holds them, with every cache emptied. -/
def State.flushAll (s : State) : Coh :=
  let c1 := (s.coh.txns.map (·.1)).foldl (fun c l => c.settle s.env l) s.coh
  let c2 := (List.range 224).foldl (fun c p => if (c.linesUsed p).isEmpty then c else c.emptyStop s.env p) c1
  let c3 := (c2.llc.map (·.1)).foldl (fun c b => c.evictBlk s.env b noClass) c2
  { Coh.empty with mem := c3.mem, poison := c3.poison, lineKey := c3.lineKey, unwritten := c3.unwritten }

/-- A warm chip reset (11 R342; 20 R599 steps 1–3): cores stop and retired stores drain, memory is held, every domain but 1000 is reset; RWS fields, sparing, disabled ways, machine time and the secure counters stay; region keys are destroyed. The boot starts over at stage 0. -/
def State.warmReset (s : State) : State :=
  let straps := s.rf a_GAL_BOOT_STAT f_GAL_BOOT_STAT_STRAPS
  let sa := (s.threads.map (·.1)).foldl (fun s t => s.flushStores t) s.wearCopy
  let sb := { sa with coh := sa.flushAll }.endSparing
  let sc := { sb with ev := { sb.ev with log := { sb.ev.log with warm := sb.ev.log.warm + 1 } } }
  let slot := sc.rf a_GAL_BOOT_STAT f_GAL_BOOT_STAT_SLOT
  let dfl := sc.rf a_GAL_BOOT_STAT f_GAL_BOOT_STAT_CFG_DEFAULTED
  let s1 := { sc.clearChip keptWarm with
    tol := { TolSt.reset with ownerKeys := s.tol.ownerKeys, ownerHash := s.tol.ownerHash, rollback := s.tol.rollback, nonceGen := s.tol.nonceGen, tokenGen := s.tol.tokenGen + 1 } }
  let s2 := (((s1.trimKept true).resetCoreStates).lkpWarm).resetDoms true
  let s3 := (List.range 788).foldl (fun x d => (x.setReg (a_PVC_CLK d) 0).setReg (a_PVC_SEC_VOTE d) 0) s2
  let s4 := s3.setReg a_PVC_STAT (BitVec.ofNat 64 (s3.rf a_PVC_STAT f_PVC_STAT_SYSREF_OK * 8 + 132 * 2 ^ 8 + fld (BitVec.ofNat 64 s.boot.cfg1) 32 11 * 2 ^ 16))
  let s5 := (s4.setReg a_GAL_HEALTH (BitVec.ofNat 64 (s4.rf a_GAL_HEALTH f_GAL_HEALTH_REPLACE + s4.rf a_GAL_HEALTH f_GAL_HEALTH_RESTARTS * 2 ^ 8))).setReg
    a_GAL_BOOT_STAT (BitVec.ofNat 64 (slot * 2 ^ 12 + dfl * 2 ^ 14 + straps * 2 ^ 16))
  let s6 := (s5.setReg a_TOL_CTL (BitVec.ofNat 64 (s.lifecycle * 2 ^ 8))).setReg a_TOL_WDOG_STAT
    (BitVec.ofNat 64 ((Config.freeWord s.tol.tokenGen 0x477).toNat % 2 ^ 16 + s.rf a_TOL_WDOG_STAT f_TOL_WDOG_STAT_EXPIRIES * 2 ^ 56))
  let s7 := s6.wf a_WHF_ROLE f_WHF_ROLE_ROLE (straps % 2)
  let s8 := s7.updBoot (fun b => { b with warm := true, tried := [], clearing := false, startMt := s.time.mt })
  { s8 with jtag := s.jtag }

/-! ### RESET_N and commanded resets (R595, R599, R601; 21 R607) -/

/-- The slot a cold boot tries first (R593): the kept choice, slot B with STRAP_GOLDEN, else the higher GEN, slot A when equal. -/
def State.firstSlot (s : State) : Nat :=
  if s.strap 1 then 1 else match s.boot.first with | some k => k | none => if s.boot.slotA.gen < s.boot.slotB.gen then 1 else 0

/-- Stage 0 of a cold boot begins. -/
def State.startCold (s : State) : State :=
  let k := s.firstSlot
  let s1 := s.updBoot (fun b => { b with cur := k, tried := [k], startMt := s.time.mt })
  let s2 := { s1 with ev := { s1.ev with log := { s1.ev.log with cold := s1.ev.log.cold + 1, warm := 0 } } }
  if s2.strap 3 then s2.haltBoot 8 else s2

/-- RESET_N_ASSERT (R601, 21 R607): any boot ends, RAIL_EN falls, the device is in cold reset, THERMTRIP_N is released. -/
def execResetNAssert (s : State) : Host.Outcome State Fault Refusal :=
  .next ((s.coldReset).updBoot (fun b => { b with held := true, therm := false, first := none, holdUntil := 0 }))

/-- RESET_N_RELEASE (R590, R595): the straps are sampled and the Tollhouse starts from ROM. -/
def execResetNRelease (straps : BitVec 4) (s : State) : Host.Outcome State Fault Refusal :=
  .next (if !s.boot.held then s
    else
      let s1 := s.updBoot (fun b => { b with held := false })
      ((s1.setReg a_GAL_BOOT_STAT (BitVec.ofNat 64 (2 ^ 13 + straps.toNat * 2 ^ 16))).wf a_WHF_ROLE f_WHF_ROLE_ROLE (straps.toNat % 2)).startCold)

/-- WARM_CHIP_RESET: one that is due begins. Before a cold boot has completed stage 5 it is a cold boot with the rails left on (R601). A device that lost its rails while it ran stays halted until the next cold reset (21 R607, R618). -/
def execWarmChipReset (s : State) : Host.Outcome State Fault Refusal :=
  .next (match s.ev.fatalAt with
    | none => s
    | some m =>
      if s.notYet m || (!s.boot.railEn && (s.boot.warm || decide (6 ≤ s.stage))) then s
      else if !s.boot.warm && s.stage < 6 then
        ((s.wearCopy.coldReset).updBoot (fun b => { b with railEn := s.boot.railEn, railGrp := s.boot.railGrp })).startCold
      else s.warmReset)

/-- COLD_RESET_COMMAND: a commanded cold reset that is due begins; RAIL_EN is low for 100 ms (21 R607). -/
def execColdResetCommand (s : State) : Host.Outcome State Fault Refusal :=
  .next (match s.boot.coldAt with
    | none => s
    | some m =>
      if s.notYet m then s
      else ((s.coldReset).updBoot (fun b => { b with holdUntil := s.time.ticks + 100000000 })).startCold)

/-! ### The boot stages (R593–R597) -/

/-- A component of the slot being tried is invalid: stage 0 starts again on the other slot if it has not been tried, else the boot halts. -/
def State.trySlot (s : State) (h : Nat) : State :=
  let k := 1 - s.boot.cur
  if s.strap 1 || s.boot.warm || s.boot.tried.contains k then s.haltBoot h
  else (s.updBoot (fun b => { b with cur := k, tried := b.tried ++ [k] })).setStage 0

/-- TOLLHOUSE_FW_VERIFIED (stage 0): the Tollhouse firmware of the slot is verified and started; at a warm reset the slot of the last cold one. -/
def execTollhouseFwVerified (s : State) : Host.Outcome State Fault Refusal :=
  .next (if !s.booting 0 then s
    else
      let k := if s.boot.warm then s.boot.tolSlot else s.boot.cur
      match s.compOf (s.boot.slot k) 1 with
      | none => s.trySlot 1
      | some c =>
        ((s.updBoot (fun b => { b with tolSlot := k, tolVer := c.version, tolMin := c.rbMin })).wf a_GAL_BOOT_STAT f_GAL_BOOT_STAT_SLOT k).setStage 1)

/-- Stage 4 begins: every domain with a vote wakes (16 R497, R514). -/
def State.startFabric (s : State) : State :=
  (List.range 788).foldl (fun s d => if s.votes d = 0 then s else s.startWake d) ((s.wf a_GAL_HEALTH f_GAL_HEALTH_STATE 0).setStage 4)

/-- LENGTHSMAN_START (stage 1): the Lengthsman's firmware is verified and started; at a warm reset from the valid slot with the higher GEN (R599). REPLACE_N follows the Logbook (18 R569). It then checks SYS_REFCLK (stage 2). -/
def execLengthsmanStart (s : State) : Host.Outcome State Fault Refusal :=
  .next (if !s.booting 1 then s
    else
      let k := if s.boot.warm then s.newestSlot.getD s.boot.lenSlot else s.boot.cur
      match s.compOf (s.boot.slot k) 2 with
      | none => s.trySlot 2
      | some c =>
        let s1 := (s.updBoot (fun b => { b with lenSlot := k, lenVer := c.version, lenMin := c.rbMin })).wf a_GAL_HEALTH f_GAL_HEALTH_FW_VERSION c.version
        let s2 := (if s.rf a_GAL_REPLACE f_GAL_REPLACE_CAUSES = 0 then s1 else s1.wf a_GAL_HEALTH f_GAL_HEALTH_REPLACE 1).setStage 2
        if s.pwr.refLost.isSome then s2.wf a_GAL_HEALTH f_GAL_HEALTH_STATE 3
        else if s.boot.warm then s2.startFabric
        else s2)

/-- A boot configuration field outside its range takes its default (R594). -/
def cfgField (w lo n min' max' dflt : Nat) : Nat × Bool :=
  let v := natField w lo n
  if min' ≤ v && v ≤ max' then (v, false) else (dflt, true)

/-- The configuration in force: words 1 and 2, and whether a field took its default. -/
def cfgOf (w1 w2 : Nat) : Nat × Nat × Bool :=
  let (hold, a) := cfgField w1 16 10 16 512 64
  let (lim, b) := cfgField w1 32 11 650 1000 900
  let (bar, c) := cfgField w1 48 6 30 40 36
  let (rate, d) := if natField w2 0 16 = 0 then (0, false) else cfgField w2 0 16 4800 8000 0
  (natField w1 0 5 + hold * 2 ^ 16 + lim * 2 ^ 32 + bar * 2 ^ 48, rate, a || b || c || d)

/-- REFERENCE_PRESENT (stage 2): SYS_REFCLK is found present; the Tollhouse verifies the boot configuration, and the rails are enabled (stage 3). With the rails already on, stage 4 follows (R599, R601). -/
def execReferencePresent (s : State) : Host.Outcome State Fault Refusal :=
  .next (if !s.booting 2 then s
    else
      let s1 := ((s.updPwr (fun x => { x with refLost := none })).wf a_PVC_STAT f_PVC_STAT_SYSREF_OK 1).wf a_GAL_HEALTH f_GAL_HEALTH_STATE 0
      if s.boot.warm then s1.startFabric
      else if s.lifecycle = 1 && !s.tol.ownerKeys then s1.haltBoot 7
      else
        match s1.compOf (s1.boot.slot s.boot.cur) 3 with
        | none => s1.trySlot 6
        | some c =>
          let (w1, w2, d) := cfgOf c.word1 c.word2
          let s2 := ((s1.updBoot (fun b => { b with cfg1 := w1, cfg2 := w2 })).wf a_GAL_BOOT_STAT f_GAL_BOOT_STAT_CFG_DEFAULTED d.toNat).wf
            a_PVC_STAT f_PVC_STAT_LIMIT (natField w1 32 11)
          if s.boot.railEn && s.boot.railGrp = 5 then s2.startFabric
          else if s.boot.therm then s2
          else (s2.setStage 3).updBoot (fun b => { b with railEn := true, railTick := s.time.ticks }))

/-- RAILS_IN_TOLERANCE (stage 3, 21 R606): the rails of the group just enabled read in tolerance, and the next group is enabled; after the fifth, which holds no rail without HBM, stage 4 follows. -/
def execRailsInTolerance (s : State) : Host.Outcome State Fault Refusal :=
  .next (if !s.booting 3 || !s.boot.railEn then s
    else
      let up (g : Nat) : Nat := if g = 4 && !Config.hasHbm s.variant then 5 else g
      let s1 := s.updBoot (fun b => { b with railGrp := up (b.railGrp + 1), railTick := s.time.ticks })
      if 5 ≤ s1.boot.railGrp then s1.startFabric else s1)

/-- A RAIL_FAULT record of the Logbook (17 R543). -/
def State.railRecord (s : State) (rail cause mv : Nat) : State :=
  s.journal ⟨0x0B02, 4, 1001, 0, s.time.mt, BitVec.ofNat 64 (rail % 16 + cause * 2 ^ 8), BitVec.ofNat 64 mv⟩ 0 1 0

/-- Is a rail one the Lengthsman enables (21 R605, R606)? -/
def State.railUsed (s : State) (rail : Nat) : Bool := decide (rail < 12) && (Config.hasHbm s.variant || !([7, 9, 11].contains rail))

/-- RAIL_ENABLE_TIMEOUT (21 R606): a rail not in tolerance 10 ms after its enable (cause 1), or a regulator fault (cause 2), halts the boot. -/
def execRailEnableTimeout (rail mv cause : Nat) (s : State) : Host.Outcome State Fault Refusal :=
  .next (if !s.booting 3 || !s.boot.railEn || !s.railUsed rail || cause = 0 || 2 < cause || (cause = 1 && decide (s.time.ticks < s.boot.railTick + 10000000)) then s
    else (s.railRecord rail cause mv).haltBoot 3)

/-- MEM_CONFIG (17 R543). -/
def State.memConfig (s : State) (source kind node ch bytes : Nat) : State := s.hostEv 0x0501 0 source 0 (kind + node * 2 ^ 8 + ch * 2 ^ 16) bytes

/-- FABRIC_READY (stage 4): no domain is waking; a failed slice or segment, or a pair of stops without a route, halts the boot; the protocol mode and memory configuration are written and lock (08 R226, R238; 09 R244, R245), at a warm reset from the configuration of the last cold boot (R599). -/
def execFabricReady (s : State) : Host.Outcome State Fault Refusal :=
  .next (if !s.booting 4 || (List.range 788).any (fun d => s.domState d == 1) then s
    else if (List.range 788).any (fun d => s.domState d == 4 && ((decide (448 ≤ d) && decide (d < 672)) || decide (784 ≤ d))) || !routable s.meshFaults then
      (s.wf a_GAL_HEALTH f_GAL_HEALTH_REPLACE 1).haltBoot 4
    else
      let hold := natField s.boot.cfg1 16 10
      let s1 := s.wf a_MSH_PROTO_CTL f_MSH_PROTO_CTL_HOLD_WIN hold
      let want (i : Nat) : Bool := s.boot.cfg1.testBit i
      let noHbm := want 1 && !Config.hasHbm s.variant
      let noPair := want 3 && s.variant == .gz144D
      let s2 := s1.wf a_MSH_PROTO_CTL f_MSH_PROTO_CTL_MODE (want 0).toNat
      let s3 := s2.setReg a_MSH_MEM_CFG (BitVec.ofNat 64 ((want 1 && !noHbm).toNat + (want 2).toNat * 2 + (want 3 && !noPair).toNat * 4))
      let s4 := (s3.setLocks a_MSH_PROTO_CTL 1).setLocks a_MSH_MEM_CFG 7
      let s5 := if noHbm then s4.memConfig 1000 1 0 0 0 else s4
      (if noPair then s5.memConfig 1000 2 0 0 0 else s5).setStage 5)

/-! ### Nodes (09 R246, R247) -/

/-- What training found on a channel: DIMMs (0 when none trained), ranks, capacity in GiB, rate in MT/s. -/
abbrev Dimms := Nat × Nat × Nat × Nat

/-- Is what training found one of the options of R242: one or two DIMMs of at most two ranks each, sixteen data devices of 16, 24 or 32 Gb in a rank, a rate of 4800 MT/s or more? -/
def Dimms.supported (d : Dimms) : Bool :=
  (d.1 == 1 || d.1 == 2) && decide (d.1 ≤ d.2.1) && decide (d.2.1 ≤ 2 * d.1) && decide (32 * d.2.1 ≤ d.2.2.1) && decide (d.2.2.1 ≤ 64 * d.2.1) &&
    d.2.2.1 % 16 == 0 && decide (4800 ≤ d.2.2.2)

/-- Interleaved targets of a DDR node's channels with their capacities: channels, or pairs with the capacity of the smaller member, or of the one that is trained. -/
def ddrUnits (mirror : Bool) (cap : Nat → Nat) (chs : List Nat) : List Nat :=
  if mirror then
    (chs.filter (fun c => c / 4 % 2 == 0 || !chs.contains (c - 4))).map (fun c =>
      if c / 4 % 2 == 0 && chs.contains (c + 4) then min (cap c) (cap (c + 4)) else cap c)
  else chs.map cap

/-- Capacity of a pair above its smaller member. -/
def pairWaste (mirror : Bool) (cap : Nat → Nat) (chs : List Nat) : Nat :=
  if mirror then ((chs.filter (fun c => c / 4 % 2 == 0 && chs.contains (c + 4))).map (fun c => max (cap c) (cap (c + 4)) - min (cap c) (cap (c + 4)))).sum else 0

/-- Build a DDR node n at a base (in units of 2^36 bytes) of the trained channels given: every target counts with the smallest capacity; capacity above it is reported. -/
def State.ddrNode (s : State) (n base : Nat) (mirror : Bool) (cap : Nat → Nat) (chs : List Nat) : State :=
  let us := ddrUnits mirror cap chs
  match us with
  | [] => s.setReg (a_MSH_NODE n) 0
  | u :: _ =>
    let m := us.foldl min u
    let waste := (us.map (fun x => x - m)).sum + pairWaste mirror cap chs
    let s1 := s.setReg (a_MSH_NODE n) (BitVec.ofNat 64 (3 + base * 2 ^ 8 + m * us.length * 2 ^ 24 + (chs.map (fun c => 2 ^ c)).sum * 2 ^ 40))
    let s2 := chs.foldl (fun s c => s.wf (a_DMC_CFG c) f_DMC_CFG_CAP m) s1
    if waste = 0 then s2 else s2.memConfig 1000 3 n 0 (waste * 2 ^ 30)

/-- An HBM node n of the stacks given, at a base in units of 2^36 bytes. -/
def State.hbmNode (s : State) (n : Nat) (sts : List Nat) : State :=
  s.setReg (a_MSH_NODE n) (BitVec.ofNat 64 (1 + n * 2 ^ 8 + 48 * sts.length * 2 ^ 24 + (sts.map (fun k => 2 ^ k)).sum * 2 ^ 40))

/-- Training results become DMC_CFG, HMC_CFG and the nodes. A channel with DIMMs that R242 does not list is one with none trained. -/
def State.buildNodes (s : State) (dimms : List Dimms) : State :=
  let d (c : Nat) : Dimms := dimms.getD c (0, 0, 0, 0)
  let ok (c : Nat) : Bool := ddrPresent s.variant c && (d c).supported && s.domOn (710 + c) && s.domOn (726 + c) && !s.chFailed c
  let mirror := s.rf a_MSH_MEM_CFG f_MSH_MEM_CFG_MIRROR == 1
  let whole := s.rf a_MSH_MEM_CFG f_MSH_MEM_CFG_WHOLE_CHIP == 1
  let cached := s.hbmCached
  let maxRate := s.boot.cfg2
  let chs := (List.range 16).filter ok
  let s1 := chs.foldl (fun s c =>
    let top := if (d c).1 = 2 then 6400 else 8000
    let rate := min (d c).2.2.2 (if maxRate = 0 then top else min top maxRate)
    let mate := if c / 4 % 2 = 0 then c + 4 else c - 4
    let role := if mirror && chs.contains mate then (if c / 4 % 2 = 0 then 1 else 2) else 0
    s.setReg (a_DMC_CFG c) (BitVec.ofNat 64 ((d c).1 % 4 + (d c).2.1 % 8 * 2 ^ 2 + (d c).2.2.1 % 2 ^ 16 * 2 ^ 16 + rate % 2 ^ 16 * 2 ^ 32 + role * 2 ^ 48))) s
  let s2 := ((List.range 16).filter (fun c => ddrPresent s.variant c && !ok c)).foldl (fun s c => s.memConfig (710 + c) 4 0 c 0) s1
  let sts := (List.range 4).filter (fun k => Config.hasHbm s.variant && s.domOn (742 + k) && s.domOn (746 + k))
  let s3 := sts.foldl (fun s k => s.setReg (a_HMC_CFG k) (BitVec.ofNat 64 (48 + 9600 * 2 ^ 16 + cached.toNat * 2 ^ 32))) s2
  let s4 := if cached then s3 else if whole then (if sts.isEmpty then s3 else s3.hbmNode 0 sts) else sts.foldl (fun s k => s.hbmNode k [k]) s3
  let cap (c : Nat) : Nat := (d c).2.2.1
  let s5 := if whole then s4.ddrNode 4 16 mirror cap chs
    else [0, 1, 2, 3].foldl (fun s t => s.ddrNode (4 + t) (16 * (t + 1)) mirror cap (chs.filter (fun c => c % 4 == t))) s4
  (chs ++ sts.map (· + 16)).foldl (fun s u => (s.setVote (memDom u) 4 true).setVote (memPhy u) 4 true) s5

/-- Place the host image in the boot ROM alias (R597). -/
def State.placeImage (s : State) (c : FlashComp) : State := s.updMem (fun x => { x with rom := c.body })

/-- MEMORY_TRAINED (stage 5): training ends with what it found on each DDR5 channel and the failed HBM pseudo-channels (32 · stack + pc); nodes are built and the host image is verified and placed. At a warm reset memory leaves self-refresh and retrains, and the listed channels (`dimms` with none trained where one was) fail. -/
def execMemoryTrained (dimms : List (Nat × Nat × Nat × Nat)) (hbmBad : List Nat) (s : State) : Host.Outcome State Fault Refusal :=
  .next (if !s.booting 5 || s.boot.clearing then s
    else if s.boot.warm then
      let s1 := ((List.range 16).filter (fun c => s.chTrained c && (dimms.getD c (1, 0, 0, 0)).1 == 0)).foldl (fun s c => s.chFail c 2) s
      let s2 := hbmBad.foldl (fun s k => s.pcFail (k / 32) (k % 32) 2) s1
      (match s2.compOf (s2.boot.slot s.boot.lenSlot) 4 with
       | none => s2.haltBoot 6
       | some c => (s2.placeImage c).setStage 6)
    else
      let s1 := hbmBad.foldl (fun s k => s.pcFail (k / 32) (k % 32) 1) (s.buildNodes dimms)
      if (List.range 8).all (fun n => s1.rf (a_MSH_NODE n) f_MSH_NODE_VALID == 0) then s1.haltBoot 5
      else
        match s1.compOf (s1.boot.slot s.boot.cur) 4 with
        | none =>
          let k := 1 - s.boot.cur
          if s.strap 1 || s.boot.tried.contains k then s1.haltBoot 6
          else s1.updBoot (fun b => { b with first := some k, coldAt := some s.time.mt })
        | some c =>
          let s2 := s1.placeImage c
          if s.boot.cfg1.testBit 4 then s2.updBoot (fun b => { b with clearing := true }) else s2.setStage 6)

/-- CLEAR_COMPLETE (R596): every line of every node holds zeros, without poison. -/
def execClearComplete (s : State) : Host.Outcome State Fault Refusal :=
  .next (if !s.booting 5 || !s.boot.clearing then s
    else ({ s with coh := Coh.empty }.updBoot (fun b => { b with clearing := false })).setStage 6)

/-- BOOT_DONE: with STRAP_TIME_GATE the boot waits in stage 7 for LOCKED or PTP; then every thread of every active core is released, GAL_HEALTH.STATE becomes RUNNING, DURATION_US is recorded, and ROLLBACK is raised to the higher ROLLBACK_MIN of the two firmware components. -/
def execBootDone (s : State) : Host.Outcome State Fault Refusal :=
  .next (if !(s.booting 6 || s.booting 7) then s
    else if s.strap 2 && s.lkpState != 1 && s.lkpState != 3 then s.setStage 7
    else
      let us := (s.time.mt - s.boot.startMt) / 1000
      let s1 := ((s.setStage 8).wf a_GAL_BOOT_STAT f_GAL_BOOT_STAT_DURATION_US us).wf a_GAL_HEALTH f_GAL_HEALTH_STATE 1
      let s2 := s1.updBoot (fun b => { b with first := none })
      let up := max s2.tol.rollback (max s.boot.tolMin s.boot.lenMin)
      let s3 := if up = s2.tol.rollback then s2 else s2.logArea
      { s3 with tol := { s3.tol with rollback := up } })

/-! ### Faults of the package (R478; 21 R607, R617, R618) -/

/-- RAIL_FAULT: a package rail leaves tolerance while the device runs: RAIL_EN falls and the device halts with HALT 3. -/
def execRailFault (rail mv : Nat) (s : State) : Host.Outcome State Fault Refusal :=
  .next (if s.stage < 4 || !s.boot.railEn || s.boot.held || !s.railUsed rail then s else (s.railRecord rail 3 mv).haltBoot 3)

/-- WDOG_EXPIRY (15 R478): the count has expired: EXPIRIES, a Logbook record, and a warm chip reset. -/
def execWdogExpiry (s : State) : Host.Outcome State Fault Refusal :=
  .next (if !s.wdogOn || decide (s.wdogMs < s.wdogTimeout) || s.ev.fatalAt.any (fun m => !s.notYet m) then s
    else
      let k := s.tol.kicker.getD 0x3FF
      let s1 := (s.addSat a_TOL_WDOG_STAT f_TOL_WDOG_STAT_EXPIRIES 1).journal
        ⟨0x0902, 4, 1002, 0, s.time.mt, BitVec.ofNat 64 (k + s.wdogTimeout * 2 ^ 16), BitVec.ofNat 64 s.tol.kickMt⟩ 0 3 k
      { s1 with ev := { s1.ev with fatalAt := some s.time.mt } })

/-- A temperature in m°C at or above a number of °C. -/
def atLeast (x : Int) (c : Nat) : Bool := decide ((1000 * c : Int) ≤ x)

/-- Next thermal ceiling of a tile (21 R617). -/
def nextCeil (ceil : Nat) (crit : Bool) (h io : Int) : Nat :=
  if crit then 32
  else if atLeast h 95 || atLeast io 95 then max 32 (ceil - 4)
  else if !atLeast h 92 && ceil < 132 then ceil + 1
  else ceil

/-- THERMAL_CONTROL_TICK, once per millisecond of MT, with the hottest junction of each tile, of the I/O tile and of each HBM stack over it, in m°C. -/
def execThermalControlTick (tiles : List Int) (io : Int) (hbm : List Int) (s : State) : Host.Outcome State Fault Refusal :=
  let ms := s.time.mt / 1000000 + 1
  .next (if s.gal.restart.isSome || s.stage < 2 || (s.mtRuns && decide (ms ≤ s.boot.thermMs)) then s
    else
      let t (i : Nat) : Int := tiles.getD i 0
      let dies := [t 0, t 1, t 2, t 3, io]
      let old := s.reg a_GAL_THERM
      let crit := dies.any (fun x => atLeast x 105) || (bit old 36 && (s.boot.therm || dies.any (fun x => atLeast x 100)))
      let ceil (i : Nat) : Nat := nextCeil (fld old (8 * i) 8) crit (t i) io
      let hot (k : Nat) : Bool := Config.hasHbm s.variant && (atLeast (hbm.getD k 0) 95 || (bit old (40 + k) && atLeast (hbm.getD k 0) 92))
      let ceils := ((List.range 4).map (fun i => ceil i * 2 ^ (8 * i))).sum
      let thr := ((List.range 4).map (fun i => (decide (ceil i < 132)).toNat * 2 ^ (32 + i))).sum
      let hots := ((List.range 4).map (fun k => (hot k).toNat * 2 ^ (40 + k))).sum
      (s.setReg a_GAL_THERM (BitVec.ofNat 64 (ceils + thr + crit.toNat * 2 ^ 36 + (bit old 37).toNat * 2 ^ 37 + hots))).updBoot (fun b => { b with thermMs := ms }))

/-- THERMAL_TRIP (21 R618): the comparator finds a die sensor at 115 °C or an HBM sensor at 105 °C: THERMTRIP_N and RAIL_EN fall, and the Logbook has the record, at the end of a Lengthsman restart under way. A cold boot in stages 3–5 halts with HALT 3; CRIT, set by a die sensor, stays until RESET_N (R621). -/
def execThermalTrip (sensor : Nat) (temp : Int) (s : State) : Host.Outcome State Fault Refusal :=
  let die := (decide (5 ≤ sensor) && decide (sensor ≤ 9)) || inRange sensor 0x100 224
  let hbm := inRange sensor 0x300 4 && Config.hasHbm s.variant
  .next (if s.boot.therm || s.boot.held || !((die && atLeast temp 115) || (hbm && atLeast temp 105)) then s
    else
      let r : EvRec := ⟨0x0B01, 4, 1000, 0, s.time.mt, BitVec.ofNat 64 sensor, BitVec.ofInt 64 temp⟩
      let s1 := if s.gal.restart.isSome then s.updBoot (fun b => { b with tripRec := some r }) else s.journal r 0 1 0
      let s2 := if die then s1.setReg a_GAL_THERM (BitVec.ofNat 64 (0x1F20202020 + (s1.reg a_GAL_THERM).toNat / 2 ^ 37 * 2 ^ 37)) else s1
      let s3 := if 3 ≤ s.stage && decide (s.stage ≤ 5) && !s.boot.warm && s.halt == 0 then s2.haltBoot 3 else s2
      s3.updBoot (fun b => { b with therm := true, railEn := false }))

/-! ### Pins (21 R612) -/

/-- RAIL_EN, REPLACE_N and THERMTRIP_N as driven (18 R569; 21 R607, R618). -/
def State.railEnPin (s : State) : Bool := s.boot.railEn
/-- REPLACE_N: low (true) while replacement is requested. -/
def State.replaceLow (s : State) : Bool := s.rf a_GAL_HEALTH f_GAL_HEALTH_REPLACE == 1
/-- THERMTRIP_N: low (true) after a thermal trip until RESET_N. -/
def State.thermtripLow (s : State) : Bool := s.boot.therm
/-- PERST_N of link l of a port: low (true) while the link does not exist or its controller is not on (a hot reset holds it only during the reset). -/
def State.perstLow (s : State) (p l : Nat) : Bool := !s.linkExists p l || s.domState (portDom p) != 2

end Sys2Proof.Machine
end

