-- ==== Sys2Proof/Machine/Branch.lean ====
section
/-! DEFINITION. Control transfer: branches, jumps, LOOP, trip counters, the branch-target buffer, staging and the loop buffer (spec/03_instruction_set.md R84, R85; spec/04_core_pipeline.md R102–R108). -/
namespace Sys2Proof.Machine

/-! ### The branch-target buffer (04 R104, R105) -/

/-- BTBKEY as the current instruction sees it: the written key, or the one drawn for the thread at its last reset. -/
def State.btbKeyOf (s : State) (t : Nat) : Word :=
  let th := s.thr t
  pickView s.freeCtr 0x420 (th.btbKey.getD (Config.freeWord (0x420000 + t) (th.keyGen + 2 ^ 32 * s.ev.log.warm + 2 ^ 64 * s.ev.log.cold))) (th.pending 0x420)

/-- Level group of a context tag: 0–1, 2 or 3. -/
def lvlGroup (pl : Nat) : Nat := if pl ≤ 1 then 0 else pl

/-- ASID of a context tag: that of the current translation regime; levels 2 and 3 have none (10 R285). -/
def State.ctxAsid (s : State) (t : Nat) : Nat := match s.regime t with | some r => r.tag.asid | none => 0

/-- Does an entry belong to this branch address in the thread's context? -/
def State.btbMatch (s : State) (t : Nat) (pc : Word) (e : BtbEntry) : Bool :=
  let th := s.thr t
  e.set == fld pc 2 9 && e.va == fld pc 11 46 && e.sec == th.secure && e.group == lvlGroup th.pl &&
    e.vmid == s.reqVmid t && e.asid == s.ctxAsid t

/-- The 128-byte block a lookup recovers: another key recovers an unrelated address (R104). -/
def State.btbLookup (s : State) (t : Nat) (pc : Word) : Option Nat :=
  ((s.core (s.stopOf t)).btb.find? (s.btbMatch t pc)).map (fun e =>
    if e.key = s.btbKeyOf t then e.target else (Config.freeWord (e.key.toNat ^^^ (s.btbKeyOf t).toNat) (512 * e.target + e.set)).toNat % 2 ^ 50)

/-- A retiring taken conditional branch or JALR writes its entry (R104); among eight valid ways the replaced one is a free choice. -/
def State.btbTrain (s : State) (t : Nat) (pc tgt : Word) : State :=
  let stop := s.stopOf t
  let c := s.core stop
  let th := s.thr t
  let rest := c.btb.filter (fun e => !s.btbMatch t pc e)
  let inSet := rest.filter (fun e => e.set == fld pc 2 9)
  let way := match c.btb.find? (s.btbMatch t pc) with
    | some e => e.way
    | none => match (List.range 8).find? (fun w => inSet.all (fun e => e.way != w)) with
      | some w => w
      | none => Config.pick s.freeCtr 12 % 8
  let e : BtbEntry := ⟨fld pc 2 9, way, fld pc 11 46, th.secure, lvlGroup th.pl, s.reqVmid t,
    s.ctxAsid t, tgt.toNat / 128, s.btbKeyOf t⟩
  s.setCore stop { c with btb := e :: rest.filter (fun x => !(x.set == e.set && x.way == way)) }

/-- A staged block is used (R106): it enters the fetch queue with its poison mark, and its lines that can be had are installed in L1I as demand fetches. -/
def State.useStaged (s : State) (t : Nat) (b : Staged) : State :=
  let s1 := (s.updThr t (fun th => { th with staged := none, fqPoison := if b.poison then some b.block else none })).countThr t 0x007 .none none 1
  [b.line, b.line + 1].foldl (fun s l => match s.fetchLine t l (64 * l) with | .got s2 _ => s2 | .wait _ => s) s1

/-- Fetch resumes after a branch or a LOOP that waited: the staged block is used or discarded (R106). -/
def State.resolveStaged (s : State) (t : Nat) (use : Staged → Bool) : State :=
  match (s.thr t).staged with
  | none => s
  | some b => if use b then s.useStaged t b else s.dropStaged t

/-- A block is used when the branch resolves to an address within it (R106). -/
def Staged.holds (b : Staged) (tgt : Word) : Bool := b.block == tgt.toNat / 128

/-- A conditional branch (R84). -/
def branchOp (t op : Nat) (ra rb : Reg) (off : BitVec 16) (holds : Word → Word → Bool) (s : State) : Host.Outcome State Fault Refusal :=
  .next (runInstr t (fun _ => { enc := encB op ra rb off, ends := true }) (fun s =>
    let th := s.thr t
    let pc := th.pc
    let s1 := s.countThr t 0x004 .none none 1
    if holds (th.rE ra) (th.rE rb) then
      let tgt := pc + (sx off <<< 2)
      .goto ((s1.resolveStaged t (·.holds tgt)).btbTrain t pc tgt) tgt
    else .next (s1.resolveStaged t (·.holds (pc + 4)))) s)

/-- BEQ (R84). -/
def execBeq (t : Nat) (ra rb : Reg) (off : BitVec 16) (s : State) : Host.Outcome State Fault Refusal := branchOp t 0x20 ra rb off (fun a b => a == b) s
/-- BNE (R84). -/
def execBne (t : Nat) (ra rb : Reg) (off : BitVec 16) (s : State) : Host.Outcome State Fault Refusal := branchOp t 0x21 ra rb off (fun a b => a != b) s
/-- BLT (R84). -/
def execBlt (t : Nat) (ra rb : Reg) (off : BitVec 16) (s : State) : Host.Outcome State Fault Refusal := branchOp t 0x22 ra rb off (fun a b => a.slt b) s
/-- BGE (R84). -/
def execBge (t : Nat) (ra rb : Reg) (off : BitVec 16) (s : State) : Host.Outcome State Fault Refusal := branchOp t 0x23 ra rb off (fun a b => !a.slt b) s
/-- BLTU (R84). -/
def execBltu (t : Nat) (ra rb : Reg) (off : BitVec 16) (s : State) : Host.Outcome State Fault Refusal := branchOp t 0x24 ra rb off (fun a b => a.ult b) s
/-- BGEU (R84). -/
def execBgeu (t : Nat) (ra rb : Reg) (off : BitVec 16) (s : State) : Host.Outcome State Fault Refusal := branchOp t 0x25 ra rb off (fun a b => !a.ult b) s

/-- J (R84). -/
def execJmp (t : Nat) (off : BitVec 26) (s : State) : Host.Outcome State Fault Refusal :=
  .next (runInstr t (fun _ => { enc := encJ 0x27 off, ends := true }) (fun s => .goto s ((s.thr t).pc + (sx off <<< 2))) s)
/-- JAL (R84): E1 = PC + 4, then as J. -/
def execJal (t : Nat) (off : BitVec 26) (s : State) : Host.Outcome State Fault Refusal :=
  .next (runInstr t (fun _ => { enc := encJ 0x28 off, ends := true }) (fun s =>
    .goto (s.updThr t (fun th => th.wE 1 (th.pc + 4))) ((s.thr t).pc + (sx off <<< 2))) s)
/-- JALR (R84): Ed = PC + 4; PC = Ea + sext(IMM16) with bits [1:0] cleared. -/
def execJalr (t : Nat) (rd ra : Reg) (imm : BitVec 16) (s : State) : Host.Outcome State Fault Refusal :=
  .next (runInstr t (fun _ => { enc := encI 0x29 rd ra imm, ends := true }) (fun s =>
    let th := s.thr t
    let pc := th.pc
    let tgt := (th.rE ra + sx imm) &&& ~~~(3#64)
    let s1 := (s.countThr t 0x004 .none none 1).updThr t (fun th => th.wE rd (pc + 4))
    .goto ((s1.resolveStaged t (·.holds tgt)).btbTrain t pc tgt) tgt) s)

/-! ### LOOP (03 R85, 04 R103, R107) -/

/-- Was a valid counter for the register there when PD found the LOOP? One that a waiting LOOP loaded was not (R103, R107). -/
def Thread.tripFound (th : Thread) (r : Reg) : Bool := th.lcnt.any (fun c => c.reg == r.toNat && !c.waited)
/-- Does a valid trip counter track the register? -/
def Thread.tripValid (th : Thread) (r : Reg) : Bool := th.lcnt.any (fun c => c.reg == r.toNat)
/-- Load the least recently used trip counter with a register (R103). -/
def Thread.loadTrip (th : Thread) (r : Reg) : Thread := { th with lcnt := (⟨r.toNat, th.rE r, true⟩ :: th.lcnt).take 2 }
/-- Write the trip register and its counter together (R85, R103); the counter becomes the most recently used. -/
def Thread.setTrip (th : Thread) (r : Reg) (v : Word) : Thread :=
  { th with e := smSet (fun _ => 0) th.e r.toNat v, lcnt := (⟨r.toNat, v, false⟩ :: th.lcnt.filter (fun c => c.reg != r.toNat)).take 2 }

/-- The loop buffer after a LOOP at `pc` (R107, R108): a taken LOOP with a valid counter, a body of at most 64 instructions, STEP 0 and no breakpoint in the body begins a capture; a second taken LOOP of the same body begins replay; a LOOP that falls through discards it. -/
def State.loopCapture (s : State) (t : Nat) (r : Reg) (pc : Word) (off : BitVec 16) (taken valid : Bool) : State :=
  let th := s.thr t
  let first := pc - BitVec.ofNat 64 (4 * off.toNat)
  let okBody := valid && decide (off.toNat ≤ 63) && !th.step &&
    (List.range (off.toNat + 1)).all (fun k => (s.breakAt t (first + BitVec.ofNat 64 (4 * k))).isNone)
  let nb : Option LoopBuf :=
    if !taken || !okBody then none
    else match th.loopBuf with
      | some b => if b.first = first && b.last = pc then some { b with replay := true } else some ⟨first, pc, r.toNat, false, []⟩
      | none => some ⟨first, pc, r.toNat, false, []⟩
  s.updThr t (fun th => { th with loopBuf := nb })

/-! ### Staging (04 R106) -/

/-- Translation of a staging read: an ITLB entry that exists and grants execution; where translation is off there is none (R106 rule 1). Answers the physical address, the attribute and whether the access is Secure. -/
def State.stageXlate (s : State) (t : Nat) (va : Nat) : Option (Nat × Nat × Bool) :=
  match s.regime t with
  | none => none
  | some r =>
    if !r.en && r.s2root.isNone then none
    else
      match (s.core r.tag.stop).itlb.find? (fun e => e.hits r.tag va) with
      | some e => if s1Permits .fetch r.pl r.kua e.rd e.wr e.xu e.xp e.u && e.x2 then some (e.pa + va % 2 ^ e.szl, e.attr, s.accSec t e.ns) else none
      | none => none

/-- The poison mark of a line that a staging read finds in L1I, L2 or the LLC; none when no such copy is valid or the home directory records an owner with write permission (R106). -/
def State.stageLine (s : State) (stop line : Nat) : Option Bool :=
  let owned := match s.coh.de line with
    | some e => e.owner.isSome && (match e.st with | .ex => true | _ => false)
    | none => false
  if owned then none
  else
    match (s.coh.pl stop line).filter (fun p => !p.victim && (p.l1i.isSome || p.l2.isSome)) with
    | some p => some p.poison
    | none => (s.coh.sectorOf line).map (fun x => x.2.2)

/-- Can a staging read of a block return data (R106): Normal write-back memory the world may access, with both lines readable? Answers the first physical line and the poison mark. -/
def State.stageable (s : State) (t : Nat) (va : Nat) : Option (Nat × Bool) :=
  match s.stageXlate t va with
  | none => none
  | some (pa, attr, sec) =>
    let line := pa / 64
    let bars (l : Nat) : Bool := (!sec && s.lineSec l) || ((s.thr t).secure && !s.lineSec l && bit (s.view t 0xC10) 0)
    if 2 ^ 52 ≤ pa || attr != 0 || !s.isMem pa || bars line || bars (line + 1) then none
    else
      match s.stageLine (s.stopOf t) line, s.stageLine (s.stopOf t) (line + 1) with
      | some p, some q => some (line, p || q)
      | _, _ => none

/-- Put a block into the staging entry; one that is replaced is discarded (R106, R109). An ECC or parity error that the read meets (`bad`) discards the block and is neither corrected nor logged (R106 rule 4). -/
def State.stageBlock (s : State) (t : Nat) (block : Nat) (bad : Bool := false) : State :=
  match (if bad then none else s.stageable t (128 * block)) with
  | none => s
  | some (l, p) => (s.dropStaged t).updThr t (fun th => { th with staged := some ⟨block, l, p⟩ })

/-- Wait for the trip count (R103): counted, the counter is loaded, and the next sequential block is staged. -/
def State.tripWait (s : State) (t : Nat) (r : Reg) (bad : Bool := false) : State :=
  (((s.countThr t 0x008 .none none 1).updThr t (fun th => th.loadTrip r))).stageBlock t ((s.thr t).pc.toNat / 128 + 1) bad

/-! ### The LOOP instruction -/

/-- LOOP (R85): decrements Ec and branches back while the new count is non-zero; Ec = 0 falls through. A LOOP that waited for its count uses the block staged meanwhile when it falls through (R103; notes/assumptions/97.md). -/
def execLoop (t : Nat) (ra : Reg) (off : BitVec 16) (s : State) : Host.Outcome State Fault Refusal :=
  .next (runInstr t (fun _ => { enc := encB 0x26 ra 0 off, alloc := loopOk ra off }) (fun s =>
    let pc := (s.thr t).pc
    let found := (s.thr t).tripFound ra
    let s1 := if (s.thr t).tripValid ra then s else s.tripWait t ra
    let n := (s1.thr t).rE ra
    let tgt := pc - BitVec.ofNat 64 (4 * off.toNat)
    let m := if n = 0 then n else n - 1
    let taken := n != 0 && m != 0
    let s2 := (s1.resolveStaged t (fun _ => !taken)).updThr t (fun th => th.setTrip ra m)
    .goto (s2.loopCapture t ra pc off taken found) (if taken then tgt else pc + 4)) s)

/-- LOOP_COUNT_WAIT (R103): a LOOP on Ec held at DE1 without a valid counter loads one, and the next sequential block is staged unless the read meets an error (`bad`). -/
def execLoopCountWait (t : Nat) (ra : Reg) (s : State) (bad : Bool := false) : Host.Outcome State Fault Refusal :=
  .next (if !s.canRun t || ra == 0 || (s.thr t).tripValid ra then s else s.tripWait t ra bad)

/-- STAGING_READ (R104, R106): the branch at the thread's PC hits in the branch-target buffer, and the recovered block is staged unless the read meets an ECC or parity error (`bad`). -/
def execStagingRead (t : Nat) (s : State) (bad : Bool := false) : Host.Outcome State Fault Refusal :=
  .next (if !s.canRun t then s
    else match s.btbLookup t (s.thr t).pc with
      | some b => s.stageBlock t b bad
      | none => s)

end Sys2Proof.Machine
end

