-- ==== Sys2Proof/Machine/Debug.lean ====
section
/-! DEFINITION. The JTAG port and the debug access port (spec/15_security.md R469–R471, R474; spec/20_power_up_boot.md R600). -/
namespace Sys2Proof.Machine

/-- Change the port's own state. -/
def State.updJtag (s : State) (f : JtagSt → JtagSt) : State := { s with jtag := f s.jtag }
/-- Select an instruction with the data register it captures; the scan of the instruction register captures 0b0000_0001; only EXTEST drives the lands. -/
def State.jtagIr (s : State) (ir : Nat) (dr : Word) : State := s.updJtag (fun j => { j with ir := ir, irCapture := 0x01, driving := ir == 0, dr := dr })
/-- Cells of the boundary-scan register (R471). -/
def bscanCells : Nat := 7545
/-- Value of IDCODE (R471); STEPPING is the silicon's own (notes/assumptions/6.md). -/
def idcode : Nat := 0x92008B7 + (Config.freeWord 0x57 0).toNat % 16 * 2 ^ 28
/-- Is any debug enable in force? -/
def State.debugOn (s : State) : Bool := s.dbgMask != 0

/-- May EXTEST be used: while the device is held in cold reset or NI is in force (R470)? -/
def State.extestOk (s : State) : Bool := s.boot.held || s.dbgEnabled 2

/-- An opcode is shifted into the instruction register: the instruction it selects, with the data register that captures; one not listed, or not available, selects BYPASS (R471). -/
def State.jtagSelect (s : State) (op : Nat) : State :=
  if op = 0x00 && s.extestOk then s.jtagIr 0x00 0
  else if op = 0x01 then s.jtagIr 0x01 0
  else if op = 0x02 then s.jtagIr 0x02 (BitVec.ofNat 64 idcode)
  else if op = 0x10 && s.debugOn then s.jtagIr 0x10 s.jtag.data
  else if op = 0x11 && s.debugOn then s.jtagIr 0x11 s.jtag.addr
  else if op = 0x12 then s.jtagIr 0x12 (s.reg a_GAL_BOOT_STAT)
  else s.jtagIr 0xFF 0

/-- A scan of the boundary-scan register: Capture-DR loads the levels of the lands, which are outside the model, the first cell leaves first, and `cells` enter behind the last. -/
def State.bscanShift (s : State) (cells : List Bool) : State :=
  let captured := (List.range bscanCells).map (fun i => (Config.freeWord s.freeCtr (0x47100000 + i)).getLsbD 0)
  s.updJtag (fun j => { j with bscan := (captured ++ cells).drop cells.length })

/-- BYPASS, by an opcode that selects it: 0xFF, or any that is not listed. -/
def execBypass (s : State) (opcode : BitVec 8 := 0xFF) : Host.Outcome State Fault Refusal := .next (s.jtagSelect opcode.toNat)
/-- IDCODE; Test-Logic-Reset selects it too, with no scan of the instruction register. -/
def execIdcode (s : State) (tlr : Bool := false) : Host.Outcome State Fault Refusal :=
  .next ((s.jtagSelect 0x02).updJtag (fun j => { j with irCapture := if tlr then s.jtag.irCapture else j.irCapture }))
/-- BOOTSTAT (20 R600). -/
def execBootstat (s : State) : Host.Outcome State Fault Refusal := .next (s.jtagSelect 0x12)
/-- EXTEST, where it may be used; otherwise as BYPASS (R470). The lands are driven as the register stands; a scan that follows loads it with `cells`. -/
def execExtest (s : State) (cells : List Bool := []) : Host.Outcome State Fault Refusal :=
  .next (if s.extestOk && !cells.isEmpty then (s.tick.jtagSelect 0x00).bscanShift cells else s.jtagSelect 0x00)
/-- SAMPLE/PRELOAD: the lands are captured and `cells` are shifted in. -/
def execSamplePreload (cells : List Bool) (s : State) : Host.Outcome State Fault Refusal := .next ((s.tick.jtagSelect 0x01).bscanShift cells)
/-- DEBUG_ADDR, while a debug enable is in force; otherwise as BYPASS. -/
def execDebugAddr (addr : BitVec 64) (s : State) : Host.Outcome State Fault Refusal :=
  .next (if s.debugOn then (s.jtagIr 0x11 addr).updJtag (fun j => { j with addr := addr }) else s.jtagIr 0xFF 0)

/-! ### The debug access port (R471) -/

/-- SPACE, address and logical thread that DEBUG_ADDR names. -/
def JtagSt.space (j : JtagSt) : Nat := fld j.addr 60 4
/-- Address in spaces 0 and 1. -/
def JtagSt.at (j : JtagSt) : Nat := fld j.addr 0 52
/-- Logical thread in spaces 2 and 3. -/
def JtagSt.thread (j : JtagSt) : Nat := fld j.addr 48 10
/-- System-state or register number in spaces 2 and 3. -/
def JtagSt.num (j : JtagSt) : Nat := fld j.addr 0 12
/-- Result of a debug operation: the state, DATA, and ACK: 0 OK, 2 FAULT, 3 DENIED. -/
structure DbgR where
  st : State
  data : Word
  ack : Nat

/-- May the port read, or write, the state of a world (R469)? -/
def State.dbgMay (s : State) (sec write : Bool) : Bool :=
  s.dbgEnabled (match sec, write with | true, true => 0 | true, false => 1 | false, true => 2 | false, false => 3)

/-- World of the target DEBUG_ADDR names: a region's line, a page of the CCS map, or the thread's present world. -/
def State.dbgSec (s : State) : Bool :=
  let j := s.jtag
  if j.space = 0 then s.isMem j.at && s.lineSec (j.at / 64) else if j.space = 1 then s.pageSecure j.at else (s.thr j.thread).secure

/-- Does the target exist, aligned and of a size it takes? -/
def State.dbgOk (s : State) (n : Nat) (write : Bool) : Bool :=
  let j := s.jtag
  if j.space = 0 then j.at % n == 0 && (s.isMem j.at || s.paKind j.at == .rom)
  else if j.space = 1 then j.at % n == 0 && (n == 4 || n == 8)
  else
    decide (j.thread < s.nThreads) && s.domState (s.stopOf j.thread) == 2 &&
      (if j.space = 2 then (if write then sysWriteLvl j.num else sysReadLvl j.num).isSome
       else j.space == 3 && decide (1 ≤ j.num) && decide (j.num ≤ 31))

/-- A CCS access of the port, as the Lengthsman's. -/
def State.dbgCcs (s : State) (n : Nat) (data : Word) : CcsReq :=
  { off := s.jtag.at, half := n == 4, data := data, sec := s.dbgSec, rtype := 2, req := 4, vmid := 0 }

/-- A read. -/
def State.dbgRead (s : State) (n : Nat) : DbgR :=
  let j := s.jtag
  if j.space < 4 && !s.dbgMay s.dbgSec false then ⟨s, j.data, 3⟩
  else if !s.dbgOk n false then ⟨s, j.data, 2⟩
  else if j.space = 0 then
    if s.isMem j.at then
      let (bs, po) := s.readBytes j.at n
      if po then ⟨s, j.data, 2⟩ else ⟨s, BitVec.ofNat 64 (leVal bs), 0⟩
    else ⟨s, BitVec.ofNat 64 (leVal ((List.range n).map (fun k => smGet (fun _ => 0#8) s.memx.rom (j.at - romBase + k)))), 0⟩
  else if j.space = 1 then
    match (s.ccsCheck (s.dbgCcs n 0) false).or (if (findReg j.at).isNone then s.ownCheck (s.dbgCcs n 0) false else none) with
    | some s1 => ⟨s1, j.data, 2⟩
    | none => let x := s.ccsRead (s.dbgCcs n 0); ⟨x.1, x.2, 0⟩
  else if j.space = 2 then ⟨s, s.sysRead j.thread j.num, 0⟩
  else ⟨s, (s.thr j.thread).rE (BitVec.ofNat 5 j.num), 0⟩

/-- A write. One of TSTAT or DBGCTL ends loop replay (04 R108). -/
def State.dbgWrite (s : State) (n : Nat) (v : Word) : DbgR :=
  let j := s.jtag
  if j.space < 4 && !s.dbgMay s.dbgSec true then ⟨s, j.data, 3⟩
  else if !s.dbgOk n true then ⟨s, j.data, 2⟩
  else if j.space = 0 then ⟨if s.isMem j.at then s.writeBytes j.at (leBytes n v.toNat) 0 else s, j.data, 0⟩
  else if j.space = 1 then
    match (s.ccsCheck (s.dbgCcs n v) true).or (if (findReg j.at).isNone then s.ownCheck (s.dbgCcs n v) true else none) with
    | some s1 => ⟨s1, j.data, 2⟩
    | none => ⟨s.ccsWrite (s.dbgCcs n v), j.data, 0⟩
  else if j.space = 2 then ⟨(s.sysWrite j.thread j.num v).updThr j.thread (fun th => if j.num = 0 || j.num = 0x460 then { th with loopBuf := none } else th), j.data, 0⟩
  else ⟨s.updThr j.thread (fun th => th.wE (BitVec.ofNat 5 j.num) v), j.data, 0⟩

/-- Halt control (R470, R471): DATA[1] steps a halted thread by one instruction, DATA[0] asks for a halt, else the thread resumes. A thread suspended by WAIT stands at an instruction boundary. -/
def State.dbgHalt (s : State) (v : Word) : DbgR :=
  let j := s.jtag
  let t := j.thread
  if !(s.dbgEnabled 0 || s.dbgEnabled 2) then ⟨s, j.data, 3⟩
  else if (j.space != 2 && j.space != 3) || decide (s.nThreads ≤ t) then ⟨s, j.data, 2⟩
  else if bit v 1 then
    if (s.thr t).halted then ⟨s.updThr t (fun th => { th with halted := false, stepOne := true }), j.data, 0⟩ else ⟨s, j.data, 0⟩
  else if bit v 0 then
    if (s.thr t).waiting && bit (s.view t 0x460) 2 && s.invasive t then ⟨s.updThr t (fun th => { th with halted := true }), j.data, 0⟩
    else ⟨s.updThr t (fun th => { th with haltReq := !th.halted }), j.data, 0⟩
  else ⟨s.updThr t (fun th => { th with halted := false, haltReq := false }), j.data, 0⟩

/-- A DEBUG operation, while a debug enable is in force; otherwise as BYPASS. Its DATA and ACK are captured by the next scan. -/
def State.dbgOp (s : State) (f : State → DbgR) : State :=
  if s.debugOn then
    let r := f s.tick
    (r.st.jtagIr 0x10 r.data).updJtag (fun j => { j with data := r.data, ack := r.ack })
  else s.jtagIr 0xFF 0

/-- DEBUG_READ; SIZE is log2 of the bytes. -/
def execDebugRead (size : BitVec 2) (s : State) : Host.Outcome State Fault Refusal := .next (s.dbgOp (fun s => s.dbgRead (2 ^ size.toNat)))
/-- DEBUG_WRITE. -/
def execDebugWrite (size : BitVec 2) (data : BitVec 64) (s : State) : Host.Outcome State Fault Refusal :=
  .next (s.dbgOp (fun s => s.dbgWrite (2 ^ size.toNat) data))
/-- DEBUG_HALT_CONTROL. -/
def execDebugHaltControl (data : BitVec 64) (s : State) : Host.Outcome State Fault Refusal := .next (s.dbgOp (fun s => s.dbgHalt data))

end Sys2Proof.Machine
end

