-- ==== Sys2Proof/Machine/FpScalar.lean ====
section
/-! DEFINITION. Scalar floating point (spec/03_instruction_set.md R91, spec/05_arithmetic.md R127–R140). -/
namespace Sys2Proof.Machine

/-- A scalar floating-point instruction with a result in an SV register: result and flags from the operand lanes (R91). `fl` is its count of binary64 operations. -/
def fpOp (t : Nat) (enc : BitVec 32) (alloc : Bool) (isD : Bool) (fl : Nat) (rd : Reg) (f : Thread → Nat × FpFlags) (s : State) : Host.Outcome State Fault Refusal :=
  .next (runInstr t (fun _ => { enc := enc, alloc := alloc }) (fun s =>
    let r := f (s.thr t)
    .next ((s.updThr t (fun th => (th.wF rd r.1).addFlags r.2)).countFlops t isD fl 1)) s)

/-- A scalar floating-point instruction with a result in an E register. -/
def fpToE (t : Nat) (enc : BitVec 32) (alloc : Bool) (isD : Bool) (fl : Nat) (rd : Reg) (f : Thread → Nat × FpFlags) (s : State) : Host.Outcome State Fault Refusal :=
  .next (runInstr t (fun _ => { enc := enc, alloc := alloc }) (fun s =>
    let r := f (s.thr t)
    .next ((s.updThr t (fun th => (th.wE rd (BitVec.ofNat 64 r.1)).addFlags r.2)).countFlops t isD fl 1)) s)

/-- The format of a bfloat16 accumulation is binary32 (R91). -/
def accFmt (fmt : BitVec 2) : Fmt := if fmt = 3 then fmtS else fmtOf fmt

/-- FADD (R91): Sd = Sa + Sb. -/
def execFadd (t : Nat) (fmt : BitVec 2) (rd ra rb : Reg) (s : State) : Host.Outcome State Fault Refusal :=
  fpOp t (encFPS 0 fmt rd ra rb) (fmtArithOk fmt) (fmt == 2) 1 rd (fun th => fpAdd (fmtOf fmt) th.fpEnv (th.rF (fmtOf fmt) ra) (th.rF (fmtOf fmt) rb)) s
/-- FSUB (R91): Sd = Sa − Sb. -/
def execFsub (t : Nat) (fmt : BitVec 2) (rd ra rb : Reg) (s : State) : Host.Outcome State Fault Refusal :=
  fpOp t (encFPS 1 fmt rd ra rb) (fmtArithOk fmt) (fmt == 2) 1 rd (fun th => fpSub (fmtOf fmt) th.fpEnv (th.rF (fmtOf fmt) ra) (th.rF (fmtOf fmt) rb)) s
/-- FMUL (R91): Sd = Sa × Sb. -/
def execFmul (t : Nat) (fmt : BitVec 2) (rd ra rb : Reg) (s : State) : Host.Outcome State Fault Refusal :=
  fpOp t (encFPS 2 fmt rd ra rb) (fmtArithOk fmt) (fmt == 2) 1 rd (fun th => fpMul (fmtOf fmt) th.fpEnv (th.rF (fmtOf fmt) ra) (th.rF (fmtOf fmt) rb)) s
/-- FDIV (R91): Sd = Sa ÷ Sb. -/
def execFdiv (t : Nat) (fmt : BitVec 2) (rd ra rb : Reg) (s : State) : Host.Outcome State Fault Refusal :=
  fpOp t (encFPS 3 fmt rd ra rb) (fmtArithOk fmt) (fmt == 2) 1 rd (fun th => fpDiv (fmtOf fmt) th.fpEnv (th.rF (fmtOf fmt) ra) (th.rF (fmtOf fmt) rb)) s
/-- FMIN (R91): minimum. -/
def execFmin (t : Nat) (fmt : BitVec 2) (rd ra rb : Reg) (s : State) : Host.Outcome State Fault Refusal :=
  fpOp t (encFPS 7 fmt rd ra rb) (fmtArithOk fmt) (fmt == 2) 1 rd (fun th => fpMinMax (fmtOf fmt) th.fpEnv false (th.rF (fmtOf fmt) ra) (th.rF (fmtOf fmt) rb)) s
/-- FMAX (R91): maximum. -/
def execFmax (t : Nat) (fmt : BitVec 2) (rd ra rb : Reg) (s : State) : Host.Outcome State Fault Refusal :=
  fpOp t (encFPS 8 fmt rd ra rb) (fmtArithOk fmt) (fmt == 2) 1 rd (fun th => fpMinMax (fmtOf fmt) th.fpEnv true (th.rF (fmtOf fmt) ra) (th.rF (fmtOf fmt) rb)) s
/-- FMADD (R91): Sd = Sd + Sa × Sb, one rounding. -/
def execFmadd (t : Nat) (fmt : BitVec 2) (rd ra rb : Reg) (s : State) : Host.Outcome State Fault Refusal :=
  fpOp t (encFPS 5 fmt rd ra rb) (true) (fmt == 2) 2 rd (fun th => fpFma (accFmt fmt) (fmtOf fmt) th.fpEnv false (th.rF (accFmt fmt) rd) (th.rF (fmtOf fmt) ra) (th.rF (fmtOf fmt) rb)) s
/-- FMSUB (R91): Sd = Sd − Sa × Sb, one rounding. -/
def execFmsub (t : Nat) (fmt : BitVec 2) (rd ra rb : Reg) (s : State) : Host.Outcome State Fault Refusal :=
  fpOp t (encFPS 6 fmt rd ra rb) (true) (fmt == 2) 2 rd (fun th => fpFma (accFmt fmt) (fmtOf fmt) th.fpEnv true (th.rF (accFmt fmt) rd) (th.rF (fmtOf fmt) ra) (th.rF (fmtOf fmt) rb)) s
/-- FCMPEQ (R91): Ed = 1 if the comparison holds. -/
def execFcmpeq (t : Nat) (fmt : BitVec 2) (rd ra rb : Reg) (s : State) : Host.Outcome State Fault Refusal :=
  fpToE t (encFPS 11 fmt rd ra rb) (fmtArithOk fmt) (fmt == 2) 1 rd (fun th => let r := fpCompare (fmtOf fmt) th.fpEnv 0 (th.rF (fmtOf fmt) ra) (th.rF (fmtOf fmt) rb); (r.1.toNat, r.2)) s
/-- FCMPLT (R91): Ed = 1 if the comparison holds. -/
def execFcmplt (t : Nat) (fmt : BitVec 2) (rd ra rb : Reg) (s : State) : Host.Outcome State Fault Refusal :=
  fpToE t (encFPS 12 fmt rd ra rb) (fmtArithOk fmt) (fmt == 2) 1 rd (fun th => let r := fpCompare (fmtOf fmt) th.fpEnv 1 (th.rF (fmtOf fmt) ra) (th.rF (fmtOf fmt) rb); (r.1.toNat, r.2)) s
/-- FCMPLE (R91): Ed = 1 if the comparison holds. -/
def execFcmple (t : Nat) (fmt : BitVec 2) (rd ra rb : Reg) (s : State) : Host.Outcome State Fault Refusal :=
  fpToE t (encFPS 13 fmt rd ra rb) (fmtArithOk fmt) (fmt == 2) 1 rd (fun th => let r := fpCompare (fmtOf fmt) th.fpEnv 2 (th.rF (fmtOf fmt) ra) (th.rF (fmtOf fmt) rb); (r.1.toNat, r.2)) s
/-- FSQRT (R91): Sd = √Sa. -/
def execFsqrt (t : Nat) (fmt : BitVec 2) (rd ra : Reg) (s : State) : Host.Outcome State Fault Refusal :=
  fpOp t (encFPS 4 fmt rd ra 0) (fmtArithOk fmt) (fmt == 2) 1 rd (fun th => fpSqrt (fmtOf fmt) th.fpEnv (th.rF (fmtOf fmt) ra)) s
/-- FABS (R91): the sign bit cleared. -/
def execFabs (t : Nat) (fmt : BitVec 2) (rd ra : Reg) (s : State) : Host.Outcome State Fault Refusal :=
  fpOp t (encFPS 9 fmt rd ra 0) (fmtArithOk fmt) (fmt == 2) 0 rd (fun th => ((th.rF (fmtOf fmt) ra) % 2 ^ ((fmtOf fmt).width - 1), {})) s
/-- FNEG (R91): the sign bit inverted. -/
def execFneg (t : Nat) (fmt : BitVec 2) (rd ra : Reg) (s : State) : Host.Outcome State Fault Refusal :=
  fpOp t (encFPS 10 fmt rd ra 0) (fmtArithOk fmt) (fmt == 2) 0 rd (fun th => (fpFlip (fmtOf fmt) (th.rF (fmtOf fmt) ra), {})) s
/-- FCLASS (R91): Ed = class bitmap (05 R136). -/
def execFclass (t : Nat) (fmt : BitVec 2) (rd ra : Reg) (s : State) : Host.Outcome State Fault Refusal :=
  fpToE t (encFPS 14 fmt rd ra 0) (fmtArithOk fmt) (fmt == 2) 0 rd (fun th => (fpClass (fmtOf fmt) (th.rF (fmtOf fmt) ra), {})) s
/-- FCVT (R91): Sd in the format named by RB[1:0] = Sa converted from FMT. -/
def execFcvt (t : Nat) (fmt : BitVec 2) (rd ra : Reg) (dst : BitVec 2) (s : State) : Host.Outcome State Fault Refusal :=
  fpOp t (encFPS 15 fmt rd ra (dst.setWidth 5)) true false 0 rd (fun th => fpCvt (fmtOf fmt) (fmtOf dst) th.fpEnv (th.rF (fmtOf fmt) ra)) s
/-- FCVTI (R91): Ed = Sa converted to a signed 64-bit integer (05 R137). -/
def execFcvti (t : Nat) (fmt : BitVec 2) (rd ra : Reg) (s : State) : Host.Outcome State Fault Refusal :=
  fpToE t (encFPS 16 fmt rd ra 0) (fmtArithOk fmt) (fmt == 2) 0 rd (fun th => fpToInt (fmtOf fmt) th.fpEnv true 64 (th.rF (fmtOf fmt) ra)) s
/-- FCVTIU (R91): Ed = Sa converted to an unsigned 64-bit integer (05 R137). -/
def execFcvtiu (t : Nat) (fmt : BitVec 2) (rd ra : Reg) (s : State) : Host.Outcome State Fault Refusal :=
  fpToE t (encFPS 17 fmt rd ra 0) (fmtArithOk fmt) (fmt == 2) 0 rd (fun th => fpToInt (fmtOf fmt) th.fpEnv false 64 (th.rF (fmtOf fmt) ra)) s
/-- FCVTF (R91): Sd = signed Ea converted to FMT. -/
def execFcvtf (t : Nat) (fmt : BitVec 2) (rd ra : Reg) (s : State) : Host.Outcome State Fault Refusal :=
  fpOp t (encFPS 18 fmt rd ra 0) (fmtArithOk fmt) (fmt == 2) 0 rd (fun th => let p := intParts true 64 (th.rE ra).toNat; fpOfInt (fmtOf fmt) th.fpEnv p.1 p.2) s
/-- FCVTFU (R91): Sd = unsigned Ea converted to FMT. -/
def execFcvtfu (t : Nat) (fmt : BitVec 2) (rd ra : Reg) (s : State) : Host.Outcome State Fault Refusal :=
  fpOp t (encFPS 19 fmt rd ra 0) (fmtArithOk fmt) (fmt == 2) 0 rd (fun th => fpOfInt (fmtOf fmt) th.fpEnv false (th.rE ra).toNat) s
/-- FMVE (R91): Ed = low 64 bits of Sa. -/
def execFmve (t : Nat) (fmt : BitVec 2) (rd ra : Reg) (s : State) : Host.Outcome State Fault Refusal :=
  fpToE t (encFPS 20 fmt rd ra 0) (fmt == 2) (fmt == 2) 0 rd (fun th => (th.rF fmtD ra, {})) s
/-- FMVS (R91): Sd = Ea in the low 64 bits, rest zero. -/
def execFmvs (t : Nat) (fmt : BitVec 2) (rd ra : Reg) (s : State) : Host.Outcome State Fault Refusal :=
  fpOp t (encFPS 21 fmt rd ra 0) (fmt == 2) (fmt == 2) 0 rd (fun th => ((th.rE ra).toNat, {})) s

end Sys2Proof.Machine
end

