-- ==== Sys2Proof/Machine/Integer.lean ====
section
/-! DEFINITION. Integer instructions (spec/03_instruction_set.md R76–R78, spec/05_arithmetic.md R120–R126). -/
namespace Sys2Proof.Machine

/-- An instruction whose only effect is on its thread's registers. -/
def compute (t : Nat) (enc : BitVec 32) (alloc : Bool) (f : Thread → Thread) (s : State) : State :=
  runInstr t (fun _ => { enc := enc, alloc := alloc }) (fun s => .next (s.updThr t f)) s

/-- A format R instruction Ed = f Ea Eb. -/
def opRRR (t op fn : Nat) (rd ra rb : Reg) (f : Word → Word → Word) (s : State) : Host.Outcome State Fault Refusal :=
  .next (compute t (encR op rd ra rb fn) true (fun th => th.wE rd (f (th.rE ra) (th.rE rb))) s)

/-- A unary instruction Ed = f Ea. -/
def opRR (t fn : Nat) (rd ra : Reg) (f : Word → Word) (s : State) : Host.Outcome State Fault Refusal :=
  .next (compute t (encR 1 rd ra 0 fn) true (fun th => th.wE rd (f (th.rE ra))) s)

/-- An immediate instruction Ed = f Ea. -/
def opRI (t : Nat) (enc : BitVec 32) (rd ra : Reg) (f : Word → Word) (s : State) : Host.Outcome State Fault Refusal :=
  .next (compute t enc true (fun th => th.wE rd (f (th.rE ra))) s)

/-- ADD (R76): Ed = Ea + Eb. -/
def execAdd (t : Nat) (rd ra rb : Reg) (s : State) : Host.Outcome State Fault Refusal := opRRR t 1 0x000 rd ra rb (fun a b => a + b) s
/-- SUB (R76): Ed = Ea − Eb. -/
def execSub (t : Nat) (rd ra rb : Reg) (s : State) : Host.Outcome State Fault Refusal := opRRR t 1 0x001 rd ra rb (fun a b => a - b) s
/-- AND (R76): Ed = Ea AND Eb. -/
def execIand (t : Nat) (rd ra rb : Reg) (s : State) : Host.Outcome State Fault Refusal := opRRR t 1 0x002 rd ra rb (fun a b => a &&& b) s
/-- OR (R76): Ed = Ea OR Eb. -/
def execIor (t : Nat) (rd ra rb : Reg) (s : State) : Host.Outcome State Fault Refusal := opRRR t 1 0x003 rd ra rb (fun a b => a ||| b) s
/-- XOR (R76): Ed = Ea XOR Eb. -/
def execIxor (t : Nat) (rd ra rb : Reg) (s : State) : Host.Outcome State Fault Refusal := opRRR t 1 0x004 rd ra rb (fun a b => a ^^^ b) s
/-- ANDN (R76): Ed = Ea AND NOT Eb. -/
def execAndn (t : Nat) (rd ra rb : Reg) (s : State) : Host.Outcome State Fault Refusal := opRRR t 1 0x005 rd ra rb (fun a b => a &&& ~~~b) s
/-- SLL (R76): left shift by Eb[5:0]. -/
def execSll (t : Nat) (rd ra rb : Reg) (s : State) : Host.Outcome State Fault Refusal := opRRR t 1 0x006 rd ra rb (fun a b => a <<< (b.toNat % 64)) s
/-- SRL (R76): logical right shift by Eb[5:0]. -/
def execSrl (t : Nat) (rd ra rb : Reg) (s : State) : Host.Outcome State Fault Refusal := opRRR t 1 0x007 rd ra rb (fun a b => a >>> (b.toNat % 64)) s
/-- SRA (R76): arithmetic right shift by Eb[5:0]. -/
def execSra (t : Nat) (rd ra rb : Reg) (s : State) : Host.Outcome State Fault Refusal := opRRR t 1 0x008 rd ra rb (fun a b => a.sshiftRight (b.toNat % 64)) s
/-- ROR (R76): rotate right by Eb[5:0]. -/
def execRor (t : Nat) (rd ra rb : Reg) (s : State) : Host.Outcome State Fault Refusal := opRRR t 1 0x009 rd ra rb (fun a b => a.rotateRight (b.toNat % 64)) s
/-- ADDW (R76): 32-bit sum, sign-extended. -/
def execAddw (t : Nat) (rd ra rb : Reg) (s : State) : Host.Outcome State Fault Refusal := opRRR t 1 0x00A rd ra rb (fun a b => sext32 (a + b)) s
/-- SUBW (R76): 32-bit difference, sign-extended. -/
def execSubw (t : Nat) (rd ra rb : Reg) (s : State) : Host.Outcome State Fault Refusal := opRRR t 1 0x00B rd ra rb (fun a b => sext32 (a - b)) s
/-- SEQ (R76): equal. -/
def execSeq (t : Nat) (rd ra rb : Reg) (s : State) : Host.Outcome State Fault Refusal := opRRR t 1 0x010 rd ra rb (fun a b => boolWord (a == b)) s
/-- SNE (R76): not equal. -/
def execSne (t : Nat) (rd ra rb : Reg) (s : State) : Host.Outcome State Fault Refusal := opRRR t 1 0x011 rd ra rb (fun a b => boolWord (a != b)) s
/-- SLT (R76): signed less than. -/
def execSlt (t : Nat) (rd ra rb : Reg) (s : State) : Host.Outcome State Fault Refusal := opRRR t 1 0x012 rd ra rb (fun a b => boolWord (a.slt b)) s
/-- SLTU (R76): unsigned less than. -/
def execSltu (t : Nat) (rd ra rb : Reg) (s : State) : Host.Outcome State Fault Refusal := opRRR t 1 0x013 rd ra rb (fun a b => boolWord (a.ult b)) s
/-- SGE (R76): signed greater or equal. -/
def execSge (t : Nat) (rd ra rb : Reg) (s : State) : Host.Outcome State Fault Refusal := opRRR t 1 0x014 rd ra rb (fun a b => boolWord (!a.slt b)) s
/-- SGEU (R76): unsigned greater or equal. -/
def execSgeu (t : Nat) (rd ra rb : Reg) (s : State) : Host.Outcome State Fault Refusal := opRRR t 1 0x015 rd ra rb (fun a b => boolWord (!a.ult b)) s
/-- MIN (R76): signed minimum. -/
def execImin (t : Nat) (rd ra rb : Reg) (s : State) : Host.Outcome State Fault Refusal := opRRR t 1 0x018 rd ra rb (fun a b => if b.slt a then b else a) s
/-- MAX (R76): signed maximum. -/
def execImax (t : Nat) (rd ra rb : Reg) (s : State) : Host.Outcome State Fault Refusal := opRRR t 1 0x019 rd ra rb (fun a b => if a.slt b then b else a) s
/-- MINU (R76): unsigned minimum. -/
def execMinu (t : Nat) (rd ra rb : Reg) (s : State) : Host.Outcome State Fault Refusal := opRRR t 1 0x01A rd ra rb (fun a b => if b.ult a then b else a) s
/-- MAXU (R76): unsigned maximum. -/
def execMaxu (t : Nat) (rd ra rb : Reg) (s : State) : Host.Outcome State Fault Refusal := opRRR t 1 0x01B rd ra rb (fun a b => if a.ult b then b else a) s
/-- ADDC (R76): Ed = Ea + Eb + C, and C receives the carry out, even when RD is E0. -/
def execAddc (t : Nat) (rd ra rb : Reg) (s : State) : Host.Outcome State Fault Refusal :=
  .next (compute t (encR 1 rd ra rb 0x020) true
    (fun th => let r := addCarry (th.rE ra) (th.rE rb) th.carry; (th.wE rd r.1).setC r.2) s)
/-- SUBB (R76): Ed = Ea − Eb − C, and C receives the borrow out. -/
def execSubb (t : Nat) (rd ra rb : Reg) (s : State) : Host.Outcome State Fault Refusal :=
  .next (compute t (encR 1 rd ra rb 0x021) true
    (fun th => let r := subBorrow (th.rE ra) (th.rE rb) th.carry; (th.wE rd r.1).setC r.2) s)
/-- SELNZ (R76): Ed = Ea if Eb is non-zero, else Ed unchanged. -/
def execSelnz (t : Nat) (rd ra rb : Reg) (s : State) : Host.Outcome State Fault Refusal :=
  .next (compute t (encR 1 rd ra rb 0x028) true (fun th => th.wE rd (if th.rE rb = 0 then th.rE rd else th.rE ra)) s)
/-- CLZ (R76): leading zeros. -/
def execClz (t : Nat) (rd ra : Reg) (s : State) : Host.Outcome State Fault Refusal := opRR t 0x030 rd ra (fun a => BitVec.ofNat 64 (clz64 a)) s
/-- CTZ (R76): trailing zeros. -/
def execCtz (t : Nat) (rd ra : Reg) (s : State) : Host.Outcome State Fault Refusal := opRR t 0x031 rd ra (fun a => BitVec.ofNat 64 (ctz64 a)) s
/-- POP (R76): set bits. -/
def execPop (t : Nat) (rd ra : Reg) (s : State) : Host.Outcome State Fault Refusal := opRR t 0x032 rd ra (fun a => BitVec.ofNat 64 (popN a)) s
/-- BSWAP (R76): bytes reversed. -/
def execBswap (t : Nat) (rd ra : Reg) (s : State) : Host.Outcome State Fault Refusal := opRR t 0x033 rd ra (bswap64) s
/-- SEXTB (R76): low 8 bits sign-extended. -/
def execSextB (t : Nat) (rd ra : Reg) (s : State) : Host.Outcome State Fault Refusal := opRR t 0x034 rd ra (fun a => (a.setWidth 8).signExtend 64) s
/-- SEXTH (R76): low 16 bits sign-extended. -/
def execSextH (t : Nat) (rd ra : Reg) (s : State) : Host.Outcome State Fault Refusal := opRR t 0x035 rd ra (fun a => (a.setWidth 16).signExtend 64) s
/-- SEXTW (R76): low 32 bits sign-extended. -/
def execSextW (t : Nat) (rd ra : Reg) (s : State) : Host.Outcome State Fault Refusal := opRR t 0x036 rd ra (sext32) s
/-- ZEXTW (R76): low 32 bits zero-extended. -/
def execZextW (t : Nat) (rd ra : Reg) (s : State) : Host.Outcome State Fault Refusal := opRR t 0x037 rd ra (fun a => (a.setWidth 32).setWidth 64) s
/-- MUL (R77): low 64 bits of the product. -/
def execMul (t : Nat) (rd ra rb : Reg) (s : State) : Host.Outcome State Fault Refusal := opRRR t 2 0x000 rd ra rb (fun a b => a * b) s
/-- MULH (R77): high 64 bits of the signed product. -/
def execMulh (t : Nat) (rd ra rb : Reg) (s : State) : Host.Outcome State Fault Refusal := opRRR t 2 0x001 rd ra rb (fun a b => hi64 (mulWide true true a b)) s
/-- MULHU (R77): high 64 bits of the unsigned product. -/
def execMulhu (t : Nat) (rd ra rb : Reg) (s : State) : Host.Outcome State Fault Refusal := opRRR t 2 0x002 rd ra rb (fun a b => hi64 (mulWide false false a b)) s
/-- MULHSU (R77): high 64 bits, Ea signed and Eb unsigned. -/
def execMulhsu (t : Nat) (rd ra rb : Reg) (s : State) : Host.Outcome State Fault Refusal := opRRR t 2 0x003 rd ra rb (fun a b => hi64 (mulWide true false a b)) s
/-- MULWU (05 R126): the pair Ed, Ed+1 receives the 128-bit product. -/
def execMulwu (t : Nat) (rd ra rb : Reg) (s : State) : Host.Outcome State Fault Refusal :=
  .next (compute t (encR 2 rd ra rb 0x004) (pairOk rd) (fun th => th.wPair rd (mulWide false false (th.rE ra) (th.rE rb))) s)
/-- MULWS (05 R126): the pair Ed, Ed+1 receives the 128-bit product. -/
def execMulws (t : Nat) (rd ra rb : Reg) (s : State) : Host.Outcome State Fault Refusal :=
  .next (compute t (encR 2 rd ra rb 0x005) (pairOk rd) (fun th => th.wPair rd (mulWide true true (th.rE ra) (th.rE rb))) s)

/-- A divide (R77, 05 R121–R123): with DIVTRAP 1 a zero divisor raises DIV_ZERO and MIN / −1 raises DIV_OVERFLOW; otherwise the edge results are written. -/
def divide (t fn : Nat) (rd ra rb : Reg) (edge : Word → Word → DivEdge) (f : Word → Word → Word) (s : State) : Host.Outcome State Fault Refusal :=
  .next (runInstr t (fun _ => { enc := encR 2 rd ra rb fn }) (fun s =>
    let th := s.thr t
    let a := th.rE ra
    let b := th.rE rb
    match th.divtrap, edge a b with
    | true, .zero => .trap s { code := 0x38, reg := rd.toNat } false
    | true, .overflow => .trap s { code := 0x39, reg := rd.toNat } false
    | _, _ => .next (s.updThr t (fun th => th.wE rd (f a b)))) s)

/-- DIV (R77): signed quotient. -/
def execDiv (t : Nat) (rd ra rb : Reg) (s : State) : Host.Outcome State Fault Refusal := divide t 0x008 rd ra rb (divEdgeS) divS s
/-- DIVU (R77): unsigned quotient. -/
def execDivu (t : Nat) (rd ra rb : Reg) (s : State) : Host.Outcome State Fault Refusal := divide t 0x009 rd ra rb (fun _ b => divEdgeU b) divU s
/-- REM (R77): signed remainder. -/
def execRem (t : Nat) (rd ra rb : Reg) (s : State) : Host.Outcome State Fault Refusal := divide t 0x00A rd ra rb (divEdgeS) remS s
/-- REMU (R77): unsigned remainder. -/
def execRemu (t : Nat) (rd ra rb : Reg) (s : State) : Host.Outcome State Fault Refusal := divide t 0x00B rd ra rb (fun _ b => divEdgeU b) remU s
/-- DIVW (R77): signed 32-bit quotient. -/
def execDivw (t : Nat) (rd ra rb : Reg) (s : State) : Host.Outcome State Fault Refusal := divide t 0x00C rd ra rb (divEdgeW) divWS s
/-- DIVWU (R77): unsigned 32-bit quotient. -/
def execDivwu (t : Nat) (rd ra rb : Reg) (s : State) : Host.Outcome State Fault Refusal := divide t 0x00D rd ra rb (fun _ b => divEdgeWU b) divWU s
/-- ADDI (R78): Ea + sext(IMM16). -/
def execAddi (t : Nat) (rd ra : Reg) (imm : BitVec 16) (s : State) : Host.Outcome State Fault Refusal := opRI t (encI 0x03 rd ra imm) rd ra (fun a => a + sx imm) s
/-- ANDI (R78): Ea AND zext(IMM16). -/
def execAndi (t : Nat) (rd ra : Reg) (imm : BitVec 16) (s : State) : Host.Outcome State Fault Refusal := opRI t (encI 0x04 rd ra imm) rd ra (fun a => a &&& zx imm) s
/-- ORI (R78): Ea OR zext(IMM16). -/
def execOri (t : Nat) (rd ra : Reg) (imm : BitVec 16) (s : State) : Host.Outcome State Fault Refusal := opRI t (encI 0x05 rd ra imm) rd ra (fun a => a ||| zx imm) s
/-- XORI (R78): Ea XOR zext(IMM16). -/
def execXori (t : Nat) (rd ra : Reg) (imm : BitVec 16) (s : State) : Host.Outcome State Fault Refusal := opRI t (encI 0x06 rd ra imm) rd ra (fun a => a ^^^ zx imm) s
/-- SLTI (R78): Ea below sext(IMM16), signed. -/
def execSlti (t : Nat) (rd ra : Reg) (imm : BitVec 16) (s : State) : Host.Outcome State Fault Refusal := opRI t (encI 0x07 rd ra imm) rd ra (fun a => boolWord (a.slt (sx imm))) s
/-- SLTIU (R78): Ea below sext(IMM16), unsigned. -/
def execSltiu (t : Nat) (rd ra : Reg) (imm : BitVec 16) (s : State) : Host.Outcome State Fault Refusal := opRI t (encI 0x08 rd ra imm) rd ra (fun a => boolWord (a.ult (sx imm))) s
/-- LUI (R78): Ed = sext(IMM16 << 16). -/
def execLui (t : Nat) (rd : Reg) (imm : BitVec 16) (s : State) : Host.Outcome State Fault Refusal :=
  opRI t (encI 0x09 rd 0 imm) rd 0 (fun _ => sx (imm ++ 0#16)) s
/-- INSI (R78): halfword h of Ed receives IMM16. -/
def execInsi (t : Nat) (rd : Reg) (h : BitVec 2) (imm : BitVec 16) (s : State) : Host.Outcome State Fault Refusal :=
  opRI t (encI 0x0A rd (h.setWidth 5) imm) rd rd (fun d => insHalf d h.toNat imm) s
/-- ADDPC (R78): Ed = PC with bits [11:0] cleared + sext(IMM21) × 4096. -/
def execAddpc (t : Nat) (rd : Reg) (imm : BitVec 21) (s : State) : Host.Outcome State Fault Refusal :=
  .next (compute t (encU 0x0B rd imm) true (fun th => th.wE rd ((th.pc &&& ~~~(0xFFF#64)) + (sx imm <<< 12))) s)
/-- SLLI (R78): Ea shifted or rotated by SHAMT. -/
def execSlli (t : Nat) (rd ra : Reg) (sh : BitVec 6) (s : State) : Host.Outcome State Fault Refusal := opRI t (encSH 0x0C rd ra sh 0) rd ra (fun a => a <<< sh.toNat) s
/-- SRLI (R78): Ea shifted or rotated by SHAMT. -/
def execSrli (t : Nat) (rd ra : Reg) (sh : BitVec 6) (s : State) : Host.Outcome State Fault Refusal := opRI t (encSH 0x0C rd ra sh 1) rd ra (fun a => a >>> sh.toNat) s
/-- SRAI (R78): Ea shifted or rotated by SHAMT. -/
def execSrai (t : Nat) (rd ra : Reg) (sh : BitVec 6) (s : State) : Host.Outcome State Fault Refusal := opRI t (encSH 0x0C rd ra sh 2) rd ra (fun a => a.sshiftRight sh.toNat) s
/-- RORI (R78): Ea shifted or rotated by SHAMT. -/
def execRori (t : Nat) (rd ra : Reg) (sh : BitVec 6) (s : State) : Host.Outcome State Fault Refusal := opRI t (encSH 0x0C rd ra sh 3) rd ra (fun a => a.rotateRight sh.toNat) s

end Sys2Proof.Machine
end

