-- ==== Sys2Proof/Machine/Mask.lean ====
section
/-! DEFINITION. Mask register operations (spec/03_instruction_set.md R94). -/
namespace Sys2Proof.Machine

/-- A mask operation Md = f Ma Mb (R94). -/
def maskOp (t fn : Nat) (md ma mb : Reg) (f : BitVec 256 → BitVec 256 → BitVec 256) (s : State) : Host.Outcome State Fault Refusal :=
  .next (compute t (encR 0x39 md ma mb fn) (mOk md && mOk ma && mOk mb) (fun th => th.wM md.toNat (f (th.rM ma.toNat) (th.rM mb.toNat))) s)

/-- MAND (R94). -/
def execMand (t : Nat) (md ma mb : Reg) (s : State) : Host.Outcome State Fault Refusal := maskOp t 0 md ma mb (fun a b => a &&& b) s
/-- MOR (R94). -/
def execMor (t : Nat) (md ma mb : Reg) (s : State) : Host.Outcome State Fault Refusal := maskOp t 1 md ma mb (fun a b => a ||| b) s
/-- MXOR (R94). -/
def execMxor (t : Nat) (md ma mb : Reg) (s : State) : Host.Outcome State Fault Refusal := maskOp t 2 md ma mb (fun a b => a ^^^ b) s
/-- MANDN (R94). -/
def execMandn (t : Nat) (md ma mb : Reg) (s : State) : Host.Outcome State Fault Refusal := maskOp t 3 md ma mb (fun a b => a &&& ~~~b) s
/-- MNOT (R94). -/
def execMnot (t : Nat) (md ma : Reg) (s : State) : Host.Outcome State Fault Refusal :=
  .next (compute t (encR 0x39 md ma 0 4) (mOk md && mOk ma) (fun th => th.wM md.toNat (~~~(th.rM ma.toNat))) s)
/-- MPOP (R94). -/
def execMpop (t : Nat) (rd ma : Reg) (s : State) : Host.Outcome State Fault Refusal :=
  .next (compute t (encR 0x39 rd ma 0 5) (mOk ma) (fun th => th.wE rd (BitVec.ofNat 64 (popN (th.rM ma.toNat)))) s)
/-- MFIRST (R94): 256 if no bit is set. -/
def execMfirst (t : Nat) (rd ma : Reg) (s : State) : Host.Outcome State Fault Refusal :=
  .next (compute t (encR 0x39 rd ma 0 6) (mOk ma) (fun th => th.wE rd (BitVec.ofNat 64 (firstSet (th.rM ma.toNat)))) s)
/-- MGET (R94). -/
def execMget (t : Nat) (rd ma : Reg) (part : BitVec 2) (s : State) : Host.Outcome State Fault Refusal :=
  .next (compute t (encR 0x39 rd ma 0 (7 + 256 * part.toNat)) (mOk ma) (fun th => th.wE rd ((th.rM ma.toNat).extractLsb' (64 * part.toNat) 64)) s)
/-- A mask register with one 64-bit part replaced. -/
def setPart (m : BitVec 256) (part : Nat) (x : Word) : BitVec 256 :=
  (m &&& ~~~((BitVec.allOnes 64).setWidth 256 <<< (64 * part))) ||| (x.setWidth 256 <<< (64 * part))
/-- MSET (R94). -/
def execMset (t : Nat) (md ra : Reg) (part : BitVec 2) (s : State) : Host.Outcome State Fault Refusal :=
  .next (compute t (encR 0x39 md ra 0 (8 + 256 * part.toNat)) (mOk md) (fun th => th.wM md.toNat (setPart (th.rM md.toNat) part.toNat (th.rE ra))) s)

end Sys2Proof.Machine
end

