-- ==== Sys2Proof/Machine/RegCmds.lean ====
section
/-! DEFINITION. Commands that are a write or a read of one register by an agent (spec/00_scope.md R12 and the rows of the blocks): each is the 64-bit access with the fields it names, under the checks of Chip Control Space. -/
namespace Sys2Proof.Machine

/-- A write of a register by an agent. -/
def State.agentWrite (s : State) (a : Agent) (off : Nat) (half : Bool) (data : Word) : State :=
  s.tick.ccsWrite { off := off, half := half, data := data, sec := a.sec, rtype := a.kind, req := a.num, vmid := a.vmid }
/-- A 64-bit write of a register of an instance that exists. -/
def State.instWrite (s : State) (a : Agent) (ok : Bool) (off : Nat) (data : Nat) : State :=
  if ok then s.agentWrite a off false (BitVec.ofNat 64 data) else s
/-- A 64-bit read of a register by an agent; the value goes to the agent. -/
def State.agentRead (s : State) (a : Agent) (off : Nat) : State × Word :=
  s.tick.ccsRead { off := off, half := false, data := 0, sec := a.sec, rtype := a.kind, req := a.num, vmid := a.vmid }

/-- REGISTER_WRITE: a naturally aligned 32-bit or 64-bit write (00 R11, R12). -/
def execRegisterWrite (a : Agent) (off : Nat) (half : Bool) (data : BitVec 64) (s : State) : Host.Outcome State Fault Refusal :=
  .next (if off % (if half then 4 else 8) = 0 then s.agentWrite a off half data else s)

/-! ### I/O translation (10 R311) -/

/-- IOT_INV_STREAM. -/
def execIotInvStream (a : Agent) (stream : Nat) (preload : Bool) (s : State) : Host.Outcome State Fault Refusal :=
  .next (s.instWrite a true a_IOT_INV (stream % 2 ^ 20 + preload.toNat * 2 ^ 21 + 2 ^ 63))
/-- IOT_INV_ALL. -/
def execIotInvAll (a : Agent) (stream : Nat) (preload : Bool) (s : State) : Host.Outcome State Fault Refusal :=
  .next (s.instWrite a true a_IOT_INV (stream % 2 ^ 20 + 2 ^ 20 + preload.toNat * 2 ^ 21 + 2 ^ 63))

/-! ### Interrupt Router and QoS (11 R324, R330, R346–R353) -/

/-- RECORD_LOAD: V = 1 with the record's address bits [51:7]. -/
def execRecordLoad (a : Agent) (n rec : Nat) (s : State) : Host.Outcome State Fault Refusal :=
  .next (s.instWrite a (decide (n < 832)) (a_IRT_THR n) (1 + rec % 2 ^ 45 * 2 ^ 7))
/-- RECORD_UNLOAD: V = 0. -/
def execRecordUnload (a : Agent) (n : Nat) (s : State) : Host.Outcome State Fault Refusal :=
  .next (s.instWrite a (decide (n < 832)) (a_IRT_THR n) 0)
/-- Data of an IRT_TCMD write that starts an OP. -/
def tcmdData (op : Nat) (internal : Bool) (src ev : Nat) : Nat :=
  op + internal.toNat * 2 ^ 4 + src % 2 ^ 20 * 2 ^ 5 + ev % 2 ^ 16 * 2 ^ 25 + 2 ^ 63
/-- IRT_TCMD_INVALIDATE_SOURCE. -/
def execIrtTcmdInvalidateSource (a : Agent) (internal : Bool) (src : Nat) (s : State) : Host.Outcome State Fault Refusal :=
  .next (s.instWrite a true a_IRT_TCMD (tcmdData 1 internal src 0))
/-- IRT_TCMD_INVALIDATE_ALL. -/
def execIrtTcmdInvalidateAll (a : Agent) (s : State) : Host.Outcome State Fault Refusal :=
  .next (s.instWrite a true a_IRT_TCMD (tcmdData 2 false 0 0))
/-- IRT_TCMD_PIN. -/
def execIrtTcmdPin (a : Agent) (internal : Bool) (src ev : Nat) (s : State) : Host.Outcome State Fault Refusal :=
  .next (s.instWrite a true a_IRT_TCMD (tcmdData 3 internal src ev))
/-- IRT_TCMD_UNPIN. -/
def execIrtTcmdUnpin (a : Agent) (internal : Bool) (src ev : Nat) (s : State) : Host.Outcome State Fault Refusal :=
  .next (s.instWrite a true a_IRT_TCMD (tcmdData 4 internal src ev))
/-- IRT_ACK_N: a read of IRT_ACK_N_n. -/
def execIrtAckN (a : Agent) (n : Nat) (s : State) : Host.Outcome State Fault Refusal :=
  .next (if n < 832 then (s.agentRead a (a_IRT_ACK_N n)).1 else s)
/-- IRT_ACK_S: a read of IRT_ACK_S_n. -/
def execIrtAckS (a : Agent) (n : Nat) (s : State) : Host.Outcome State Fault Refusal :=
  .next (if n < 832 then (s.agentRead a (a_IRT_ACK_S n)).1 else s)
/-- QOS_TRST_RESET: OP 1 with GO. -/
def execQosTrstReset (a : Agent) (vmid cls : Nat) (s : State) : Host.Outcome State Fault Refusal :=
  .next (s.instWrite a true a_QOS_TRST (vmid % 2 ^ 16 + cls % 64 * 2 ^ 16 + 2 ^ 24 + 2 ^ 63))
/-- QOS_TRST_RELEASE: OP 2 with GO. -/
def execQosTrstRelease (a : Agent) (vmid cls : Nat) (s : State) : Host.Outcome State Fault Refusal :=
  .next (s.instWrite a true a_QOS_TRST (vmid % 2 ^ 16 + cls % 64 * 2 ^ 16 + 2 * 2 ^ 24 + 2 ^ 63))

/-! ### Lock-Keeper (12 R362, R364, R374) -/

/-- LKP_BERTH_CFG_WRITE. -/
def execLkpBerthCfgWrite (a : Agent) (b : Nat) (data : BitVec 64) (s : State) : Host.Outcome State Fault Refusal :=
  .next (s.instWrite a (decide (b < 64)) (a_LKP_BERTH_CFG b) data.toNat)
/-- LKP_SEC_RES_WRITE. -/
def execLkpSecResWrite (a : Agent) (data : BitVec 64) (s : State) : Host.Outcome State Fault Refusal :=
  .next (s.instWrite a true a_LKP_SEC_RES data.toNat)
/-- LKP_SYNC_CTL_ARM: ARMED 1 with TIMEOUT. -/
def execLkpSyncCtlArm (a : Agent) (timeout : Nat) (s : State) : Host.Outcome State Fault Refusal :=
  .next (s.instWrite a true a_LKP_SYNC_CTL (1 + timeout % 2 ^ 16 * 2 ^ 16))
/-- LKP_SYNC_CTL_DISARM: ARMED 0 with TIMEOUT. -/
def execLkpSyncCtlDisarm (a : Agent) (timeout : Nat) (s : State) : Host.Outcome State Fault Refusal :=
  .next (s.instWrite a true a_LKP_SYNC_CTL (timeout % 2 ^ 16 * 2 ^ 16))

/-! ### Barge engines (13 R389, R405–R413); channel c is channel c mod 8 of engine c div 8 -/

/-- A write to a register of a channel. -/
def State.chWrite (s : State) (a : Agent) (c o data : Nat) : State :=
  s.instWrite a (decide (c < 128)) (a_BRG_CH_CTL (c / 8) (c % 8) + o) data
/-- BRG_CH_TAIL. -/
def execBrgChTail (a : Agent) (c tail : Nat) (s : State) : Host.Outcome State Fault Refusal := .next (s.chWrite a c 0x10 (tail % 2 ^ 16))
/-- BRG_CH_ENABLE: ENABLE 1, with HOLD. -/
def execBrgChEnable (a : Agent) (c : Nat) (hold : Bool) (s : State) : Host.Outcome State Fault Refusal := .next (s.chWrite a c 0 (1 + hold.toNat * 2))
/-- BRG_CH_DISABLE: ENABLE 0. -/
def execBrgChDisable (a : Agent) (c : Nat) (s : State) : Host.Outcome State Fault Refusal := .next (s.chWrite a c 0 0)
/-- BRG_CH_RESTART: RESTART with ENABLE kept at 1. -/
def execBrgChRestart (a : Agent) (c : Nat) (s : State) : Host.Outcome State Fault Refusal := .next (s.chWrite a c 0 5)
/-- BRG_CH_ABORT: ABORT, which clears ENABLE. -/
def execBrgChAbort (a : Agent) (c : Nat) (s : State) : Host.Outcome State Fault Refusal := .next (s.chWrite a c 0 8)
/-- SHADOW_ARM. -/
def execShadowArm (a : Agent) (c : Nat) (s : State) : Host.Outcome State Fault Refusal := .next (s.chWrite a c 0x58 1)

/-! ### Expansion ports (14 R427, R439, R443, R455) -/

/-- RPT_HDM_WRITE. -/
def execRptHdmWrite (a : Agent) (p n : Nat) (data : BitVec 64) (s : State) : Host.Outcome State Fault Refusal :=
  .next (s.instWrite a (decide (p < 8) && decide (n < 8)) (a_RPT_HDM p n) data.toNat)
/-- WHF_PW_COMMIT. -/
def execWhfPwCommit (a : Agent) (mask : Nat) (s : State) : Host.Outcome State Fault Refusal := .next (s.instWrite a true a_WHF_PW_COMMIT (mask % 256))
/-- WHF_VF_CTL_RESET. -/
def execWhfVfCtlReset (a : Agent) (v : Nat) (s : State) : Host.Outcome State Fault Refusal := .next (s.instWrite a (decide (v < 16)) (a_WHF_VF_CTL v) 4)
/-- WHF_IRQ_GO. -/
def execWhfIrqGo (a : Agent) (fn vec : Nat) (s : State) : Host.Outcome State Fault Refusal :=
  .next (s.instWrite a true a_WHF_IRQ (fn % 32 + vec % 256 * 2 ^ 8 + 2 ^ 63))

/-! ### Tollhouse (15 R462, R468, R477, R481) -/

/-- TOL_SMR_WRITE. -/
def execTolSmrWrite (a : Agent) (n : Nat) (data : BitVec 64) (s : State) : Host.Outcome State Fault Refusal :=
  .next (s.instWrite a (decide (n < 64)) (a_TOL_SMR n) data.toNat)
/-- MAP_LOCK. -/
def execMapLock (a : Agent) (s : State) : Host.Outcome State Fault Refusal := .next (s.instWrite a true a_TOL_CTL 1)
/-- A mailbox operation: the arguments are written in turn, then OP together with GO. -/
def State.mbxOp (s : State) (a : Agent) (op : Nat) (args : List (BitVec 64)) : State :=
  ((List.range args.length).foldl (fun s i => s.instWrite a true (a_TOL_MBX_ARG i) (args.getD i 0).toNat) s).instWrite a true a_TOL_MBX_CMD (op + 2 ^ 63)
/-- RANDOM. -/
def execRandom (a : Agent) (s : State) : Host.Outcome State Fault Refusal := .next (s.mbxOp a 1 [])
/-- SHA384: source, length, destination. -/
def execSha384 (a : Agent) (src len dst : BitVec 64) (s : State) : Host.Outcome State Fault Refusal := .next (s.mbxOp a 2 [src, len, dst])
/-- ECDSA_VERIFY: digest, public key, signature. -/
def execEcdsaVerify (a : Agent) (digest key sig : BitVec 64) (s : State) : Host.Outcome State Fault Refusal := .next (s.mbxOp a 3 [digest, key, sig])
/-- MLDSA_VERIFY: message, length, public key, signature. -/
def execMldsaVerify (a : Agent) (msg len key sig : BitVec 64) (s : State) : Host.Outcome State Fault Refusal := .next (s.mbxOp a 4 [msg, len, key, sig])
/-- SEAL: source, length, destination. -/
def execSeal (a : Agent) (src len dst : BitVec 64) (s : State) : Host.Outcome State Fault Refusal := .next (s.mbxOp a 5 [src, len, dst])
/-- UNSEAL: source, sealed length, destination. -/
def execUnseal (a : Agent) (src len dst : BitVec 64) (s : State) : Host.Outcome State Fault Refusal := .next (s.mbxOp a 6 [src, len, dst])
/-- WATCHDOG_START: EN with TIMEOUT, WARN_INTID and WARN_THREAD. -/
def execWatchdogStart (a : Agent) (timeout intid thread : Nat) (s : State) : Host.Outcome State Fault Refusal :=
  .next (s.instWrite a true a_TOL_WDOG_CTL (1 + timeout % 2 ^ 16 * 2 ^ 16 + intid % 256 * 2 ^ 32 + thread % 1024 * 2 ^ 42))
/-- TOL_WDOG_KICK. -/
def execTolWdogKick (a : Agent) (v : Nat) (s : State) : Host.Outcome State Fault Refusal := .next (s.instWrite a true a_TOL_WDOG_KICK (v % 2 ^ 16))

/-! ### Power voting controller (16 R514) -/

/-- PVC_HYP_VOTE. -/
def execPvcHypVote (a : Agent) (d : Nat) (vote : Bool) (s : State) : Host.Outcome State Fault Refusal :=
  .next (s.instWrite a (decide (d < 788)) (a_PVC_HYP_VOTE d) vote.toNat)
/-- PVC_SEC_VOTE. -/
def execPvcSecVote (a : Agent) (d : Nat) (vote : Bool) (s : State) : Host.Outcome State Fault Refusal :=
  .next (s.instWrite a (decide (d < 788)) (a_PVC_SEC_VOTE d) vote.toNat)
/-- PVC_CLK: CLKSTOP. -/
def execPvcClk (a : Agent) (d : Nat) (stop : Bool) (s : State) : Host.Outcome State Fault Refusal :=
  .next (s.instWrite a (decide (d < 788)) (a_PVC_CLK d) stop.toNat)

/-! ### Galley rings and Event Queues (17 R524, R539, R541, R544) -/

/-- GAL_TAIL. -/
def execGalTail (a : Agent) (r tail : Nat) (s : State) : Host.Outcome State Fault Refusal :=
  .next (s.instWrite a (decide (r < 4)) (a_GAL_TAIL r) (tail % 2 ^ 16))
/-- GAL_STAT_ERR_CLEAR: ERR is cleared by a write of 1. -/
def execGalStatErrClear (a : Agent) (r : Nat) (s : State) : Host.Outcome State Fault Refusal :=
  .next (s.instWrite a (decide (r < 4)) (a_GAL_STAT r) (2 ^ 48))
/-- EVQ_CONS. -/
def execEvqCons (a : Agent) (q cons : Nat) (s : State) : Host.Outcome State Fault Refusal :=
  .next (s.instWrite a (decide (q < 3)) (a_EVQ_CONS q) (cons % 2 ^ 16))
/-- EVQ_CTL_WRITE. -/
def execEvqCtlWrite (a : Agent) (q : Nat) (data : BitVec 64) (s : State) : Host.Outcome State Fault Refusal :=
  .next (s.instWrite a (decide (q < 3)) (a_EVQ_CTL q) data.toNat)

/-! ### Performance monitoring (19 R588) -/

/-- UNC_BW_CTL_WRITE: unit u of 0–15 DDR5, 16–19 HBM, 20–57 aqueducts, 58–65 root ports, 66 Wharf. -/
def execUncBwCtlWrite (a : Agent) (u : Nat) (data : BitVec 64) (s : State) : Host.Outcome State Fault Refusal :=
  .next (s.instWrite a (decide (u < 67)) (bwCtl u) data.toNat)

end Sys2Proof.Machine
end

