-- ==== Sys2Proof/Machine/Tlbi.lean ====
section
/-! DEFINITION. TLB invalidation (spec/03_instruction_set.md R90; spec/10_translation.md R294–R296; spec/04_core_pipeline.md R106, R108). -/
namespace Sys2Proof.Machine

/-- The four forms with their operands (R294), the VMID they act in (R295), and whether they reach the level-2 regime. -/
inductive TlbiForm where
  | va (page : Word) (asid vmid : Nat) (hyp : Bool)
  | asid (asid vmid : Nat)
  | vmid (vmid : Nat)
  | all
  deriving DecidableEq, Repr

/-- Does a page of 2^szl bytes contain an address? -/
def pageHas (vpage szl : Nat) (va : Word) : Bool := vpage == va.toNat / 2 ^ szl

/-- Is a TLB entry removed? Entries of the other world never are. A form with VMID 0 leaves the global entries of the level-2 regime, which carry VMID 0 too (R285, R294; DESIGN CHOICE, notes/assumptions/116.md). -/
def TlbiForm.hits (f : TlbiForm) (sec : Bool) (e : TlbEntry) : Bool :=
  e.sec == sec && (match f with
    | .va a as v hyp => pageHas e.vpage e.szl a && ((e.regime != 2 && e.vmid == v && (e.glob || e.asid == as)) || (hyp && e.regime == 2))
    | .asid as v => e.regime != 2 && e.vmid == v && !e.glob && e.asid == as
    | .vmid v => e.vmid == v
    | .all => true)

/-- Is a walk-cache entry removed: every one of the form's VMID? -/
def TlbiForm.hitsWalk (f : TlbiForm) (sec : Bool) (e : WalkEntry) : Bool :=
  e.sec == sec && (match f with
    | .va _ _ v hyp => e.vmid == v || (hyp && e.regime == 2)
    | .asid _ v => e.vmid == v
    | .vmid v => e.vmid == v
    | .all => true)

/-- The same test for an entry of the IOTU. -/
def TlbiForm.hitsIo (f : TlbiForm) (sec : Bool) (vpage szl : Nat) (esec : Bool) (vm as : Nat) (glob : Bool) : Bool :=
  esec == sec && (match f with
    | .va x a v _ => (szl == 64 || pageHas vpage szl x) && vm == v && (glob || as == a)
    | .asid a v => vm == v && !glob && as == a
    | .vmid v => vm == v
    | .all => true)

/-- Remove the entries of one core. -/
def State.tlbiCore (s : State) (f : TlbiForm) (sec : Bool) (stop : Nat) : State :=
  s.updCore stop (fun c => { c with
    itlb := c.itlb.filter (fun e => !f.hits sec e), dtlb := c.dtlb.filter (fun e => !f.hits sec e)
    l2tlb := c.l2tlb.filter (fun e => !f.hits sec e), walkc := c.walkc.filter (fun e => !f.hitsWalk sec e) })

/-- A thread whose core receives a TLB invalidation: its staged block and loop replay are discarded (04 R106, R108). Replay ends at once, at the oldest instruction not decoded, as R296 has it; R108 names the next iteration's first instruction (DESIGN CHOICE, notes/assumptions/111.md). -/
def State.tlbiThread (s : State) (t : Nat) : State := (s.dropStaged t).updThr t (fun th => { th with loopBuf := none })

/-- Remove the entries of every core and of the IOTU; the issuing thread's fetches may use what its own ITLB lost until its next SYNCS (R296). -/
def State.tlbiAll (s : State) (f : TlbiForm) (sec : Bool) (t : Nat) : State :=
  let old := (s.core (s.stopOf t)).itlb.filter (f.hits sec)
  let s1 := (s.cores.map (·.1)).foldl (fun s p => s.tlbiCore f sec p) s
  let s2 := (s1.threads.map (·.1)).foldl State.tlbiThread s1
  (s2.updThr t (fun th => { th with oldItlb := old ++ th.oldItlb })).iotTlbi (f.hitsIo sec) t

/-- Every buffered store of every thread is written: accesses translated with an entry that is removed (R296). -/
def State.drainEvery (s : State) : DrainR := (s.threads.map (·.1)).foldl (fun o t => match o with | .ok s1 => s1.drainAll t | .wait s1 => .wait s1) (.ok s)

/-- Has a thread's TLBI still to wait: for the ATS Invalidates it caused, or for port reads translated before it (R296)? -/
def State.tlbiWaits (s : State) (w : TlbiWait) : Bool := s.iot.inv.any (fun x => x.owner == some w.thread) || s.stillOut w.reqs

/-- A TLBI (R296): it acts after every older store of its thread; accesses translated before it, buffered stores and port reads of every thread among them, are waited for, and it completes once every ATS Invalidate it caused has completed or timed out. -/
def tlbiOp (t : Nat) (ra rb : Reg) (fn lvl : Nat) (form : State → TlbiForm) (s : State) : Host.Outcome State Fault Refusal :=
  .next (runInstr t (fun s => { enc := encR 0x35 0 ra rb fn, priv := decide (lvl ≤ (s.thr t).pl), ends := true, reg := if fn = 0 then ra.toNat else rb.toNat }) (fun s =>
    match s.iot.tlbis.find? (fun w => w.thread == t) with
    | some w => if s.tlbiWaits w then .wait s else .next (s.updIot (fun x => { x with tlbis := x.tlbis.filter (fun w => w.thread != t) }))
    | none =>
      match s.drainEvery with
      | .wait s1 => .wait s1
      | .ok s1 =>
        let s2 := s1.tlbiAll (form s1) (s.thr t).secure t
        if s2.tlbiWaits ⟨t, s.readsOut⟩ then .wait (s2.updIot (fun x => { x with tlbis := ⟨t, s.readsOut⟩ :: x.tlbis }))
        else .next s2) s)

/-- VMID of TLBI.VA and TLBI.ASID (R295). -/
def State.tlbiVmid (s : State) (t : Nat) : Nat :=
  let th := s.thr t
  if th.secure then 0 else if s.vmen t then s.vmid t else 0

/-- TLBI.VA (R90). -/
def execTlbiVa (t : Nat) (ra rb : Reg) (s : State) : Host.Outcome State Fault Refusal :=
  tlbiOp t ra rb 0 1 (fun s => .va ((s.thr t).rE ra) (fld ((s.thr t).rE rb) 0 16) (s.tlbiVmid t) ((s.thr t).pl == 2)) s
/-- TLBI.ASID (R90). -/
def execTlbiAsid (t : Nat) (rb : Reg) (s : State) : Host.Outcome State Fault Refusal :=
  tlbiOp t 0 rb 1 1 (fun s => .asid (fld ((s.thr t).rE rb) 0 16) (s.tlbiVmid t)) s
/-- TLBI.VMID (R90). -/
def execTlbiVmid (t : Nat) (rb : Reg) (s : State) : Host.Outcome State Fault Refusal :=
  tlbiOp t 0 rb 2 2 (fun s => .vmid (fld ((s.thr t).rE rb) 0 16)) s
/-- TLBI.ALL (R90). -/
def execTlbiAll (t : Nat) (s : State) : Host.Outcome State Fault Refusal := tlbiOp t 0 0 3 2 (fun _ => .all) s

end Sys2Proof.Machine
end

