-- ==== Sys2Proof/Machine/Vector.lean ====
section
/-! DEFINITION. Vector operations on SV and LV registers (spec/03_instruction_set.md R92, R93, spec/06_vectors.md R141–R155). -/
namespace Sys2Proof.Machine

/-- What retiring a vector operation leaves beside its result (06 R152, R154, 19 R584): a long form counts its passes, holds the DEP vote on the long-vector domain and restarts its 1 ms; binary64 lanes are counted. -/
def State.vecDone (s : State) (t : Nat) (long : Bool) (et : BitVec 3) (flops : Nat) (m : BitVec 256) (len : Nat) : State :=
  let s1 := s.countFlops t (et == 7) flops (popAux m.toNat (len / 64))
  if long then
    ((s1.countThr t 0x018 .none none (if len ≤ 1024 then 1 else 2)).updCore (s1.stopOf t) (fun c => { c with lvLast := some s.time.mt })).lvRequest (s1.stopOf t)
  else s1

/-- A vector operation that writes VD: result and flags from the register length and the operands. -/
def vecOp (t : Nat) (long : Bool) (enc : BitVec 32) (alloc : Bool) (vd : Reg) (mask et : BitVec 3) (flops : Nat)
    (f : State → Nat → BitVec 256 → FpEnv → Nat × FpFlags) (s : State) : Host.Outcome State Fault Refusal :=
  .next (runInstr t (fun _ => { enc := enc, alloc := alloc, lv := long }) (fun s =>
    let len := s.vlen t long
    let m := s.rMask t mask
    let r := f s len m (s.thr t).fpEnv
    .next ((s.updThr t (fun th => (th.wVec long vd r.1).addFlags r.2)).vecDone t long et flops m len)) s)

/-- A lane-wise two-operand operation (R92). -/
def vecBinOp (t : Nat) (long : Bool) (vd va vb : Reg) (mask et : BitVec 3) (vop : Nat) (k : VTypes) (op : VBin) (s : State) : Host.Outcome State Fault Refusal :=
  vecOp t long (encV long vd va vb mask et vop) (vtypeOk k et && vOk long vd && vOk long va && vOk long vb) vd mask et 1
    (fun s len m env => vecBin op (ETypeOf et) env m (len / (ETypeOf et).width) (s.rVec t long vd) (s.rVec t long va) (s.rVec t long vb)) s

/-- A fused multiply-add (R92, 06 R151): bfloat16 pairs accumulate in binary32 lanes. -/
def vecFmaOp (t : Nat) (long : Bool) (vd va vb : Reg) (mask et : BitVec 3) (vop : Nat) (sub : Bool) (s : State) : Host.Outcome State Fault Refusal :=
  vecOp t long (encV long vd va vb mask et vop) (vtypeOk .fmaTypes et && vOk long vd && vOk long va && vOk long vb) vd mask et 2
    (fun s len m env => vecFma sub (ETypeOf et) env m (if et = 5 then len / 32 else len / (ETypeOf et).width) (s.rVec t long vd) (s.rVec t long va) (s.rVec t long vb)) s

/-- A compare into an M register (R92, 06 R148); a compare into M0 keeps only its flags. -/
def vecCmpOp (t : Nat) (long : Bool) (vd va vb : Reg) (mask et : BitVec 3) (vop kind : Nat) (k : VTypes) (s : State) : Host.Outcome State Fault Refusal :=
  .next (runInstr t (fun _ => { enc := encV long vd va vb mask et vop, alloc := vtypeOk k et && mOk vd && vOk long va && vOk long vb, lv := long }) (fun s =>
    let len := s.vlen t long
    let m := s.rMask t mask
    let th := s.thr t
    let r := vecCmp kind (ETypeOf et) th.fpEnv m (th.rM vd.toNat) (s.rVec t long va) (s.rVec t long vb) (len / (ETypeOf et).width)
    .next ((s.updThr t (fun th => (th.wM vd.toNat (BitVec.ofNat 256 r.1)).addFlags r.2)).vecDone t long et 1 m len)) s)

/-- A reduction (R92, 06 R149). -/
def vecRedOp (t : Nat) (long : Bool) (vd va : Reg) (mask et : BitVec 3) (vop : Nat) (op : VRed) (s : State) : Host.Outcome State Fault Refusal :=
  vecOp t long (encV long vd va 0 mask et vop) (vtypeOk .intFp et && vOk long vd && vOk long va) vd mask et 1
    (fun s len m env => vecRed op (ETypeOf et) env m (len / (ETypeOf et).width) (s.rVec t long va)) s

/-- A sum of absolute differences (06 R155). -/
def vecSadOp (t : Nat) (long : Bool) (vd va vb : Reg) (mask et : BitVec 3) (vop : Nat) (acc : Bool) (s : State) : Host.Outcome State Fault Refusal :=
  vecOp t long (encV long vd va vb mask et vop) (vtypeOk .sad et && vOk long vd && vOk long va && vOk long vb) vd mask et 0
    (fun s len m _ => (vecSad acc (et == 0) m (len / 64) (s.rVec t long vd) (s.rVec t long va) (s.rVec t long vb), {})) s

/-- VADD (R92). -/
def execVadd (t : Nat) (long : Bool) (vd va vb : Reg) (mask et : BitVec 3) (s : State) : Host.Outcome State Fault Refusal := vecBinOp t long vd va vb mask et 0 .intFp .add s
/-- VSUB (R92). -/
def execVsub (t : Nat) (long : Bool) (vd va vb : Reg) (mask et : BitVec 3) (s : State) : Host.Outcome State Fault Refusal := vecBinOp t long vd va vb mask et 1 .intFp .sub s
/-- VMUL (R92). -/
def execVmul (t : Nat) (long : Bool) (vd va vb : Reg) (mask et : BitVec 3) (s : State) : Host.Outcome State Fault Refusal := vecBinOp t long vd va vb mask et 2 .intFp .mul s
/-- VMULH (R92). -/
def execVmulh (t : Nat) (long : Bool) (vd va vb : Reg) (mask et : BitVec 3) (s : State) : Host.Outcome State Fault Refusal := vecBinOp t long vd va vb mask et 3 .int .mulh s
/-- VMIN (R92). -/
def execVmin (t : Nat) (long : Bool) (vd va vb : Reg) (mask et : BitVec 3) (s : State) : Host.Outcome State Fault Refusal := vecBinOp t long vd va vb mask et 4 .intFp .min s
/-- VMAX (R92). -/
def execVmax (t : Nat) (long : Bool) (vd va vb : Reg) (mask et : BitVec 3) (s : State) : Host.Outcome State Fault Refusal := vecBinOp t long vd va vb mask et 5 .intFp .max s
/-- VMINU (R92). -/
def execVminu (t : Nat) (long : Bool) (vd va vb : Reg) (mask et : BitVec 3) (s : State) : Host.Outcome State Fault Refusal := vecBinOp t long vd va vb mask et 6 .int .minu s
/-- VMAXU (R92). -/
def execVmaxu (t : Nat) (long : Bool) (vd va vb : Reg) (mask et : BitVec 3) (s : State) : Host.Outcome State Fault Refusal := vecBinOp t long vd va vb mask et 7 .int .maxu s
/-- VAND (R92). -/
def execVand (t : Nat) (long : Bool) (vd va vb : Reg) (mask et : BitVec 3) (s : State) : Host.Outcome State Fault Refusal := vecBinOp t long vd va vb mask et 8 .int .and s
/-- VOR (R92). -/
def execVor (t : Nat) (long : Bool) (vd va vb : Reg) (mask et : BitVec 3) (s : State) : Host.Outcome State Fault Refusal := vecBinOp t long vd va vb mask et 9 .int .or s
/-- VXOR (R92). -/
def execVxor (t : Nat) (long : Bool) (vd va vb : Reg) (mask et : BitVec 3) (s : State) : Host.Outcome State Fault Refusal := vecBinOp t long vd va vb mask et 10 .int .xor s
/-- VSLL (R92). -/
def execVsll (t : Nat) (long : Bool) (vd va vb : Reg) (mask et : BitVec 3) (s : State) : Host.Outcome State Fault Refusal := vecBinOp t long vd va vb mask et 11 .int .sll s
/-- VSRL (R92). -/
def execVsrl (t : Nat) (long : Bool) (vd va vb : Reg) (mask et : BitVec 3) (s : State) : Host.Outcome State Fault Refusal := vecBinOp t long vd va vb mask et 12 .int .srl s
/-- VSRA (R92). -/
def execVsra (t : Nat) (long : Bool) (vd va vb : Reg) (mask et : BitVec 3) (s : State) : Host.Outcome State Fault Refusal := vecBinOp t long vd va vb mask et 13 .int .sra s
/-- VDIV (R92). -/
def execVdiv (t : Nat) (long : Bool) (vd va vb : Reg) (mask et : BitVec 3) (s : State) : Host.Outcome State Fault Refusal := vecBinOp t long vd va vb mask et 16 .fp .div s
/-- VFMA (R92, 06 R151). -/
def execVfma (t : Nat) (long : Bool) (vd va vb : Reg) (mask et : BitVec 3) (s : State) : Host.Outcome State Fault Refusal := vecFmaOp t long vd va vb mask et 14 false s
/-- VFMS (R92, 06 R151). -/
def execVfms (t : Nat) (long : Bool) (vd va vb : Reg) (mask et : BitVec 3) (s : State) : Host.Outcome State Fault Refusal := vecFmaOp t long vd va vb mask et 15 true s
/-- VCMPEQ (06 R148). -/
def execVcmpeq (t : Nat) (long : Bool) (vd va vb : Reg) (mask et : BitVec 3) (s : State) : Host.Outcome State Fault Refusal := vecCmpOp t long vd va vb mask et 18 0 .intFp s
/-- VCMPLT (06 R148). -/
def execVcmplt (t : Nat) (long : Bool) (vd va vb : Reg) (mask et : BitVec 3) (s : State) : Host.Outcome State Fault Refusal := vecCmpOp t long vd va vb mask et 19 1 .intFp s
/-- VCMPLE (06 R148). -/
def execVcmple (t : Nat) (long : Bool) (vd va vb : Reg) (mask et : BitVec 3) (s : State) : Host.Outcome State Fault Refusal := vecCmpOp t long vd va vb mask et 20 2 .intFp s
/-- VCMPLTU (06 R148). -/
def execVcmpltu (t : Nat) (long : Bool) (vd va vb : Reg) (mask et : BitVec 3) (s : State) : Host.Outcome State Fault Refusal := vecCmpOp t long vd va vb mask et 21 3 .int s
/-- VREDSUM (06 R149). -/
def execVredsum (t : Nat) (long : Bool) (vd va : Reg) (mask et : BitVec 3) (s : State) : Host.Outcome State Fault Refusal := vecRedOp t long vd va mask et 22 .sum s
/-- VREDMIN (06 R149). -/
def execVredmin (t : Nat) (long : Bool) (vd va : Reg) (mask et : BitVec 3) (s : State) : Host.Outcome State Fault Refusal := vecRedOp t long vd va mask et 23 .min s
/-- VREDMAX (06 R149). -/
def execVredmax (t : Nat) (long : Bool) (vd va : Reg) (mask et : BitVec 3) (s : State) : Host.Outcome State Fault Refusal := vecRedOp t long vd va mask et 24 .max s
/-- VSAD (06 R155). -/
def execVsad (t : Nat) (long : Bool) (vd va vb : Reg) (mask et : BitVec 3) (s : State) : Host.Outcome State Fault Refusal := vecSadOp t long vd va vb mask et 25 false s
/-- VSADA (06 R155). -/
def execVsada (t : Nat) (long : Bool) (vd va vb : Reg) (mask et : BitVec 3) (s : State) : Host.Outcome State Fault Refusal := vecSadOp t long vd va vb mask et 26 true s
/-- VSQRT (R92). -/
def execVsqrt (t : Nat) (long : Bool) (vd va : Reg) (mask et : BitVec 3) (s : State) : Host.Outcome State Fault Refusal :=
  vecOp t long (encV long vd va 0 mask et 17) (vtypeOk .fp et && vOk long vd && vOk long va) vd mask et 1
    (fun s len m env => vecSqrt (ETypeOf et) env m (len / (ETypeOf et).width) (s.rVec t long vd) (s.rVec t long va)) s
/-- VCVT (R92, 06 R150): n is the lane count of the wider type. -/
def execVcvt (t : Nat) (long : Bool) (vd va : Reg) (mask et dst : BitVec 3) (s : State) : Host.Outcome State Fault Refusal :=
  vecOp t long (encV long vd va (dst.setWidth 5) mask et 27) (vOk long vd && vOk long va) vd mask et 0
    (fun s len m env => vecCvt (ETypeOf et) (ETypeOf dst) env m (len / max (ETypeOf et).width (ETypeOf dst).width) (s.rVec t long vd) (s.rVec t long va)) s
/-- VBCAST (R92): Ea for an integer type, the low lane of SVa for a floating-point type. -/
def execVbcast (t : Nat) (long : Bool) (vd va : Reg) (mask et : BitVec 3) (s : State) : Host.Outcome State Fault Refusal :=
  vecOp t long (encV long vd va 0 mask et 28) (vtypeOk .intFp et && vOk long vd) vd mask et 0
    (fun s len m _ => (vecBcast (ETypeOf et).width m (len / (ETypeOf et).width) (s.rVec t long vd)
      (if (ETypeOf et).isInt then ((s.thr t).rE va).toNat else ((s.thr t).rSV va).toNat), {})) s
/-- VSEL (R92, R93). -/
def execVsel (t : Nat) (long : Bool) (vd va vb : Reg) (mask et : BitVec 3) (s : State) : Host.Outcome State Fault Refusal :=
  vecOp t long (encV long vd va vb mask et 29) (vOk long vd && vOk long va && vOk long vb) vd mask et 0
    (fun s len m _ => (vecSel (ETypeOf et).width m (len / (ETypeOf et).width) (s.rVec t long vd) (s.rVec t long va) (s.rVec t long vb), {})) s
/-- VPERM (R92). -/
def execVperm (t : Nat) (long : Bool) (vd va vb : Reg) (mask et : BitVec 3) (s : State) : Host.Outcome State Fault Refusal :=
  vecOp t long (encV long vd va vb mask et 30) (vOk long vd && vOk long va && vOk long vb) vd mask et 0
    (fun s len m _ => (vecPerm (ETypeOf et).width m (len / (ETypeOf et).width) (s.rVec t long vd) (s.rVec t long va) (s.rVec t long vb), {})) s
/-- VEXT (R92): Ed = lane Eb of VA, zero-extended; 0 at or above the element count. Its mask field governs no lane (notes/assumptions/15.md). -/
def execVext (t : Nat) (long : Bool) (vd va vb : Reg) (mask et : BitVec 3) (s : State) : Host.Outcome State Fault Refusal :=
  .next (runInstr t (fun _ => { enc := encV long vd va vb mask et 31, alloc := vtypeOk .intFp et && vOk long va, lv := long }) (fun s =>
    let len := s.vlen t long
    let w := (ETypeOf et).width
    .next ((s.updThr t (fun th => th.wE vd (BitVec.ofNat 64 (vecExt w (len / w) (s.rVec t long va) (th.rE vb).toNat)))).vecDone t long et 0 0 len)) s)

end Sys2Proof.Machine
end

