-- ==== Sys2Proof/Machine/Dispatch.lean ====
section
/-! DEFINITION. exec: one arm per command, each a direct call of its meaning. -/
namespace Sys2Proof.Machine

/-- The effect of a command on everything but the queue. -/
def exec (i : Instr) (s : State) : Host.Outcome State Fault Refusal :=
  match i with
  | .registerWrite a off half data => Sys2Proof.Machine.execRegisterWrite a off half data s
  | .towpathClockSourceFail k => Sys2Proof.Machine.execTowpathClockSourceFail k s
  | .add t rd ra rb => Sys2Proof.Machine.execAdd t rd ra rb s
  | .sub t rd ra rb => Sys2Proof.Machine.execSub t rd ra rb s
  | .iand t rd ra rb => Sys2Proof.Machine.execIand t rd ra rb s
  | .ior t rd ra rb => Sys2Proof.Machine.execIor t rd ra rb s
  | .ixor t rd ra rb => Sys2Proof.Machine.execIxor t rd ra rb s
  | .andn t rd ra rb => Sys2Proof.Machine.execAndn t rd ra rb s
  | .sll t rd ra rb => Sys2Proof.Machine.execSll t rd ra rb s
  | .srl t rd ra rb => Sys2Proof.Machine.execSrl t rd ra rb s
  | .sra t rd ra rb => Sys2Proof.Machine.execSra t rd ra rb s
  | .ror t rd ra rb => Sys2Proof.Machine.execRor t rd ra rb s
  | .addw t rd ra rb => Sys2Proof.Machine.execAddw t rd ra rb s
  | .subw t rd ra rb => Sys2Proof.Machine.execSubw t rd ra rb s
  | .seq t rd ra rb => Sys2Proof.Machine.execSeq t rd ra rb s
  | .sne t rd ra rb => Sys2Proof.Machine.execSne t rd ra rb s
  | .slt t rd ra rb => Sys2Proof.Machine.execSlt t rd ra rb s
  | .sltu t rd ra rb => Sys2Proof.Machine.execSltu t rd ra rb s
  | .sge t rd ra rb => Sys2Proof.Machine.execSge t rd ra rb s
  | .sgeu t rd ra rb => Sys2Proof.Machine.execSgeu t rd ra rb s
  | .imin t rd ra rb => Sys2Proof.Machine.execImin t rd ra rb s
  | .imax t rd ra rb => Sys2Proof.Machine.execImax t rd ra rb s
  | .minu t rd ra rb => Sys2Proof.Machine.execMinu t rd ra rb s
  | .maxu t rd ra rb => Sys2Proof.Machine.execMaxu t rd ra rb s
  | .addc t rd ra rb => Sys2Proof.Machine.execAddc t rd ra rb s
  | .subb t rd ra rb => Sys2Proof.Machine.execSubb t rd ra rb s
  | .selnz t rd ra rb => Sys2Proof.Machine.execSelnz t rd ra rb s
  | .clz t rd ra => Sys2Proof.Machine.execClz t rd ra s
  | .ctz t rd ra => Sys2Proof.Machine.execCtz t rd ra s
  | .pop t rd ra => Sys2Proof.Machine.execPop t rd ra s
  | .bswap t rd ra => Sys2Proof.Machine.execBswap t rd ra s
  | .sextB t rd ra => Sys2Proof.Machine.execSextB t rd ra s
  | .sextH t rd ra => Sys2Proof.Machine.execSextH t rd ra s
  | .sextW t rd ra => Sys2Proof.Machine.execSextW t rd ra s
  | .zextW t rd ra => Sys2Proof.Machine.execZextW t rd ra s
  | .mul t rd ra rb => Sys2Proof.Machine.execMul t rd ra rb s
  | .mulh t rd ra rb => Sys2Proof.Machine.execMulh t rd ra rb s
  | .mulhu t rd ra rb => Sys2Proof.Machine.execMulhu t rd ra rb s
  | .mulhsu t rd ra rb => Sys2Proof.Machine.execMulhsu t rd ra rb s
  | .mulwu t rd ra rb => Sys2Proof.Machine.execMulwu t rd ra rb s
  | .mulws t rd ra rb => Sys2Proof.Machine.execMulws t rd ra rb s
  | .div t rd ra rb => Sys2Proof.Machine.execDiv t rd ra rb s
  | .divu t rd ra rb => Sys2Proof.Machine.execDivu t rd ra rb s
  | .rem t rd ra rb => Sys2Proof.Machine.execRem t rd ra rb s
  | .remu t rd ra rb => Sys2Proof.Machine.execRemu t rd ra rb s
  | .divw t rd ra rb => Sys2Proof.Machine.execDivw t rd ra rb s
  | .divwu t rd ra rb => Sys2Proof.Machine.execDivwu t rd ra rb s
  | .addi t rd ra imm => Sys2Proof.Machine.execAddi t rd ra imm s
  | .andi t rd ra imm => Sys2Proof.Machine.execAndi t rd ra imm s
  | .ori t rd ra imm => Sys2Proof.Machine.execOri t rd ra imm s
  | .xori t rd ra imm => Sys2Proof.Machine.execXori t rd ra imm s
  | .slti t rd ra imm => Sys2Proof.Machine.execSlti t rd ra imm s
  | .sltiu t rd ra imm => Sys2Proof.Machine.execSltiu t rd ra imm s
  | .lui t rd imm => Sys2Proof.Machine.execLui t rd imm s
  | .insi t rd h imm => Sys2Proof.Machine.execInsi t rd h imm s
  | .addpc t rd imm => Sys2Proof.Machine.execAddpc t rd imm s
  | .slli t rd ra sh => Sys2Proof.Machine.execSlli t rd ra sh s
  | .srli t rd ra sh => Sys2Proof.Machine.execSrli t rd ra sh s
  | .srai t rd ra sh => Sys2Proof.Machine.execSrai t rd ra sh s
  | .rori t rd ra sh => Sys2Proof.Machine.execRori t rd ra sh s
  | .lb t rd ra imm => Sys2Proof.Machine.execLb t rd ra imm s
  | .lbu t rd ra imm => Sys2Proof.Machine.execLbu t rd ra imm s
  | .lh t rd ra imm => Sys2Proof.Machine.execLh t rd ra imm s
  | .lhu t rd ra imm => Sys2Proof.Machine.execLhu t rd ra imm s
  | .lw t rd ra imm => Sys2Proof.Machine.execLw t rd ra imm s
  | .lwu t rd ra imm => Sys2Proof.Machine.execLwu t rd ra imm s
  | .ld t rd ra imm => Sys2Proof.Machine.execLd t rd ra imm s
  | .lq t rd ra imm => Sys2Proof.Machine.execLq t rd ra imm s
  | .sb t rd ra imm => Sys2Proof.Machine.execSb t rd ra imm s
  | .sh t rd ra imm => Sys2Proof.Machine.execSh t rd ra imm s
  | .sw t rd ra imm => Sys2Proof.Machine.execSw t rd ra imm s
  | .sd t rd ra imm => Sys2Proof.Machine.execSd t rd ra imm s
  | .sq t rd ra imm => Sys2Proof.Machine.execSq t rd ra imm s
  | .memx t rd ra rb kind scale ord => Sys2Proof.Machine.execMemx t rd ra rb kind scale ord s
  | .flh t sd ra off => Sys2Proof.Machine.execFlh t sd ra off s
  | .flw t sd ra off => Sys2Proof.Machine.execFlw t sd ra off s
  | .fld t sd ra off => Sys2Proof.Machine.execFld t sd ra off s
  | .svl t sd ra off => Sys2Proof.Machine.execSvl t sd ra off s
  | .fsh t sd ra off => Sys2Proof.Machine.execFsh t sd ra off s
  | .fsw t sd ra off => Sys2Proof.Machine.execFsw t sd ra off s
  | .fsd t sd ra off => Sys2Proof.Machine.execFsd t sd ra off s
  | .svs t sd ra off => Sys2Proof.Machine.execSvs t sd ra off s
  | .atomAdd t rd ra rb ord hint size => Sys2Proof.Machine.execAtomAdd t rd ra rb ord hint size s
  | .atomAnd t rd ra rb ord hint size => Sys2Proof.Machine.execAtomAnd t rd ra rb ord hint size s
  | .atomOr t rd ra rb ord hint size => Sys2Proof.Machine.execAtomOr t rd ra rb ord hint size s
  | .atomXor t rd ra rb ord hint size => Sys2Proof.Machine.execAtomXor t rd ra rb ord hint size s
  | .atomSmin t rd ra rb ord hint size => Sys2Proof.Machine.execAtomSmin t rd ra rb ord hint size s
  | .atomSmax t rd ra rb ord hint size => Sys2Proof.Machine.execAtomSmax t rd ra rb ord hint size s
  | .atomUmin t rd ra rb ord hint size => Sys2Proof.Machine.execAtomUmin t rd ra rb ord hint size s
  | .atomUmax t rd ra rb ord hint size => Sys2Proof.Machine.execAtomUmax t rd ra rb ord hint size s
  | .atomSwap t rd ra rb ord hint size => Sys2Proof.Machine.execAtomSwap t rd ra rb ord hint size s
  | .atomCas t rd ra rb ord hint size => Sys2Proof.Machine.execAtomCas t rd ra rb ord hint size s
  | .atomFadd t rd ra rb ord hint size => Sys2Proof.Machine.execAtomFadd t rd ra rb ord hint size s
  | .beq t ra rb off => Sys2Proof.Machine.execBeq t ra rb off s
  | .bne t ra rb off => Sys2Proof.Machine.execBne t ra rb off s
  | .blt t ra rb off => Sys2Proof.Machine.execBlt t ra rb off s
  | .bge t ra rb off => Sys2Proof.Machine.execBge t ra rb off s
  | .bltu t ra rb off => Sys2Proof.Machine.execBltu t ra rb off s
  | .bgeu t ra rb off => Sys2Proof.Machine.execBgeu t ra rb off s
  | .loop t ra off => Sys2Proof.Machine.execLoop t ra off s
  | .jmp t off => Sys2Proof.Machine.execJmp t off s
  | .jal t off => Sys2Proof.Machine.execJal t off s
  | .jalr t rd ra imm => Sys2Proof.Machine.execJalr t rd ra imm s
  | .mfs t rd num => Sys2Proof.Machine.execMfs t rd num s
  | .mts t num rs => Sys2Proof.Machine.execMts t num rs s
  | .syncs t => Sys2Proof.Machine.execSyncs t s
  | .xret t => Sys2Proof.Machine.execXret t s
  | .wait t => Sys2Proof.Machine.execWait t s
  | .waitWake t => Sys2Proof.Machine.execWaitWake t s
  | .fenceLl t => Sys2Proof.Machine.execFenceLl t s
  | .fenceLs t => Sys2Proof.Machine.execFenceLs t s
  | .fenceSl t => Sys2Proof.Machine.execFenceSl t s
  | .fenceSs t => Sys2Proof.Machine.execFenceSs t s
  | .fenceFull t => Sys2Proof.Machine.execFenceFull t s
  | .fenceIo t => Sys2Proof.Machine.execFenceIo t s
  | .fenceFetch t => Sys2Proof.Machine.execFenceFetch t s
  | .isend t ra rb => Sys2Proof.Machine.execIsend t ra rb s
  | .syscall t imm => Sys2Proof.Machine.execSyscall t imm s
  | .hypcall t imm => Sys2Proof.Machine.execHypcall t imm s
  | .moncall t imm => Sys2Proof.Machine.execMoncall t imm s
  | .ibreak t imm => Sys2Proof.Machine.execIbreak t imm s
  | .cmoC t ra => Sys2Proof.Machine.execCmoC t ra s
  | .cmoI t ra => Sys2Proof.Machine.execCmoI t ra s
  | .cmoCi t ra => Sys2Proof.Machine.execCmoCi t ra s
  | .cmoRangeC t ra rb upto => Sys2Proof.Machine.execCmoRangeC t ra rb s upto
  | .cmoRangeI t ra rb upto => Sys2Proof.Machine.execCmoRangeI t ra rb s upto
  | .cmoRangeCi t ra rb upto => Sys2Proof.Machine.execCmoRangeCi t ra rb s upto
  | .cmoSwC t ra => Sys2Proof.Machine.execCmoSwC t ra s
  | .cmoSwI t ra => Sys2Proof.Machine.execCmoSwI t ra s
  | .cmoSwCi t ra => Sys2Proof.Machine.execCmoSwCi t ra s
  | .tlbiVa t ra rb => Sys2Proof.Machine.execTlbiVa t ra rb s
  | .tlbiAsid t rb => Sys2Proof.Machine.execTlbiAsid t rb s
  | .tlbiVmid t rb => Sys2Proof.Machine.execTlbiVmid t rb s
  | .tlbiAll t => Sys2Proof.Machine.execTlbiAll t s
  | .fadd t fmt rd ra rb => Sys2Proof.Machine.execFadd t fmt rd ra rb s
  | .fsub t fmt rd ra rb => Sys2Proof.Machine.execFsub t fmt rd ra rb s
  | .fmul t fmt rd ra rb => Sys2Proof.Machine.execFmul t fmt rd ra rb s
  | .fdiv t fmt rd ra rb => Sys2Proof.Machine.execFdiv t fmt rd ra rb s
  | .fsqrt t fmt rd ra => Sys2Proof.Machine.execFsqrt t fmt rd ra s
  | .fmadd t fmt rd ra rb => Sys2Proof.Machine.execFmadd t fmt rd ra rb s
  | .fmsub t fmt rd ra rb => Sys2Proof.Machine.execFmsub t fmt rd ra rb s
  | .fmin t fmt rd ra rb => Sys2Proof.Machine.execFmin t fmt rd ra rb s
  | .fmax t fmt rd ra rb => Sys2Proof.Machine.execFmax t fmt rd ra rb s
  | .fabs t fmt rd ra => Sys2Proof.Machine.execFabs t fmt rd ra s
  | .fneg t fmt rd ra => Sys2Proof.Machine.execFneg t fmt rd ra s
  | .fcmpeq t fmt rd ra rb => Sys2Proof.Machine.execFcmpeq t fmt rd ra rb s
  | .fcmplt t fmt rd ra rb => Sys2Proof.Machine.execFcmplt t fmt rd ra rb s
  | .fcmple t fmt rd ra rb => Sys2Proof.Machine.execFcmple t fmt rd ra rb s
  | .fclass t fmt rd ra => Sys2Proof.Machine.execFclass t fmt rd ra s
  | .fcvt t fmt rd ra dst => Sys2Proof.Machine.execFcvt t fmt rd ra dst s
  | .fcvti t fmt rd ra => Sys2Proof.Machine.execFcvti t fmt rd ra s
  | .fcvtiu t fmt rd ra => Sys2Proof.Machine.execFcvtiu t fmt rd ra s
  | .fcvtf t fmt rd ra => Sys2Proof.Machine.execFcvtf t fmt rd ra s
  | .fcvtfu t fmt rd ra => Sys2Proof.Machine.execFcvtfu t fmt rd ra s
  | .fmve t fmt rd ra => Sys2Proof.Machine.execFmve t fmt rd ra s
  | .fmvs t fmt rd ra => Sys2Proof.Machine.execFmvs t fmt rd ra s
  | .vadd t long vd va vb mask et => Sys2Proof.Machine.execVadd t long vd va vb mask et s
  | .vsub t long vd va vb mask et => Sys2Proof.Machine.execVsub t long vd va vb mask et s
  | .vmul t long vd va vb mask et => Sys2Proof.Machine.execVmul t long vd va vb mask et s
  | .vmulh t long vd va vb mask et => Sys2Proof.Machine.execVmulh t long vd va vb mask et s
  | .vmin t long vd va vb mask et => Sys2Proof.Machine.execVmin t long vd va vb mask et s
  | .vmax t long vd va vb mask et => Sys2Proof.Machine.execVmax t long vd va vb mask et s
  | .vminu t long vd va vb mask et => Sys2Proof.Machine.execVminu t long vd va vb mask et s
  | .vmaxu t long vd va vb mask et => Sys2Proof.Machine.execVmaxu t long vd va vb mask et s
  | .vand t long vd va vb mask et => Sys2Proof.Machine.execVand t long vd va vb mask et s
  | .vor t long vd va vb mask et => Sys2Proof.Machine.execVor t long vd va vb mask et s
  | .vxor t long vd va vb mask et => Sys2Proof.Machine.execVxor t long vd va vb mask et s
  | .vsll t long vd va vb mask et => Sys2Proof.Machine.execVsll t long vd va vb mask et s
  | .vsrl t long vd va vb mask et => Sys2Proof.Machine.execVsrl t long vd va vb mask et s
  | .vsra t long vd va vb mask et => Sys2Proof.Machine.execVsra t long vd va vb mask et s
  | .vfma t long vd va vb mask et => Sys2Proof.Machine.execVfma t long vd va vb mask et s
  | .vfms t long vd va vb mask et => Sys2Proof.Machine.execVfms t long vd va vb mask et s
  | .vdiv t long vd va vb mask et => Sys2Proof.Machine.execVdiv t long vd va vb mask et s
  | .vsqrt t long vd va mask et => Sys2Proof.Machine.execVsqrt t long vd va mask et s
  | .vcmpeq t long vd va vb mask et => Sys2Proof.Machine.execVcmpeq t long vd va vb mask et s
  | .vcmplt t long vd va vb mask et => Sys2Proof.Machine.execVcmplt t long vd va vb mask et s
  | .vcmple t long vd va vb mask et => Sys2Proof.Machine.execVcmple t long vd va vb mask et s
  | .vcmpltu t long vd va vb mask et => Sys2Proof.Machine.execVcmpltu t long vd va vb mask et s
  | .vredsum t long vd va mask et => Sys2Proof.Machine.execVredsum t long vd va mask et s
  | .vredmin t long vd va mask et => Sys2Proof.Machine.execVredmin t long vd va mask et s
  | .vredmax t long vd va mask et => Sys2Proof.Machine.execVredmax t long vd va mask et s
  | .vsad t long vd va vb mask et => Sys2Proof.Machine.execVsad t long vd va vb mask et s
  | .vsada t long vd va vb mask et => Sys2Proof.Machine.execVsada t long vd va vb mask et s
  | .vcvt t long vd va mask et dst => Sys2Proof.Machine.execVcvt t long vd va mask et dst s
  | .vbcast t long vd va mask et => Sys2Proof.Machine.execVbcast t long vd va mask et s
  | .vsel t long vd va vb mask et => Sys2Proof.Machine.execVsel t long vd va vb mask et s
  | .vperm t long vd va vb mask et => Sys2Proof.Machine.execVperm t long vd va vb mask et s
  | .vext t long vd va vb mask et => Sys2Proof.Machine.execVext t long vd va vb mask et s
  | .mand t md ma mb => Sys2Proof.Machine.execMand t md ma mb s
  | .mor t md ma mb => Sys2Proof.Machine.execMor t md ma mb s
  | .mxor t md ma mb => Sys2Proof.Machine.execMxor t md ma mb s
  | .mandn t md ma mb => Sys2Proof.Machine.execMandn t md ma mb s
  | .mnot t md ma => Sys2Proof.Machine.execMnot t md ma s
  | .mpop t rd ma => Sys2Proof.Machine.execMpop t rd ma s
  | .mfirst t rd ma => Sys2Proof.Machine.execMfirst t rd ma s
  | .mget t rd ma part => Sys2Proof.Machine.execMget t rd ma part s
  | .mset t md ra part => Sys2Proof.Machine.execMset t md ra part s
  | .vlsLoad t long vd ra rb mask esize upto => Sys2Proof.Machine.execVlsLoad t long vd ra rb mask esize s upto
  | .vlsStore t long vd ra rb mask esize upto => Sys2Proof.Machine.execVlsStore t long vd ra rb mask esize s upto
  | .vgather t long vd ra vidx mask scale hint esize idx64 upto => Sys2Proof.Machine.execVgather t long vd ra vidx mask scale hint esize idx64 s upto
  | .vscatter t long vd ra vidx mask scale hint esize idx64 upto => Sys2Proof.Machine.execVscatter t long vd ra vidx mask scale hint esize idx64 s upto
  | .irqPhys t => Sys2Proof.Machine.execIrqPhys t s
  | .irqVirt t => Sys2Proof.Machine.execIrqVirt t s
  | .loopCountWait t ra bad => Sys2Proof.Machine.execLoopCountWait t ra s bad
  | .stagingRead t bad => Sys2Proof.Machine.execStagingRead t s bad
  | .storeBufferDrain t => Sys2Proof.Machine.execStoreBufferDrain t s
  | .lineFill stop line level cls => Sys2Proof.Machine.execLineFill stop line level cls s
  | .wayDisableComplete level stop way => Sys2Proof.Machine.execWayDisableComplete level stop way s
  | .rdshared t line sec pf => Sys2Proof.Machine.execRdshared t line sec s pf
  | .rdcode t line sec => Sys2Proof.Machine.execRdcode t line sec s
  | .rdown t line sec => Sys2Proof.Machine.execRdown t line sec s
  | .upgrade t line sec => Sys2Proof.Machine.execUpgrade t line sec s
  | .rdcur agent line sec cls stream => Sys2Proof.Machine.execRdcur agent line sec cls stream s
  | .gatherreq t sec long vd esz elems => Sys2Proof.Machine.execGatherreq t sec long vd esz elems s
  | .wrline agent line sec cls stream data poison => Sys2Proof.Machine.execWrline agent line sec cls stream data s poison
  | .wrpart agent line sec cls stream data mask poison => Sys2Proof.Machine.execWrpart agent line sec cls stream data mask s poison
  | .atomfar t line sec va rd atop size operand cmp auto => Sys2Proof.Machine.execAtomfar t line sec va rd atop size operand cmp auto s
  | .wbreq stop line => Sys2Proof.Machine.execWbreq stop line s
  | .evictclean stop line => Sys2Proof.Machine.execEvictclean stop line s
  | .cmoreq t line sec op => Sys2Proof.Machine.execCmoreq t line sec op s
  | .snpshared stop line => Sys2Proof.Machine.execSnpshared stop line s
  | .snpown stop line => Sys2Proof.Machine.execSnpown stop line s
  | .snpinv stop line => Sys2Proof.Machine.execSnpinv stop line s
  | .snpcur stop line => Sys2Proof.Machine.execSnpcur stop line s
  | .snprecall stop line => Sys2Proof.Machine.execSnprecall stop line s
  | .wbpull stop line => Sys2Proof.Machine.execWbpull stop line s
  | .snpresp stop line => Sys2Proof.Machine.execSnpresp stop line s
  | .cmp stop line => Sys2Proof.Machine.execCmp stop line s
  | .compack stop line => Sys2Proof.Machine.execCompack stop line s
  | .wbcancel stop line => Sys2Proof.Machine.execWbcancel stop line s
  | .atomresp t line => Sys2Proof.Machine.execAtomresp t line s
  | .cmodone t line => Sys2Proof.Machine.execCmodone t line s
  | .data stop line => Sys2Proof.Machine.execData stop line s
  | .fwddata stop line => Sys2Proof.Machine.execFwddata stop line s
  | .snpdata stop line => Sys2Proof.Machine.execSnpdata stop line s
  | .wbdata stop line => Sys2Proof.Machine.execWbdata stop line s
  | .gatherdata t line => Sys2Proof.Machine.execGatherdata t line s
  | .holdWindowEnd stop line => Sys2Proof.Machine.execHoldWindowEnd stop line s
  | .flitCrcError kind stop ba again => Sys2Proof.Machine.execFlitCrcError kind stop ba again s
  | .linkRetrainEnd kind stop ba ok lanes => Sys2Proof.Machine.execLinkRetrainEnd kind stop ba ok lanes s
  | .meshLinkFailed kind stop => Sys2Proof.Machine.execMeshLinkFailed kind stop s
  | .aqueductIdleTimeout n => Sys2Proof.Machine.execAqueductIdleTimeout n s
  | .memoryRequest line wr cls part => Sys2Proof.Machine.execMemoryRequest line wr cls s part
  | .dramAccessComplete k e => Sys2Proof.Machine.execDramAccessComplete k e s
  | .refreshDue u r postpone => Sys2Proof.Machine.execRefreshDue u r postpone s
  | .selfRefreshEntry u => Sys2Proof.Machine.execSelfRefreshEntry u s
  | .selfRefreshExit u pc ok => Sys2Proof.Machine.execSelfRefreshExit u pc ok s
  | .periodicRetrain u pc ok => Sys2Proof.Machine.execPeriodicRetrain u pc ok s
  | .substWalkEnd c r => Sys2Proof.Machine.execSubstWalkEnd c r s
  | .channelFailure c cause => Sys2Proof.Machine.execChannelFailure c cause s
  | .ddrFailover c => Sys2Proof.Machine.execDdrFailover c s
  | .patrolScrub u e => Sys2Proof.Machine.execPatrolScrub u e s
  | .hbmRowRepair st pc bank row => Sys2Proof.Machine.execHbmRowRepair st pc bank row s
  | .deviceRequest stream iova op tr pasid => Sys2Proof.Machine.execDeviceRequest stream iova op tr s pasid
  | .msiWrite stream iova data => Sys2Proof.Machine.execMsiWrite stream iova data s
  | .atsTranslationRequest stream iova pasid => Sys2Proof.Machine.execAtsTranslationRequest stream iova s pasid
  | .atsInvTimeout stream => Sys2Proof.Machine.execAtsInvTimeout stream s
  | .iotInvStream a stream preload => Sys2Proof.Machine.execIotInvStream a stream preload s
  | .iotInvAll a stream preload => Sys2Proof.Machine.execIotInvAll a stream preload s
  | .internalInterrupt src ev => Sys2Proof.Machine.execInternalInterrupt src ev s
  | .doorbell t => Sys2Proof.Machine.execDoorbell t s
  | .take t => Sys2Proof.Machine.execTake t s
  | .takeReply t => Sys2Proof.Machine.execTakeReply t s
  | .recordLoad a n rec => Sys2Proof.Machine.execRecordLoad a n rec s
  | .recordUnload a n => Sys2Proof.Machine.execRecordUnload a n s
  | .irtTcmdInvalidateSource a internal src => Sys2Proof.Machine.execIrtTcmdInvalidateSource a internal src s
  | .irtTcmdInvalidateAll a => Sys2Proof.Machine.execIrtTcmdInvalidateAll a s
  | .irtTcmdPin a internal src ev => Sys2Proof.Machine.execIrtTcmdPin a internal src ev s
  | .irtTcmdUnpin a internal src ev => Sys2Proof.Machine.execIrtTcmdUnpin a internal src ev s
  | .irtAckN a n => Sys2Proof.Machine.execIrtAckN a n s
  | .irtAckS a n => Sys2Proof.Machine.execIrtAckS a n s
  | .irqDeadline k => Sys2Proof.Machine.execIrqDeadline k s
  | .bandwidthWindow => Sys2Proof.Machine.execBandwidthWindow s
  | .tenantReset r => Sys2Proof.Machine.execTenantReset r s
  | .tenantResetDone slot => Sys2Proof.Machine.execTenantResetDone slot s
  | .resetTimeout slot => Sys2Proof.Machine.execResetTimeout slot s
  | .tenantRelease r => Sys2Proof.Machine.execTenantRelease r s
  | .qosTrstReset a vmid cls => Sys2Proof.Machine.execQosTrstReset a vmid cls s
  | .qosTrstRelease a vmid cls => Sys2Proof.Machine.execQosTrstRelease a vmid cls s
  | .mtCodeFrame value crc => Sys2Proof.Machine.execMtCodeFrame value crc s
  | .mtEpoch => Sys2Proof.Machine.execMtEpoch s
  | .referenceLost => Sys2Proof.Machine.execReferenceLost s
  | .ptpWaitExpiry => Sys2Proof.Machine.execPtpWaitExpiry s
  | .ptpSync t ppb => Sys2Proof.Machine.execPtpSync t ppb s
  | .slewEnd => Sys2Proof.Machine.execSlewEnd s
  | .passagePresent b => Sys2Proof.Machine.execPassagePresent b s
  | .raise b => Sys2Proof.Machine.execRaise b s
  | .release b => Sys2Proof.Machine.execRelease b s
  | .snapshot b => Sys2Proof.Machine.execSnapshot b s
  | .pulse b => Sys2Proof.Machine.execPulse b s
  | .pulseEnd pin => Sys2Proof.Machine.execPulseEnd pin s
  | .vote b => Sys2Proof.Machine.execVote b s
  | .snapshotComplete => Sys2Proof.Machine.execSnapshotComplete s
  | .berthQuotaSet r => Sys2Proof.Machine.execBerthQuotaSet r s
  | .berthAlloc r => Sys2Proof.Machine.execBerthAlloc r s
  | .berthFree r => Sys2Proof.Machine.execBerthFree r s
  | .berthArm r => Sys2Proof.Machine.execBerthArm r s
  | .berthDisarm r => Sys2Proof.Machine.execBerthDisarm r s
  | .berthQuery r => Sys2Proof.Machine.execBerthQuery r s
  | .timeStatus r => Sys2Proof.Machine.execTimeStatus r s
  | .timePtp r => Sys2Proof.Machine.execTimePtp r s
  | .syncGate r => Sys2Proof.Machine.execSyncGate r s
  | .lkpBerthCfgWrite a b data => Sys2Proof.Machine.execLkpBerthCfgWrite a b data s
  | .lkpSecResWrite a data => Sys2Proof.Machine.execLkpSecResWrite a data s
  | .lkpSyncCtlArm a timeout => Sys2Proof.Machine.execLkpSyncCtlArm a timeout s
  | .lkpSyncCtlDisarm a timeout => Sys2Proof.Machine.execLkpSyncCtlDisarm a timeout s
  | .syncInRise => Sys2Proof.Machine.execSyncInRise s
  | .syncInFall => Sys2Proof.Machine.execSyncInFall s
  | .syncTimeout => Sys2Proof.Machine.execSyncTimeout s
  | .brgChTail a c tail => Sys2Proof.Machine.execBrgChTail a c tail s
  | .manifestTake c => Sys2Proof.Machine.execManifestTake c s
  | .manifestStart c => Sys2Proof.Machine.execManifestStart c s
  | .manifestEnd c => Sys2Proof.Machine.execManifestEnd c s
  | .statusWriteAccepted c => Sys2Proof.Machine.execStatusWriteAccepted c s
  | .dmaDeadline c => Sys2Proof.Machine.execDmaDeadline c s
  | .brgChEnable a c hold => Sys2Proof.Machine.execBrgChEnable a c hold s
  | .brgChDisable a c => Sys2Proof.Machine.execBrgChDisable a c s
  | .brgChRestart a c => Sys2Proof.Machine.execBrgChRestart a c s
  | .brgChAbort a c => Sys2Proof.Machine.execBrgChAbort a c s
  | .channelStopComplete c => Sys2Proof.Machine.execChannelStopComplete c s
  | .disableTimeout c => Sys2Proof.Machine.execDisableTimeout c s
  | .shadowArm a c => Sys2Proof.Machine.execShadowArm a c s
  | .handOver c => Sys2Proof.Machine.execHandOver c s
  | .engineDepRelease e => Sys2Proof.Machine.execEngineDepRelease e s
  | .inboundWrite p req addr bs ep tr pasid => Sys2Proof.Machine.execInboundWrite p req addr bs ep tr s pasid
  | .inboundRead p req addr n tr pasid => Sys2Proof.Machine.execInboundRead p req addr n tr s pasid
  | .inboundAtomicop p req addr op tr pasid => Sys2Proof.Machine.execInboundAtomicop p req addr op tr s pasid
  | .completion p l tag status completer data ep => Sys2Proof.Machine.execCompletion p l tag status completer data ep s
  | .completionTimeout p l tag => Sys2Proof.Machine.execCompletionTimeout p l tag s
  | .quarantineEnd p l tag => Sys2Proof.Machine.execQuarantineEnd p l tag s
  | .linkDown p l cause => Sys2Proof.Machine.execLinkDown p l cause s
  | .linkUp p l rate width cxl => Sys2Proof.Machine.execLinkUp p l rate width cxl s
  | .portHotReset p l dpc => Sys2Proof.Machine.execPortHotReset p l dpc s
  | .rptHdmWrite a p n data => Sys2Proof.Machine.execRptHdmWrite a p n data s
  | .peerWindowAccess x op ep => Sys2Proof.Machine.execPeerWindowAccess x op ep s
  | .whfPwCommit a mask => Sys2Proof.Machine.execWhfPwCommit a mask s
  | .flr fn => Sys2Proof.Machine.execFlr fn s
  | .busMasterClear fn => Sys2Proof.Machine.execBusMasterClear fn s
  | .vfDisable n => Sys2Proof.Machine.execVfDisable n s
  | .whfVfCtlReset a v => Sys2Proof.Machine.execWhfVfCtlReset a v s
  | .funcReset fn => Sys2Proof.Machine.execFuncReset fn s
  | .funcDisableTimeout fn => Sys2Proof.Machine.execFuncDisableTimeout fn s
  | .whfIrqGo a fn vec => Sys2Proof.Machine.execWhfIrqGo a fn vec s
  | .hostPerst low => Sys2Proof.Machine.execHostPerst low s
  | .tolSmrWrite a n data => Sys2Proof.Machine.execTolSmrWrite a n data s
  | .mapLock a => Sys2Proof.Machine.execMapLock a s
  | .random a => Sys2Proof.Machine.execRandom a s
  | .sha384 a src len dst => Sys2Proof.Machine.execSha384 a src len dst s
  | .ecdsaVerify a digest key sig => Sys2Proof.Machine.execEcdsaVerify a digest key sig s
  | .mldsaVerify a msg len key sig => Sys2Proof.Machine.execMldsaVerify a msg len key sig s
  | .seal a src len dst => Sys2Proof.Machine.execSeal a src len dst s
  | .unseal a src len dst => Sys2Proof.Machine.execUnseal a src len dst s
  | .mailboxComplete => Sys2Proof.Machine.execMailboxComplete s
  | .debugChallenge r => Sys2Proof.Machine.execDebugChallenge r s
  | .debugUnlock r => Sys2Proof.Machine.execDebugUnlock r s
  | .debugStatus r => Sys2Proof.Machine.execDebugStatus r s
  | .debugLock r => Sys2Proof.Machine.execDebugLock r s
  | .debugTokenPart r => Sys2Proof.Machine.execDebugTokenPart r s
  | .debugGrantNormal r => Sys2Proof.Machine.execDebugGrantNormal r s
  | .debugEnableExpiry => Sys2Proof.Machine.execDebugEnableExpiry s
  | .extest cells => Sys2Proof.Machine.execExtest s cells
  | .samplePreload cells => Sys2Proof.Machine.execSamplePreload cells s
  | .idcode tlr => Sys2Proof.Machine.execIdcode s tlr
  | .bypass opcode => Sys2Proof.Machine.execBypass s opcode
  | .bootstat => Sys2Proof.Machine.execBootstat s
  | .debugAddr addr => Sys2Proof.Machine.execDebugAddr addr s
  | .debugRead size => Sys2Proof.Machine.execDebugRead size s
  | .debugWrite size data => Sys2Proof.Machine.execDebugWrite size data s
  | .debugHaltControl data => Sys2Proof.Machine.execDebugHaltControl data s
  | .watchdogStart a timeout intid thread => Sys2Proof.Machine.execWatchdogStart a timeout intid thread s
  | .tolWdogKick a v => Sys2Proof.Machine.execTolWdogKick a v s
  | .wdogWarning => Sys2Proof.Machine.execWdogWarning s
  | .wdogExpiry => Sys2Proof.Machine.execWdogExpiry s
  | .pvcHypVote a d vote => Sys2Proof.Machine.execPvcHypVote a d vote s
  | .pvcSecVote a d vote => Sys2Proof.Machine.execPvcSecVote a d vote s
  | .pvcClk a d stop => Sys2Proof.Machine.execPvcClk a d stop s
  | .domainDrained d => Sys2Proof.Machine.execDomainDrained d s
  | .powerGood d => Sys2Proof.Machine.execPowerGood d s
  | .wakeTimeout d => Sys2Proof.Machine.execWakeTimeout d s
  | .pllLock d => Sys2Proof.Machine.execPllLock d s
  | .pllLockFailed d => Sys2Proof.Machine.execPllLockFailed d s
  | .clockRefLost => Sys2Proof.Machine.execClockRefLost s
  | .clockRefRestored => Sys2Proof.Machine.execClockRefRestored s
  | .switchToken => Sys2Proof.Machine.execSwitchToken s
  | .wearCopy => Sys2Proof.Machine.execWearCopy s
  | .powerStatus r => Sys2Proof.Machine.execPowerStatus r s
  | .hostDirectEnter r => Sys2Proof.Machine.execHostDirectEnter r s
  | .hostDirectExit r => Sys2Proof.Machine.execHostDirectExit r s
  | .domainSet r => Sys2Proof.Machine.execDomainSet r s
  | .powerCapSet r => Sys2Proof.Machine.execPowerCapSet r s
  | .powerCapStatus r => Sys2Proof.Machine.execPowerCapStatus r s
  | .frequencyRecompute => Sys2Proof.Machine.execFrequencyRecompute s
  | .powerCapLoop p => Sys2Proof.Machine.execPowerCapLoop p s
  | .galTail a r tail => Sys2Proof.Machine.execGalTail a r tail s
  | .galleyTake r => Sys2Proof.Machine.execGalleyTake r s
  | .galStatErrClear a r => Sys2Proof.Machine.execGalStatErrClear a r s
  | .nop r => Sys2Proof.Machine.execNop r s
  | .netConfig r => Sys2Proof.Machine.execNetConfig r s
  | .coreStatus r => Sys2Proof.Machine.execCoreStatus r s
  | .coreReset r => Sys2Proof.Machine.execCoreReset r s
  | .coreRetire r => Sys2Proof.Machine.execCoreRetire r s
  | .chipReset r => Sys2Proof.Machine.execChipReset r s
  | .memStatus r => Sys2Proof.Machine.execMemStatus r s
  | .memRetrain r pc ok => Sys2Proof.Machine.execMemRetrain r pc ok s
  | .errInject r => Sys2Proof.Machine.execErrInject r s
  | .telemetryRead r value mt => Sys2Proof.Machine.execTelemetryRead r value mt s
  | .logbookInfo r => Sys2Proof.Machine.execLogbookInfo r s
  | .logbookRead r => Sys2Proof.Machine.execLogbookRead r s
  | .fwStageBegin r => Sys2Proof.Machine.execFwStageBegin r s
  | .fwStageData r => Sys2Proof.Machine.execFwStageData r s
  | .fwStageCommit r => Sys2Proof.Machine.execFwStageCommit r s
  | .fwVerifyDone version rbMin ok => Sys2Proof.Machine.execFwVerifyDone version rbMin ok s
  | .fwStatus r => Sys2Proof.Machine.execFwStatus r s
  | .snapshotNow r => Sys2Proof.Machine.execSnapshotNow r s
  | .counterRead r => Sys2Proof.Machine.execCounterRead r s
  | .galleyDatagram addr port bytes => Sys2Proof.Machine.execGalleyDatagram addr port bytes s
  | .arpRequest target sender => Sys2Proof.Machine.execArpRequest target sender s
  | .icmpEcho target sender bytes => Sys2Proof.Machine.execIcmpEcho target sender bytes s
  | .mgmtLinkUp => Sys2Proof.Machine.execMgmtLinkUp s
  | .lengthsmanFault cause => Sys2Proof.Machine.execLengthsmanFault cause s
  | .lenRestart => Sys2Proof.Machine.execLenRestart s
  | .towpathBreak ring node => Sys2Proof.Machine.execTowpathBreak ring node s
  | .evqCons a q cons => Sys2Proof.Machine.execEvqCons a q cons s
  | .evqCtlWrite a q data => Sys2Proof.Machine.execEvqCtlWrite a q data s
  | .rasReport e => Sys2Proof.Machine.execRasReport e s
  | .coreArrayUe stop array masks => Sys2Proof.Machine.execCoreArrayUe stop array masks s
  | .coreSpared stop => Sys2Proof.Machine.execCoreSpared stop s
  | .sparingFlushEnd stop => Sys2Proof.Machine.execSparingFlushEnd stop s
  | .sampleRecord t => Sys2Proof.Machine.execSampleRecord t s
  | .bandwidthWindowEnd u => Sys2Proof.Machine.execBandwidthWindowEnd u s
  | .uncBwCtlWrite a u data => Sys2Proof.Machine.execUncBwCtlWrite a u data s
  | .resetNRelease straps => Sys2Proof.Machine.execResetNRelease straps s
  | .resetNAssert => Sys2Proof.Machine.execResetNAssert s
  | .tollhouseFwVerified => Sys2Proof.Machine.execTollhouseFwVerified s
  | .lengthsmanStart => Sys2Proof.Machine.execLengthsmanStart s
  | .referencePresent => Sys2Proof.Machine.execReferencePresent s
  | .railsInTolerance => Sys2Proof.Machine.execRailsInTolerance s
  | .railEnableTimeout rail mv cause => Sys2Proof.Machine.execRailEnableTimeout rail mv cause s
  | .fabricReady => Sys2Proof.Machine.execFabricReady s
  | .memoryTrained dimms hbmBad => Sys2Proof.Machine.execMemoryTrained dimms hbmBad s
  | .clearComplete => Sys2Proof.Machine.execClearComplete s
  | .bootDone => Sys2Proof.Machine.execBootDone s
  | .warmChipReset => Sys2Proof.Machine.execWarmChipReset s
  | .coldResetCommand => Sys2Proof.Machine.execColdResetCommand s
  | .railFault rail mv => Sys2Proof.Machine.execRailFault rail mv s
  | .thermalControlTick tiles io hbm => Sys2Proof.Machine.execThermalControlTick tiles io hbm s
  | .thermalTrip sensor temp => Sys2Proof.Machine.execThermalTrip sensor temp s
  | .mtRefclkReturn => Sys2Proof.Machine.execMtRefclkReturn s
  | .epochMissing => Sys2Proof.Machine.execEpochMissing s
  | .longVectorIdleTimeout stop => Sys2Proof.Machine.execLongVectorIdleTimeout stop s
  | .atsInvCompletion stream => Sys2Proof.Machine.execAtsInvCompletion stream s
  | .vfEnable n => Sys2Proof.Machine.execVfEnable n s
  | .busMasterEnable fn masks => Sys2Proof.Machine.execBusMasterEnable fn s masks
  | .pf0Enable => Sys2Proof.Machine.execPf0Enable s

end Sys2Proof.Machine
end

