-- ==== Sys2Proof/Machine/Idle.lean ====
section
/-! DEFINITION. What the block does when no command waits: one ns passes (spec/12_lock_keeper.md R355–R359), the Lock-Keeper performs the commands it has held for 100 cycles (R372), tenant resets under way advance by a step (spec/11_tenancy.md R339), CXL.mem reads that wait for a tag are sent (spec/14_expansion_ports.md R431), and the Logbook's wear is watched (spec/18_ras.md R573). -/
namespace Sys2Proof.Machine

/-- LOGBOOK_WEAR (18 R573): once WEAR exceeds 80, told once. -/
def State.wearCheck (s : State) : State :=
  let w := s.ev.log.wear
  if 80 < w && !s.ev.log.wearTold then
    ({ s with ev := { s.ev with log := { s.ev.log with wearTold := true } } }).replaceReq 5 0x0A04 803 (min 100 w) s.ev.log.journal.length
  else s

/-- One ns passes (notes/assumptions/1.md). -/
def State.idle (s : State) : State := s.clockTick.lkpDue.trstTick.tagTick.wearCheck

end Sys2Proof.Machine
end

