-- ==== Sys2Proof/Safety.lean ====
section
/-! DEFINITION. What counts as a safe run: the canonical form of memory and of the other sparse tables, legal levels and worlds of threads, a legal debug port, and outcomes that are next states. -/
namespace Sys2Proof.Machine

/-- The outcome is a next state. -/
def isNext (o : Host.Outcome State Fault Refusal) : Bool := match o with | .next _ => true | _ => false

/-- The canonical form of memory: addresses strictly rising, and no byte listed that an unlisted address reads as. -/
abbrev Memory.wf (m : List Host.Cell) : Prop := smWf (fun _ => 0#8) m

/-- Memory, Chip Control Space, the threads and the cores are in canonical form, so that equal contents are equal data. -/
structure State.Canon (s : State) : Prop where
  mem : Memory.wf s.coh.mem
  ccs : smWf (ccsReset s.variant) s.ccs
  threads : smWf (fun _ => Thread.reset (vcfgReset s.variant)) s.threads
  cores : smWf (fun _ => CoreSt.reset) s.cores

/-- The level exists in the world (02 R38): level 2 in the Normal world only, level 3 in the Secure world only. -/
def levelOk (pl : Nat) (sec : Bool) : Prop := (pl = 2 → sec = false) ∧ (pl = 3 → sec = true)

/-- A thread's level exists in its world (02 R38), and only sync-required state waits for synchronisation (02 R50), in canonical form. -/
structure Thread.Legal (th : Thread) : Prop where
  level : levelOk th.pl th.secure
  sync : smWf (fun _ => []) th.pend
  pend : ∀ e ∈ th.pend, syncReq e.1 = true

/-- Every thread is legal. -/
def State.Modes (s : State) : Prop := ∀ t, (s.thr t).Legal

/-- The debug port holds one of its instructions and drives the lands only under EXTEST, and its boundary-scan register is empty as at reset or has its full length (15 R470, R471). -/
def JtagSt.Legal (j : JtagSt) : Prop := j.ir ∈ [0x00, 0x01, 0x02, 0x10, 0x11, 0x12, 0xFF] ∧ (j.driving = true ↔ j.ir = 0) ∧ j.ack ∈ [0, 2, 3] ∧
  (j.bscan = [] ∨ j.bscan.length = bscanCells)

/-! ### The memory system -/

/-- Counting what the memory system c has noted cannot itself change memory: it notes no memory access (07 R171, 19 R584), or no access can find an error to report, or uncover one (09 R261, 14 R428, 17 R532, 20 R596). -/
def State.quiet (s : State) (c : Coh) : Prop :=
  (∀ e ∈ c.evs, e.code ≠ 0x040 ∧ e.code ≠ 0x041) ∨ (s.memx.inject = [] ∧ s.memx.ddrBad = [] ∧ c.unwritten = 0 ∧ ∀ a, s.hdmOf a = none)

/-- Every message that taking the memory system to c sends can cross the mesh now, and every memory request it makes be served (16 R494, R504; 08 R213; 11 R336). -/
def State.canDo (s : State) (c : Coh) : Prop := ∀ e ∈ s.newEvs c, s.evUp e = true

/-- A stop that takes a line to write it holds it in L1D in E or M, has its miss outstanding, or has an entry free for the miss (07 R174). -/
def State.ownEntry (s : State) (stop line : Nat) : Prop :=
  (∃ p, s.coh.pl stop line = some p ∧ p.l1d.isSome ∧ (p.st = .m ∨ p.st = .e)) ∨ (s.coh.miss stop line).isSome ∨ s.missRoom stop .rdOwn false = true

/-- The memory system of s has become c, what c notes has been counted, and messages have been counted along their routes: no thread, no core but for counters, and nothing outside counters, aqueduct votes and errors reported changes. -/
structure Coherent (s : State) (c : Coh) (s' : State) : Prop where
  coh : s.quiet c → s'.coh = { c with evs := [] }
  cores : ∀ p, s'.core p = { s.core p with pmc := (s'.core p).pmc, pmcRet := (s'.core p).pmcRet, sample := (s'.core p).sample }
  rest : s' = { s with freeCtr := s'.freeCtr, ccs := s'.ccs, cores := s'.cores, coh := s'.coh, ev := s'.ev, memx := s'.memx, pwr := s'.pwr, port := s'.port, gal := s'.gal, msh := s'.msh }

/-! ### Galley commands -/

/-- Command c of ring r, with opcode op, is the oldest its executor holds of that ring and it is the ring's turn (17 R524), waits for no FENCE (17 R526), can be performed now (17 R516, 12 R372), passes the checks of 17 R527, and is one that may run where the boot is halted (20 R600) or the boot is not halted. -/
structure Handed (s : State) (r op : Nat) (c : GalCmd) : Prop where
  first : s.galFirst r (executorOf op) = some c
  isOp : c.op = op
  fresh : c.begun = false
  ready : s.galReady c = true
  fenced : s.galFenced c = false
  turn : s.galTurn c = true
  passes : s.galCheck c = none
  halt : s.rf a_GAL_BOOT_STAT f_GAL_BOOT_STAT_HALT = 0 ∨ op ∈ haltOps

/-- The state after a command has begun whose proof follows later (17 R529). -/
def State.begins (s : State) (c : GalCmd) : State :=
  { s with gal := { s.gal with taken := s.gal.taken.map (fun x => if x = c then { c with begun := true } else x) } }

/-! ### One instruction -/

/-- The state an instruction's effect starts in: after the fetch of word w, with power asked for the long-vector unit when it uses it (06 R154), and the loop buffer and the fetch queue's poison mark as decoding leaves them (04 R106, R107). -/
def State.begun (s1 : State) (t : Nat) (ends : Bool) (w : Option (BitVec 32)) (lv : Bool := false) : State :=
  (if lv then s1.lvRequest (s1.stopOf t) else s1).updThr t (Thread.decoded · ends w)

/-- Thread t meets instruction i at its PC in state s, and its fetch leaves s1 with word w: the thread can run (01 R36, 03 R87, 16 R496, 20 R595), takes no halt request (15 R470), the fetch succeeds, or was made before the instruction had to wait (10 R296), and gives i's encoding or a word of the boot ROM whose contents the spec does not give, no breakpoint matches (15 R475), and TSTAT.STEP is 0 (02 R59). -/
structure Meets (i : Instr) (t : Nat) (s s1 : State) (w : Option (BitVec 32)) : Prop where
  run : s.canRun t = true
  halt : ((s.thr t).haltReq && !(s.thr t).midVec && bit (s.view t 0x460) 2 && s.invasive t) = false
  fetch : (s.tick.dropGiven t).fetchNow t = .ok s1 w
  word : w = none ∨ w = encodeEltor i
  brk : ∀ ends lv, (s1.begun t ends w lv).breakAt t (s1.thr t).pc = none
  step : (s1.thr t).step = false

/-- As `Meets`, and the fetched word, if it is given, is allocated (03 R70): thread t executes instruction i. -/
structure Executes (i : Instr) (t : Nat) (s s1 : State) (w : Option (BitVec 32)) : Prop extends Meets i t s s1 w where
  allocated : ∀ e, w = some e → (decodeEltor 0 e).isSome = true

/-- The thread after an instruction that retired at pc, leaving state s': a single step ends in a world whose invasive enable is in force (15 R471, R474). -/
def Thread.at (th : Thread) (s' : State) (pc : Word) : Thread :=
  let inv := s'.dbgEnabled (if th.secure then 0 else 2)
  { th with pc := pc, held := none, halted := th.halted || (th.stepOne && inv), stepOne := th.stepOne && !inv }

/-- b is a but for the counting of events (19 R578–R588): counters, waiting samples, performance registers of the stop pages, and counter interrupts. -/
structure Counts (a b : State) : Prop where
  rest : b = { a with cores := b.cores, ccs := b.ccs, ev := { a.ev with irqs := b.ev.irqs } }
  regs : ∀ o, o < 0x10000000 → b.reg o = a.reg o
  cores : ∀ p, b.core p = { a.core p with pmc := (b.core p).pmc, pmcRet := (b.core p).pmcRet, sample := (b.core p).sample }

/-- From s1 one instruction of thread t has retired: the thread is th, at address pc; no other thread has changed, and nothing else but the counting of events: memory, caches, every register of Chip Control Space outside the stop pages and every table are as in s1. -/
structure Retires (t : Nat) (s1 : State) (th : Thread) (pc : Word) (s' : State) : Prop where
  thread : s'.thr t = th.at s' pc
  others : ∀ u, u ≠ t → s'.thr u = s1.thr u
  counts : Counts { s1 with threads := s'.threads } s'

/-! ### What the computing instructions do to their thread, as the tables of chapters 03, 05 and 06 give it -/

/-- Sign-extended low half of a word. -/
def lowW (x : BitVec 32) : Word := x.signExtend 64
/-- A comparison's result. -/
def holds (p : Prop) [Decidable p] : Word := if p then 1 else 0

/-- Integer instructions (03 R76, R77 without the divides, R78): the thread, whether the encoding is allocated, and the thread's registers after from those before. -/
def intEffect : Instr → Option (Nat × Bool × (Thread → Thread))
  | .add t rd ra rb => some (t, true, fun th => th.wE rd (th.rE ra + th.rE rb))
  | .sub t rd ra rb => some (t, true, fun th => th.wE rd (th.rE ra - th.rE rb))
  | .iand t rd ra rb => some (t, true, fun th => th.wE rd (th.rE ra &&& th.rE rb))
  | .ior t rd ra rb => some (t, true, fun th => th.wE rd (th.rE ra ||| th.rE rb))
  | .ixor t rd ra rb => some (t, true, fun th => th.wE rd (th.rE ra ^^^ th.rE rb))
  | .andn t rd ra rb => some (t, true, fun th => th.wE rd (th.rE ra &&& ~~~th.rE rb))
  | .sll t rd ra rb => some (t, true, fun th => th.wE rd (BitVec.ofNat 64 ((th.rE ra).toNat * 2 ^ ((th.rE rb).toNat % 64))))
  | .srl t rd ra rb => some (t, true, fun th => th.wE rd (BitVec.ofNat 64 ((th.rE ra).toNat / 2 ^ ((th.rE rb).toNat % 64))))
  | .sra t rd ra rb => some (t, true, fun th => th.wE rd (BitVec.ofInt 64 ((th.rE ra).toInt / 2 ^ ((th.rE rb).toNat % 64))))
  | .ror t rd ra rb => some (t, true, fun th => th.wE rd ((th.rE ra).rotateRight ((th.rE rb).toNat % 64)))
  | .addw t rd ra rb => some (t, true, fun th => th.wE rd (lowW ((th.rE ra).setWidth 32 + (th.rE rb).setWidth 32)))
  | .subw t rd ra rb => some (t, true, fun th => th.wE rd (lowW ((th.rE ra).setWidth 32 - (th.rE rb).setWidth 32)))
  | .seq t rd ra rb => some (t, true, fun th => th.wE rd (holds (th.rE ra = th.rE rb)))
  | .sne t rd ra rb => some (t, true, fun th => th.wE rd (holds (th.rE ra ≠ th.rE rb)))
  | .slt t rd ra rb => some (t, true, fun th => th.wE rd (holds ((th.rE ra).toInt < (th.rE rb).toInt)))
  | .sltu t rd ra rb => some (t, true, fun th => th.wE rd (holds ((th.rE ra).toNat < (th.rE rb).toNat)))
  | .sge t rd ra rb => some (t, true, fun th => th.wE rd (holds ((th.rE rb).toInt ≤ (th.rE ra).toInt)))
  | .sgeu t rd ra rb => some (t, true, fun th => th.wE rd (holds ((th.rE rb).toNat ≤ (th.rE ra).toNat)))
  | .imin t rd ra rb => some (t, true, fun th => th.wE rd (if (th.rE ra).toInt ≤ (th.rE rb).toInt then th.rE ra else th.rE rb))
  | .imax t rd ra rb => some (t, true, fun th => th.wE rd (if (th.rE ra).toInt ≤ (th.rE rb).toInt then th.rE rb else th.rE ra))
  | .minu t rd ra rb => some (t, true, fun th => th.wE rd (BitVec.ofNat 64 (min (th.rE ra).toNat (th.rE rb).toNat)))
  | .maxu t rd ra rb => some (t, true, fun th => th.wE rd (BitVec.ofNat 64 (max (th.rE ra).toNat (th.rE rb).toNat)))
  | .addc t rd ra rb => some (t, true, fun th =>
      let x := (th.rE ra).toNat + (th.rE rb).toNat + th.carry.toNat
      (th.wE rd (BitVec.ofNat 64 x)).setC (decide (2 ^ 64 ≤ x)))
  | .subb t rd ra rb => some (t, true, fun th =>
      (th.wE rd (th.rE ra - th.rE rb - BitVec.ofNat 64 th.carry.toNat)).setC (decide ((th.rE ra).toNat < (th.rE rb).toNat + th.carry.toNat)))
  | .selnz t rd ra rb => some (t, true, fun th => th.wE rd (if th.rE rb ≠ 0 then th.rE ra else th.rE rd))
  | .clz t rd ra => some (t, true, fun th => th.wE rd (BitVec.ofNat 64 (clz64 (th.rE ra))))
  | .ctz t rd ra => some (t, true, fun th => th.wE rd (BitVec.ofNat 64 (ctz64 (th.rE ra))))
  | .pop t rd ra => some (t, true, fun th => th.wE rd (BitVec.ofNat 64 ((List.range 64).countP (fun i => (th.rE ra).getLsbD i))))
  | .bswap t rd ra => some (t, true, fun th => th.wE rd (bswap64 (th.rE ra)))
  | .sextB t rd ra => some (t, true, fun th => th.wE rd (((th.rE ra).setWidth 8).signExtend 64))
  | .sextH t rd ra => some (t, true, fun th => th.wE rd (((th.rE ra).setWidth 16).signExtend 64))
  | .sextW t rd ra => some (t, true, fun th => th.wE rd (lowW ((th.rE ra).setWidth 32)))
  | .zextW t rd ra => some (t, true, fun th => th.wE rd (BitVec.ofNat 64 ((th.rE ra).toNat % 2 ^ 32)))
  | .mul t rd ra rb => some (t, true, fun th => th.wE rd (BitVec.ofNat 64 ((th.rE ra).toNat * (th.rE rb).toNat)))
  | .mulh t rd ra rb => some (t, true, fun th => th.wE rd (BitVec.ofInt 64 ((th.rE ra).toInt * (th.rE rb).toInt / 2 ^ 64)))
  | .mulhu t rd ra rb => some (t, true, fun th => th.wE rd (BitVec.ofNat 64 ((th.rE ra).toNat * (th.rE rb).toNat / 2 ^ 64)))
  | .mulhsu t rd ra rb => some (t, true, fun th => th.wE rd (BitVec.ofInt 64 ((th.rE ra).toInt * (th.rE rb).toNat / 2 ^ 64)))
  | .mulwu t rd ra rb => some (t, pairOk rd, fun th => th.wPair rd (BitVec.ofNat 128 ((th.rE ra).toNat * (th.rE rb).toNat)))
  | .mulws t rd ra rb => some (t, pairOk rd, fun th => th.wPair rd (BitVec.ofInt 128 ((th.rE ra).toInt * (th.rE rb).toInt)))
  | .addi t rd ra imm => some (t, true, fun th => th.wE rd (th.rE ra + imm.signExtend 64))
  | .andi t rd ra imm => some (t, true, fun th => th.wE rd (th.rE ra &&& imm.setWidth 64))
  | .ori t rd ra imm => some (t, true, fun th => th.wE rd (th.rE ra ||| imm.setWidth 64))
  | .xori t rd ra imm => some (t, true, fun th => th.wE rd (th.rE ra ^^^ imm.setWidth 64))
  | .slti t rd ra imm => some (t, true, fun th => th.wE rd (holds ((th.rE ra).toInt < imm.toInt)))
  | .sltiu t rd ra imm => some (t, true, fun th => th.wE rd (holds ((th.rE ra).toNat < (imm.signExtend 64).toNat)))
  | .lui t rd imm => some (t, true, fun th => th.wE rd (BitVec.ofInt 64 (imm.toInt * 2 ^ 16)))
  | .insi t rd h imm => some (t, true, fun th => th.wE rd (setFld (th.rE rd) (16 * h.toNat) 16 imm.toNat))
  | .addpc t rd imm => some (t, true, fun th => th.wE rd (BitVec.ofNat 64 (th.pc.toNat / 4096 * 4096) + BitVec.ofInt 64 (imm.toInt * 4096)))
  | .slli t rd ra sh => some (t, true, fun th => th.wE rd (BitVec.ofNat 64 ((th.rE ra).toNat * 2 ^ sh.toNat)))
  | .srli t rd ra sh => some (t, true, fun th => th.wE rd (BitVec.ofNat 64 ((th.rE ra).toNat / 2 ^ sh.toNat)))
  | .srai t rd ra sh => some (t, true, fun th => th.wE rd (BitVec.ofInt 64 ((th.rE ra).toInt / 2 ^ sh.toNat)))
  | .rori t rd ra sh => some (t, true, fun th => th.wE rd ((th.rE ra).rotateRight sh.toNat))
  | _ => none

/-- Mask instructions (03 R94), in the same form. -/
def maskEffect : Instr → Option (Nat × Bool × (Thread → Thread))
  | .mand t md ma mb => some (t, mOk md && mOk ma && mOk mb, fun th => th.wM md.toNat (th.rM ma.toNat &&& th.rM mb.toNat))
  | .mor t md ma mb => some (t, mOk md && mOk ma && mOk mb, fun th => th.wM md.toNat (th.rM ma.toNat ||| th.rM mb.toNat))
  | .mxor t md ma mb => some (t, mOk md && mOk ma && mOk mb, fun th => th.wM md.toNat (th.rM ma.toNat ^^^ th.rM mb.toNat))
  | .mandn t md ma mb => some (t, mOk md && mOk ma && mOk mb, fun th => th.wM md.toNat (th.rM ma.toNat &&& ~~~th.rM mb.toNat))
  | .mnot t md ma => some (t, mOk md && mOk ma, fun th => th.wM md.toNat (~~~th.rM ma.toNat))
  | .mpop t rd ma => some (t, mOk ma, fun th => th.wE rd (BitVec.ofNat 64 ((List.range 256).countP (fun i => (th.rM ma.toNat).getLsbD i))))
  | .mfirst t rd ma => some (t, mOk ma, fun th => th.wE rd (BitVec.ofNat 64 (((List.range 256).find? (fun i => (th.rM ma.toNat).getLsbD i)).getD 256)))
  | .mget t rd ma part => some (t, mOk ma, fun th => th.wE rd (BitVec.ofNat 64 ((th.rM ma.toNat).toNat / 2 ^ (64 * part.toNat))))
  | .mset t md ra part => some (t, mOk md, fun th => th.wM md.toNat (BitVec.ofFnLE fun i => if i.val / 64 = part.toNat then (th.rE ra).getLsbD (i.val % 64) else (th.rM md.toNat).getLsbD i.val))
  | _ => none

/-- Divides (03 R77; 05 R122, R123): the thread, its destination, whether DIVTRAP makes the operands trap with which code, and the result. -/
def divEffect : Instr → Option (Nat × Reg × (Thread → Option Nat) × (Thread → Word))
  | .div t rd ra rb => some (t, rd, fun th => if th.rE rb = 0 then some 0x38 else if (th.rE ra).toInt = -(2 ^ 63) ∧ (th.rE rb).toInt = -1 then some 0x39 else none,
      fun th => if th.rE rb = 0 then BitVec.ofInt 64 (-1) else BitVec.ofInt 64 ((th.rE ra).toInt.tdiv (th.rE rb).toInt))
  | .divu t rd ra rb => some (t, rd, fun th => if th.rE rb = 0 then some 0x38 else none,
      fun th => if th.rE rb = 0 then BitVec.ofInt 64 (-1) else BitVec.ofNat 64 ((th.rE ra).toNat / (th.rE rb).toNat))
  | .rem t rd ra rb => some (t, rd, fun th => if th.rE rb = 0 then some 0x38 else if (th.rE ra).toInt = -(2 ^ 63) ∧ (th.rE rb).toInt = -1 then some 0x39 else none,
      fun th => if th.rE rb = 0 then th.rE ra else BitVec.ofInt 64 ((th.rE ra).toInt.tmod (th.rE rb).toInt))
  | .remu t rd ra rb => some (t, rd, fun th => if th.rE rb = 0 then some 0x38 else none,
      fun th => if th.rE rb = 0 then th.rE ra else BitVec.ofNat 64 ((th.rE ra).toNat % (th.rE rb).toNat))
  | .divw t rd ra rb => some (t, rd, fun th => if (th.rE rb).setWidth 32 = 0#32 then some 0x38 else
        if ((th.rE ra).setWidth 32).toInt = -(2 ^ 31) ∧ ((th.rE rb).setWidth 32).toInt = -1 then some 0x39 else none,
      fun th => if (th.rE rb).setWidth 32 = 0#32 then BitVec.ofInt 64 (-1) else
        lowW (BitVec.ofInt 32 (((th.rE ra).setWidth 32).toInt.tdiv ((th.rE rb).setWidth 32).toInt)))
  | .divwu t rd ra rb => some (t, rd, fun th => if (th.rE rb).setWidth 32 = 0#32 then some 0x38 else none,
      fun th => if (th.rE rb).setWidth 32 = 0#32 then BitVec.ofInt 64 (-1) else
        lowW (BitVec.ofNat 32 (((th.rE ra).setWidth 32).toNat / ((th.rE rb).setWidth 32).toNat)))
  | _ => none

/-! ### Floating point and vectors -/

/-- Flags an instruction raised, merged into FPFLAGS (05 R134) and among those that may still be raised when FPFLAGS is next written (02 R45). -/
def Thread.raised (th : Thread) (f : FpFlags) : Thread := { th with fpflags := th.fpflags ||| f.toWord, fpRecent := th.fpRecent ||| f.toWord.toNat }
/-- A scalar result with its flags (05 R134): the low lane of Sd, zero above it (02 R42). -/
def Thread.fpSv (th : Thread) (rd : Reg) (r : Nat × FpFlags) : Thread := (th.wSV rd (BitVec.ofNat 256 r.1)).raised r.2
/-- A result in Ed with its flags. -/
def Thread.fpE (th : Thread) (rd : Reg) (r : Nat × FpFlags) : Thread := (th.wE rd (BitVec.ofNat 64 r.1)).raised r.2

/-- Scalar floating-point instructions (03 R91): the thread, whether the encoding is allocated, and the thread after from the thread before. -/
def fpEffect : Instr → Option (Nat × Bool × (Thread → Thread))
  | .fadd t fmt rd ra rb => some (t, fmt != 3, fun th => let f := fmtOf fmt; let a := th.rF f ra; let b := th.rF f rb; th.fpSv rd (fpAdd f th.fpEnv a b))
  | .fsub t fmt rd ra rb => some (t, fmt != 3, fun th => let f := fmtOf fmt; let a := th.rF f ra; let b := th.rF f rb; th.fpSv rd (fpSub f th.fpEnv a b))
  | .fmul t fmt rd ra rb => some (t, fmt != 3, fun th => let f := fmtOf fmt; let a := th.rF f ra; let b := th.rF f rb; th.fpSv rd (fpMul f th.fpEnv a b))
  | .fdiv t fmt rd ra rb => some (t, fmt != 3, fun th => let f := fmtOf fmt; let a := th.rF f ra; let b := th.rF f rb; th.fpSv rd (fpDiv f th.fpEnv a b))
  | .fmin t fmt rd ra rb => some (t, fmt != 3, fun th => let f := fmtOf fmt; let a := th.rF f ra; let b := th.rF f rb; th.fpSv rd (fpMinMax f th.fpEnv false a b))
  | .fmax t fmt rd ra rb => some (t, fmt != 3, fun th => let f := fmtOf fmt; let a := th.rF f ra; let b := th.rF f rb; th.fpSv rd (fpMinMax f th.fpEnv true a b))
  | .fcmpeq t fmt rd ra rb => some (t, fmt != 3, fun th => let f := fmtOf fmt; let a := th.rF f ra; let b := th.rF f rb; let c := fpCompare f th.fpEnv 0 a b; th.fpE rd (if c.1 then 1 else 0, c.2))
  | .fcmplt t fmt rd ra rb => some (t, fmt != 3, fun th => let f := fmtOf fmt; let a := th.rF f ra; let b := th.rF f rb; let c := fpCompare f th.fpEnv 1 a b; th.fpE rd (if c.1 then 1 else 0, c.2))
  | .fcmple t fmt rd ra rb => some (t, fmt != 3, fun th => let f := fmtOf fmt; let a := th.rF f ra; let b := th.rF f rb; let c := fpCompare f th.fpEnv 2 a b; th.fpE rd (if c.1 then 1 else 0, c.2))
  | .fmadd t fmt rd ra rb => some (t, true, fun th => let f := fmtOf fmt; let g := if fmt = 3 then fmtS else f; th.fpSv rd (fpFma g f th.fpEnv false (th.rF g rd) (th.rF f ra) (th.rF f rb)))
  | .fmsub t fmt rd ra rb => some (t, true, fun th => let f := fmtOf fmt; let g := if fmt = 3 then fmtS else f; th.fpSv rd (fpFma g f th.fpEnv true (th.rF g rd) (th.rF f ra) (th.rF f rb)))
  | .fsqrt t fmt rd ra => some (t, fmt != 3, fun th => let f := fmtOf fmt; th.fpSv rd (fpSqrt f th.fpEnv (th.rF f ra)))
  | .fabs t fmt rd ra => some (t, fmt != 3, fun th => let f := fmtOf fmt; th.fpSv rd (th.rF f ra % 2 ^ (f.width - 1), {}))
  | .fneg t fmt rd ra => some (t, fmt != 3, fun th => let f := fmtOf fmt; th.fpSv rd ((th.rF f ra + 2 ^ (f.width - 1)) % 2 ^ f.width, {}))
  | .fclass t fmt rd ra => some (t, fmt != 3, fun th => let f := fmtOf fmt; th.fpE rd (fpClass f (th.rF f ra), {}))
  | .fcvt t fmt rd ra dst => some (t, true, fun th => th.fpSv rd (fpCvt (fmtOf fmt) (fmtOf dst) th.fpEnv (th.rF (fmtOf fmt) ra)))
  | .fcvti t fmt rd ra => some (t, fmt != 3, fun th => let f := fmtOf fmt; th.fpE rd (fpToInt f th.fpEnv true 64 (th.rF f ra)))
  | .fcvtiu t fmt rd ra => some (t, fmt != 3, fun th => let f := fmtOf fmt; th.fpE rd (fpToInt f th.fpEnv false 64 (th.rF f ra)))
  | .fcvtf t fmt rd ra => some (t, fmt != 3, fun th => let f := fmtOf fmt; th.fpSv rd (fpOfInt f th.fpEnv (decide ((th.rE ra).toInt < 0)) (th.rE ra).toInt.natAbs))
  | .fcvtfu t fmt rd ra => some (t, fmt != 3, fun th => let f := fmtOf fmt; th.fpSv rd (fpOfInt f th.fpEnv false (th.rE ra).toNat))
  | .fmve t fmt rd ra => some (t, fmt == 2, fun th => th.fpE rd ((th.rSV ra).toNat % 2 ^ 64, {}))
  | .fmvs t fmt rd ra => some (t, fmt == 2, fun th => th.fpSv rd ((th.rE ra).toNat, {}))
  | _ => none

/-- A vector result with its flags. -/
def Thread.vecV (th : Thread) (long : Bool) (vd : Reg) (r : Nat × FpFlags) : Thread := (th.wVec long vd r.1).raised r.2

/-- Vector instructions (03 R92): the thread, whether the long-vector unit runs it, whether the encoding is allocated, and the thread after, from the state its effect starts in. -/
def vecEffect : Instr → Option (Nat × Bool × Bool × (State → Thread))
  | .vadd t long vd va vb mask et => some (t, long, VBin.add.allows (ETypeOf et) && vOk long vd && vOk long va && vOk long vb, fun s =>
      let th := s.thr t; let e := ETypeOf et; let n := s.vlen t long / e.width; let m := th.rM mask.toNat; let d := s.rVec t long vd; let a := s.rVec t long va; let b := s.rVec t long vb
      th.vecV long vd (vecBin .add e th.fpEnv m n d a b))
  | .vsub t long vd va vb mask et => some (t, long, VBin.sub.allows (ETypeOf et) && vOk long vd && vOk long va && vOk long vb, fun s =>
      let th := s.thr t; let e := ETypeOf et; let n := s.vlen t long / e.width; let m := th.rM mask.toNat; let d := s.rVec t long vd; let a := s.rVec t long va; let b := s.rVec t long vb
      th.vecV long vd (vecBin .sub e th.fpEnv m n d a b))
  | .vmul t long vd va vb mask et => some (t, long, VBin.mul.allows (ETypeOf et) && vOk long vd && vOk long va && vOk long vb, fun s =>
      let th := s.thr t; let e := ETypeOf et; let n := s.vlen t long / e.width; let m := th.rM mask.toNat; let d := s.rVec t long vd; let a := s.rVec t long va; let b := s.rVec t long vb
      th.vecV long vd (vecBin .mul e th.fpEnv m n d a b))
  | .vmulh t long vd va vb mask et => some (t, long, VBin.mulh.allows (ETypeOf et) && vOk long vd && vOk long va && vOk long vb, fun s =>
      let th := s.thr t; let e := ETypeOf et; let n := s.vlen t long / e.width; let m := th.rM mask.toNat; let d := s.rVec t long vd; let a := s.rVec t long va; let b := s.rVec t long vb
      th.vecV long vd (vecBin .mulh e th.fpEnv m n d a b))
  | .vmin t long vd va vb mask et => some (t, long, VBin.min.allows (ETypeOf et) && vOk long vd && vOk long va && vOk long vb, fun s =>
      let th := s.thr t; let e := ETypeOf et; let n := s.vlen t long / e.width; let m := th.rM mask.toNat; let d := s.rVec t long vd; let a := s.rVec t long va; let b := s.rVec t long vb
      th.vecV long vd (vecBin .min e th.fpEnv m n d a b))
  | .vmax t long vd va vb mask et => some (t, long, VBin.max.allows (ETypeOf et) && vOk long vd && vOk long va && vOk long vb, fun s =>
      let th := s.thr t; let e := ETypeOf et; let n := s.vlen t long / e.width; let m := th.rM mask.toNat; let d := s.rVec t long vd; let a := s.rVec t long va; let b := s.rVec t long vb
      th.vecV long vd (vecBin .max e th.fpEnv m n d a b))
  | .vminu t long vd va vb mask et => some (t, long, VBin.minu.allows (ETypeOf et) && vOk long vd && vOk long va && vOk long vb, fun s =>
      let th := s.thr t; let e := ETypeOf et; let n := s.vlen t long / e.width; let m := th.rM mask.toNat; let d := s.rVec t long vd; let a := s.rVec t long va; let b := s.rVec t long vb
      th.vecV long vd (vecBin .minu e th.fpEnv m n d a b))
  | .vmaxu t long vd va vb mask et => some (t, long, VBin.maxu.allows (ETypeOf et) && vOk long vd && vOk long va && vOk long vb, fun s =>
      let th := s.thr t; let e := ETypeOf et; let n := s.vlen t long / e.width; let m := th.rM mask.toNat; let d := s.rVec t long vd; let a := s.rVec t long va; let b := s.rVec t long vb
      th.vecV long vd (vecBin .maxu e th.fpEnv m n d a b))
  | .vand t long vd va vb mask et => some (t, long, VBin.and.allows (ETypeOf et) && vOk long vd && vOk long va && vOk long vb, fun s =>
      let th := s.thr t; let e := ETypeOf et; let n := s.vlen t long / e.width; let m := th.rM mask.toNat; let d := s.rVec t long vd; let a := s.rVec t long va; let b := s.rVec t long vb
      th.vecV long vd (vecBin .and e th.fpEnv m n d a b))
  | .vor t long vd va vb mask et => some (t, long, VBin.or.allows (ETypeOf et) && vOk long vd && vOk long va && vOk long vb, fun s =>
      let th := s.thr t; let e := ETypeOf et; let n := s.vlen t long / e.width; let m := th.rM mask.toNat; let d := s.rVec t long vd; let a := s.rVec t long va; let b := s.rVec t long vb
      th.vecV long vd (vecBin .or e th.fpEnv m n d a b))
  | .vxor t long vd va vb mask et => some (t, long, VBin.xor.allows (ETypeOf et) && vOk long vd && vOk long va && vOk long vb, fun s =>
      let th := s.thr t; let e := ETypeOf et; let n := s.vlen t long / e.width; let m := th.rM mask.toNat; let d := s.rVec t long vd; let a := s.rVec t long va; let b := s.rVec t long vb
      th.vecV long vd (vecBin .xor e th.fpEnv m n d a b))
  | .vsll t long vd va vb mask et => some (t, long, VBin.sll.allows (ETypeOf et) && vOk long vd && vOk long va && vOk long vb, fun s =>
      let th := s.thr t; let e := ETypeOf et; let n := s.vlen t long / e.width; let m := th.rM mask.toNat; let d := s.rVec t long vd; let a := s.rVec t long va; let b := s.rVec t long vb
      th.vecV long vd (vecBin .sll e th.fpEnv m n d a b))
  | .vsrl t long vd va vb mask et => some (t, long, VBin.srl.allows (ETypeOf et) && vOk long vd && vOk long va && vOk long vb, fun s =>
      let th := s.thr t; let e := ETypeOf et; let n := s.vlen t long / e.width; let m := th.rM mask.toNat; let d := s.rVec t long vd; let a := s.rVec t long va; let b := s.rVec t long vb
      th.vecV long vd (vecBin .srl e th.fpEnv m n d a b))
  | .vsra t long vd va vb mask et => some (t, long, VBin.sra.allows (ETypeOf et) && vOk long vd && vOk long va && vOk long vb, fun s =>
      let th := s.thr t; let e := ETypeOf et; let n := s.vlen t long / e.width; let m := th.rM mask.toNat; let d := s.rVec t long vd; let a := s.rVec t long va; let b := s.rVec t long vb
      th.vecV long vd (vecBin .sra e th.fpEnv m n d a b))
  | .vdiv t long vd va vb mask et => some (t, long, VBin.div.allows (ETypeOf et) && vOk long vd && vOk long va && vOk long vb, fun s =>
      let th := s.thr t; let e := ETypeOf et; let n := s.vlen t long / e.width; let m := th.rM mask.toNat; let d := s.rVec t long vd; let a := s.rVec t long va; let b := s.rVec t long vb
      th.vecV long vd (vecBin .div e th.fpEnv m n d a b))
  | .vfma t long vd va vb mask et => some (t, long, vtypeOk .fmaTypes et && vOk long vd && vOk long va && vOk long vb, fun s =>
      let th := s.thr t; let e := ETypeOf et; let n := s.vlen t long / e.width; let m := th.rM mask.toNat; let d := s.rVec t long vd; let a := s.rVec t long va; let b := s.rVec t long vb
      th.vecV long vd (vecFma false e th.fpEnv m (if et = 5 then s.vlen t long / 32 else n) d a b))
  | .vfms t long vd va vb mask et => some (t, long, vtypeOk .fmaTypes et && vOk long vd && vOk long va && vOk long vb, fun s =>
      let th := s.thr t; let e := ETypeOf et; let n := s.vlen t long / e.width; let m := th.rM mask.toNat; let d := s.rVec t long vd; let a := s.rVec t long va; let b := s.rVec t long vb
      th.vecV long vd (vecFma true e th.fpEnv m (if et = 5 then s.vlen t long / 32 else n) d a b))
  | .vcmpeq t long vd va vb mask et => some (t, long, vtypeOk .intFp et && mOk vd && vOk long va && vOk long vb, fun s =>
      let th := s.thr t; let e := ETypeOf et; let n := s.vlen t long / e.width
      let r := vecCmp 0 e th.fpEnv (th.rM mask.toNat) (th.rM vd.toNat) (s.rVec t long va) (s.rVec t long vb) n
      (th.wM vd.toNat (BitVec.ofNat 256 r.1)).raised r.2)
  | .vcmplt t long vd va vb mask et => some (t, long, vtypeOk .intFp et && mOk vd && vOk long va && vOk long vb, fun s =>
      let th := s.thr t; let e := ETypeOf et; let n := s.vlen t long / e.width
      let r := vecCmp 1 e th.fpEnv (th.rM mask.toNat) (th.rM vd.toNat) (s.rVec t long va) (s.rVec t long vb) n
      (th.wM vd.toNat (BitVec.ofNat 256 r.1)).raised r.2)
  | .vcmple t long vd va vb mask et => some (t, long, vtypeOk .intFp et && mOk vd && vOk long va && vOk long vb, fun s =>
      let th := s.thr t; let e := ETypeOf et; let n := s.vlen t long / e.width
      let r := vecCmp 2 e th.fpEnv (th.rM mask.toNat) (th.rM vd.toNat) (s.rVec t long va) (s.rVec t long vb) n
      (th.wM vd.toNat (BitVec.ofNat 256 r.1)).raised r.2)
  | .vcmpltu t long vd va vb mask et => some (t, long, vtypeOk .int et && mOk vd && vOk long va && vOk long vb, fun s =>
      let th := s.thr t; let e := ETypeOf et; let n := s.vlen t long / e.width
      let r := vecCmp 3 e th.fpEnv (th.rM mask.toNat) (th.rM vd.toNat) (s.rVec t long va) (s.rVec t long vb) n
      (th.wM vd.toNat (BitVec.ofNat 256 r.1)).raised r.2)
  | .vredsum t long vd va mask et => some (t, long, vtypeOk .intFp et && vOk long vd && vOk long va, fun s =>
      let th := s.thr t; let e := ETypeOf et; let n := s.vlen t long / e.width; let m := th.rM mask.toNat
      th.vecV long vd (vecRed .sum e th.fpEnv m n (s.rVec t long va)))
  | .vredmin t long vd va mask et => some (t, long, vtypeOk .intFp et && vOk long vd && vOk long va, fun s =>
      let th := s.thr t; let e := ETypeOf et; let n := s.vlen t long / e.width; let m := th.rM mask.toNat
      th.vecV long vd (vecRed .min e th.fpEnv m n (s.rVec t long va)))
  | .vredmax t long vd va mask et => some (t, long, vtypeOk .intFp et && vOk long vd && vOk long va, fun s =>
      let th := s.thr t; let e := ETypeOf et; let n := s.vlen t long / e.width; let m := th.rM mask.toNat
      th.vecV long vd (vecRed .max e th.fpEnv m n (s.rVec t long va)))
  | .vsad t long vd va vb mask et => some (t, long, vtypeOk .sad et && vOk long vd && vOk long va && vOk long vb, fun s =>
      let th := s.thr t; let m := th.rM mask.toNat; let d := s.rVec t long vd; let a := s.rVec t long va; let b := s.rVec t long vb
      th.vecV long vd (vecSad false (et == 0) m (s.vlen t long / 64) d a b, {}))
  | .vsada t long vd va vb mask et => some (t, long, vtypeOk .sad et && vOk long vd && vOk long va && vOk long vb, fun s =>
      let th := s.thr t; let m := th.rM mask.toNat; let d := s.rVec t long vd; let a := s.rVec t long va; let b := s.rVec t long vb
      th.vecV long vd (vecSad true (et == 0) m (s.vlen t long / 64) d a b, {}))
  | .vsqrt t long vd va mask et => some (t, long, vtypeOk .fp et && vOk long vd && vOk long va, fun s =>
      let th := s.thr t; let e := ETypeOf et; let n := s.vlen t long / e.width; let m := th.rM mask.toNat
      th.vecV long vd (vecSqrt e th.fpEnv m n (s.rVec t long vd) (s.rVec t long va)))
  | .vcvt t long vd va mask et dst => some (t, long, vOk long vd && vOk long va, fun s =>
      let th := s.thr t; let e := ETypeOf et; let g := ETypeOf dst
      th.vecV long vd (vecCvt e g th.fpEnv (th.rM mask.toNat) (s.vlen t long / max e.width g.width) (s.rVec t long vd) (s.rVec t long va)))
  | .vbcast t long vd va mask et => some (t, long, vtypeOk .intFp et && vOk long vd, fun s =>
      let th := s.thr t; let e := ETypeOf et; let n := s.vlen t long / e.width; let m := th.rM mask.toNat
      th.vecV long vd (vecBcast e.width m n (s.rVec t long vd) (if e.isInt then (th.rE va).toNat else (th.rSV va).toNat), {}))
  | .vsel t long vd va vb mask et => some (t, long, true && vOk long vd && vOk long va && vOk long vb, fun s =>
      let th := s.thr t; let e := ETypeOf et; let n := s.vlen t long / e.width; let m := th.rM mask.toNat; let d := s.rVec t long vd; let a := s.rVec t long va; let b := s.rVec t long vb
      th.vecV long vd (vecSel e.width m n d a b, {}))
  | .vperm t long vd va vb mask et => some (t, long, true && vOk long vd && vOk long va && vOk long vb, fun s =>
      let th := s.thr t; let e := ETypeOf et; let n := s.vlen t long / e.width; let m := th.rM mask.toNat; let d := s.rVec t long vd; let a := s.rVec t long va; let b := s.rVec t long vb
      th.vecV long vd (vecPerm e.width m n d a b, {}))
  | .vext t long vd va vb _ et => some (t, long, vtypeOk .intFp et && vOk long va, fun s =>
      let th := s.thr t; let w := (ETypeOf et).width; let k := (th.rE vb).toNat
      th.wE vd (BitVec.ofNat 64 (if k < s.vlen t long / w then lane (s.rVec t long va) w k else 0)))
  | _ => none

/-- From s1 one vector instruction has retired: as `Retires`, where a long form also places votes for power of its domain (06 R154, 16 R494). -/
structure RetiresVec (t : Nat) (long : Bool) (s1 : State) (th : Thread) (s' : State) : Prop where
  thread : s'.thr t = th.at s' (th.pc + 4)
  others : ∀ u, u ≠ t → s'.thr u = s1.thr u
  rest : s' = { s1 with threads := s'.threads, cores := s'.cores, ccs := s'.ccs, ev := { s1.ev with irqs := s'.ev.irqs }, pwr := s'.pwr }
  short : long = false → Counts { s1 with threads := s'.threads } s'

/-! ### Loads, stores, atomics, control transfer -/

/-- A loaded value in its destination (03 R79, R81): sign-extended, zero-extended, a pair, or an SV register with the rest zero. -/
def Thread.take (th : Thread) (d : LdDst) (n v : Nat) : Thread :=
  match d with
  | .eS r => th.wE r (BitVec.ofInt 64 (if v < 2 ^ (8 * n - 1) then (v : Int) else (v : Int) - 2 ^ (8 * n)))
  | .eU r => th.wE r (BitVec.ofNat 64 v)
  | .pair r => (th.wE r (BitVec.ofNat 64 v)).wE (r + 1) (BitVec.ofNat 64 (v / 2 ^ 64))
  | .sv r => th.wSV r (BitVec.ofNat 256 v)

/-- The value a store takes from its data register (03 R79–R81), of which the low bytes are stored. -/
def Thread.give (th : Thread) (d : LdDst) : Nat :=
  match d with
  | .eS r | .eU r => (th.rE r).toNat
  | .pair r => (th.rE r).toNat + 2 ^ 64 * (th.rE (r + 1)).toNat
  | .sv r => (th.rSV r).toNat

/-- Loads (03 R79–R81): thread, whether the encoding is allocated, bytes, destination, and address from the registers before. -/
def loadForm : Instr → Option (Nat × Bool × Nat × LdDst × (Thread → Word))
  | .lb t rd ra imm => some (t, true, 1, .eS rd, fun th => th.rE ra + imm.signExtend 64)
  | .lbu t rd ra imm => some (t, true, 1, .eU rd, fun th => th.rE ra + imm.signExtend 64)
  | .lh t rd ra imm => some (t, true, 2, .eS rd, fun th => th.rE ra + imm.signExtend 64)
  | .lhu t rd ra imm => some (t, true, 2, .eU rd, fun th => th.rE ra + imm.signExtend 64)
  | .lw t rd ra imm => some (t, true, 4, .eS rd, fun th => th.rE ra + imm.signExtend 64)
  | .lwu t rd ra imm => some (t, true, 4, .eU rd, fun th => th.rE ra + imm.signExtend 64)
  | .ld t rd ra imm => some (t, true, 8, .eU rd, fun th => th.rE ra + imm.signExtend 64)
  | .lq t rd ra imm => some (t, pairOk rd, 16, .pair rd, fun th => th.rE ra + imm.signExtend 64)
  | .memx t rd ra rb kind scale _ =>
    let ea (th : Thread) : Word := th.rE ra + (th.rE rb <<< scale.toNat)
    match kind.toNat with
    | 0 => some (t, true, 1, .eS rd, ea)
    | 1 => some (t, true, 1, .eU rd, ea)
    | 2 => some (t, true, 2, .eS rd, ea)
    | 3 => some (t, true, 2, .eU rd, ea)
    | 4 => some (t, true, 4, .eS rd, ea)
    | 5 => some (t, true, 4, .eU rd, ea)
    | 6 => some (t, true, 8, .eU rd, ea)
    | 7 => some (t, pairOk rd, 16, .pair rd, ea)
    | _ => none
  | .flh t sd ra off => some (t, true, 2, .sv sd, fun th => th.rE ra + 2#64 * off.signExtend 64)
  | .flw t sd ra off => some (t, true, 4, .sv sd, fun th => th.rE ra + 4#64 * off.signExtend 64)
  | .fld t sd ra off => some (t, true, 8, .sv sd, fun th => th.rE ra + 8#64 * off.signExtend 64)
  | .svl t sd ra off => some (t, true, 32, .sv sd, fun th => th.rE ra + 32#64 * off.signExtend 64)
  | _ => none

/-- Stores (03 R79–R81): thread, whether the encoding is allocated, bytes, data register, whether it is a release store, and address. -/
def storeForm : Instr → Option (Nat × Bool × Nat × LdDst × Bool × (Thread → Word))
  | .sb t rd ra imm => some (t, true, 1, .eU rd, false, fun th => th.rE ra + imm.signExtend 64)
  | .sh t rd ra imm => some (t, true, 2, .eU rd, false, fun th => th.rE ra + imm.signExtend 64)
  | .sw t rd ra imm => some (t, true, 4, .eU rd, false, fun th => th.rE ra + imm.signExtend 64)
  | .sd t rd ra imm => some (t, true, 8, .eU rd, false, fun th => th.rE ra + imm.signExtend 64)
  | .sq t rd ra imm => some (t, pairOk rd, 16, .pair rd, false, fun th => th.rE ra + imm.signExtend 64)
  | .memx t rd ra rb kind scale ord =>
    let ea (th : Thread) : Word := th.rE ra + (th.rE rb <<< scale.toNat)
    match kind.toNat with
    | 8 => some (t, true, 1, .eU rd, ord, ea)
    | 9 => some (t, true, 2, .eU rd, ord, ea)
    | 10 => some (t, true, 4, .eU rd, ord, ea)
    | 11 => some (t, true, 8, .eU rd, ord, ea)
    | 12 => some (t, pairOk rd, 16, .pair rd, ord, ea)
    | _ => none
  | .fsh t sd ra off => some (t, true, 2, .sv sd, false, fun th => th.rE ra + 2#64 * off.signExtend 64)
  | .fsw t sd ra off => some (t, true, 4, .sv sd, false, fun th => th.rE ra + 4#64 * off.signExtend 64)
  | .fsd t sd ra off => some (t, true, 8, .sv sd, false, fun th => th.rE ra + 8#64 * off.signExtend 64)
  | .svs t sd ra off => some (t, true, 32, .sv sd, false, fun th => th.rE ra + 32#64 * off.signExtend 64)
  | _ => none

/-- Atomics (03 R82): thread, destination, address register, operand register, HINT, SIZE, ATOP, and whether the encoding is allocated. -/
def atomForm : Instr → Option (Nat × Reg × Reg × Reg × BitVec 2 × BitVec 2 × Nat × Bool)
  | .atomAdd t rd ra rb _ hint size => some (t, rd, ra, rb, hint, size, 0, atomOk false size hint rd rb)
  | .atomAnd t rd ra rb _ hint size => some (t, rd, ra, rb, hint, size, 1, atomOk false size hint rd rb)
  | .atomOr t rd ra rb _ hint size => some (t, rd, ra, rb, hint, size, 2, atomOk false size hint rd rb)
  | .atomXor t rd ra rb _ hint size => some (t, rd, ra, rb, hint, size, 3, atomOk false size hint rd rb)
  | .atomSmin t rd ra rb _ hint size => some (t, rd, ra, rb, hint, size, 4, atomOk false size hint rd rb)
  | .atomSmax t rd ra rb _ hint size => some (t, rd, ra, rb, hint, size, 5, atomOk false size hint rd rb)
  | .atomUmin t rd ra rb _ hint size => some (t, rd, ra, rb, hint, size, 6, atomOk false size hint rd rb)
  | .atomUmax t rd ra rb _ hint size => some (t, rd, ra, rb, hint, size, 7, atomOk false size hint rd rb)
  | .atomSwap t rd ra rb _ hint size => some (t, rd, ra, rb, hint, size, 8, atomOk true size hint rd rb)
  | .atomCas t rd ra rb _ hint size => some (t, rd, ra, rb, hint, size, 9, atomOk true size hint rd rb)
  | .atomFadd t rd ra rb _ hint size => some (t, rd, ra, rb, hint, size, 10, atomOk false size hint rd rb)
  | _ => none

/-- Bytes of an atomic by SIZE (03 R82). -/
def atomWidth (size : BitVec 2) : Nat := match size.toNat with | 0 => 4 | 1 => 8 | _ => 16
/-- The access of an atomic. -/
def atomAcc (t : Nat) (rd : Reg) (va : Word) (size : BitVec 2) : Acc := ⟨t, va, atomWidth size, .atomic, rd.toNat, false, false⟩
/-- A register, or a pair for 16 bytes, as the operand of an atomic. -/
def Thread.atomVal (th : Thread) (r : Reg) (size : BitVec 2) : Nat :=
  if size = 2 then (th.rE r).toNat + 2 ^ 64 * (th.rE (r + 1)).toNat else (th.rE r).toNat

/-- The old memory value of an atomic in its destination: zero-extended, or a pair (03 R82, R83). -/
def Thread.atomTake (th : Thread) (rd : Reg) (size : BitVec 2) (v : Nat) : Thread :=
  if size = 2 then (th.wE rd (BitVec.ofNat 64 v)).wE (rd + 1) (BitVec.ofNat 64 (v / 2 ^ 64)) else th.wE rd (BitVec.ofNat 64 v)

/-- Conditional branches (03 R84): thread, operands, offset, and the comparison. -/
def branchForm : Instr → Option (Nat × Reg × Reg × BitVec 16 × (Word → Word → Bool))
  | .beq t ra rb off => some (t, ra, rb, off, fun a b => decide (a = b))
  | .bne t ra rb off => some (t, ra, rb, off, fun a b => decide (a ≠ b))
  | .blt t ra rb off => some (t, ra, rb, off, fun a b => decide (a.toInt < b.toInt))
  | .bge t ra rb off => some (t, ra, rb, off, fun a b => decide (b.toInt ≤ a.toInt))
  | .bltu t ra rb off => some (t, ra, rb, off, fun a b => decide (a.toNat < b.toNat))
  | .bgeu t ra rb off => some (t, ra, rb, off, fun a b => decide (b.toNat ≤ a.toNat))
  | _ => none

/-- Jumps (03 R84): thread, the register that receives PC + 4, whether a staged block is resolved (04 R106), and the target. -/
def jumpForm : Instr → Option (Nat × Option Reg × Bool × (Thread → Word))
  | .jmp t off => some (t, none, false, fun th => th.pc + BitVec.ofInt 64 (4 * off.toInt))
  | .jal t off => some (t, some 1, false, fun th => th.pc + BitVec.ofInt 64 (4 * off.toInt))
  | .jalr t rd ra imm => some (t, some rd, true, fun th => BitVec.ofNat 64 ((th.rE ra + imm.signExtend 64).toNat / 4 * 4))
  | _ => none

/-- The state from which a branch or LOOP goes on when it uses the staged block b: its lines are fetched into L1I where they can be had (04 R106). Without one it is the state after the fetch. -/
def State.resumes (s1 : State) (t : Nat) (w : Option (BitVec 32)) (b : Option Staged) : State :=
  match b with
  | some b => (((s1.begun t true w).countThr t 0x004 .none none 1).useStaged t b)
  | none => s1
/-- The thread once its staged block is used or discarded: a poisoned block that is used leaves its mark in the fetch queue (04 R106). -/
def Thread.resumed (th : Thread) (b : Option Staged) : Thread := { th with staged := none, fqPoison := (b.filter (·.poison)).map (·.block) }

/-- Thread t is left as th, no other thread has changed, and of the rest of s1 only counters and what its core has learnt (04 R104) may differ: memory, caches, every register of Chip Control Space outside the stop pages and every table are as before. -/
structure Leaves (t : Nat) (s1 : State) (th : Thread) (s' : State) : Prop where
  thread : s'.thr t = th
  others : ∀ u, u ≠ t → s'.thr u = s1.thr u
  rest : s' = { s1 with threads := s'.threads, cores := s'.cores, ccs := s'.ccs, ev := { s1.ev with irqs := s'.ev.irqs } }
  regs : ∀ o, o < 0x10000000 → s'.reg o = s1.reg o
  cores : ∀ p, s'.core p = { s1.core p with pmc := (s'.core p).pmc, pmcRet := (s'.core p).pmcRet, sample := (s'.core p).sample, btb := (s'.core p).btb }

/-! ### Exceptions -/

/-- The thread after an exception taken to a level (02 R53, R54): the saved registers, the level, IE and STEP 0, SEC 1 at level 3, the vector; every register and everything else as after the SYNCS that entry performs (02 R51). -/
structure Entered (before : Thread) (lvl : Nat) (code : Nat) (xpc : Word) (offset : Nat) (after : Thread) : Prop where
  xpc : after.committed (excRegs lvl + 1) = xpc
  xstat : after.committed (excRegs lvl + 2) = before.tstat
  xsyn : fld (after.committed (excRegs lvl + 3)) 0 8 = code
  level : after.pl = lvl
  masked : after.ie = false
  step : after.step = false
  world : after.secure = (decide (lvl = 3) || before.secure)
  carry : after.carry = before.carry
  divtrap : after.divtrap = before.divtrap
  pc : after.pc = (before.committed (excRegs lvl) &&& ~~~(0xFFF#64)) + BitVec.ofNat 64 offset
  regs : after.e = before.e ∧ after.sv = before.sv ∧ after.lv = before.lv ∧ after.m = before.m
  flags : after.fpctl = before.fpctl ∧ after.fpflags = before.fpflags ∧ after.vprog = before.vprog
  stores : after.stores = before.stores

/-- Thread t has taken an exception raised in s1: no other thread has changed, and nothing else but counters, core-scope state the entry synchronises (02 R51, R52), registers of the stop pages and the model's own counter of free choices. -/
structure Trapped (t : Nat) (s1 : State) (lvl code : Nat) (xpc : Word) (s' : State) : Prop where
  entered : Entered (s1.thr t) lvl code xpc (if (s1.thr t).pl = lvl then 0x000 else 0x400) (s'.thr t)
  others : ∀ u, u ≠ t → s'.thr u = s1.thr u
  rest : s' = { s1 with freeCtr := s'.freeCtr, threads := s'.threads, cores := s'.cores, ccs := s'.ccs, ev := { s1.ev with irqs := s'.ev.irqs } }
  regs : ∀ o, o < 0x10000000 → s'.reg o = s1.reg o

/-- Traps (03 R88; 02 R56, R59): thread, whether the level permits it, code, IMM16 of XSYN.INFO, whether XPC is the next address, and the level it goes to. -/
def trapForm : Instr → Option (Nat × (State → Bool) × Nat × Nat × Bool × (Thread → Nat))
  | .syscall t imm => some (t, fun _ => true, 0x08, imm.toNat, true, fun th => max th.pl 1)
  | .hypcall t imm => some (t, fun s => decide ((s.thr t).pl ≠ 0) && !(s.thr t).secure && s.vmen t, 0x09, imm.toNat, true, fun _ => 2)
  | .moncall t imm => some (t, fun s => decide ((s.thr t).pl ≠ 0), 0x0A, imm.toNat, true, fun _ => 3)
  | .ibreak t imm => some (t, fun _ => true, 0x0C, imm.toNat, false, fun th => max th.pl 1)
  | _ => none

/-- Instructions with a lowest level (03 R87, R88): thread and whether the state permits it. -/
def privForm : Instr → Option (Nat × (State → Bool))
  | .xret t => some (t, fun s => decide (1 ≤ (s.thr t).pl))
  | .wait t => some (t, fun s => decide (1 ≤ (s.thr t).pl))
  | .isend t _ _ => some (t, fun s => decide (1 ≤ (s.thr t).pl))
  | .hypcall t _ => some (t, fun s => decide (1 ≤ (s.thr t).pl) && !(s.thr t).secure && s.vmen t)
  | .moncall t _ => some (t, fun s => decide (1 ≤ (s.thr t).pl))
  | .cmoI t _ => some (t, fun s => decide (1 ≤ (s.thr t).pl))
  | .cmoRangeI t ra rb _ => if ra = rb then none else some (t, fun s => decide (1 ≤ (s.thr t).pl))
  | .cmoSwC t _ => some (t, fun s => decide ((if (s.thr t).secure then 1 else if s.vmen t then 2 else 1) ≤ (s.thr t).pl))
  | .cmoSwI t _ => some (t, fun s => decide ((if (s.thr t).secure then 1 else if s.vmen t then 2 else 1) ≤ (s.thr t).pl))
  | .cmoSwCi t _ => some (t, fun s => decide ((if (s.thr t).secure then 1 else if s.vmen t then 2 else 1) ≤ (s.thr t).pl))
  | .tlbiVa t _ _ => some (t, fun s => decide (1 ≤ (s.thr t).pl))
  | .tlbiAsid t _ => some (t, fun s => decide (1 ≤ (s.thr t).pl))
  | .tlbiVmid t _ => some (t, fun s => decide (2 ≤ (s.thr t).pl))
  | .tlbiAll t => some (t, fun s => decide (2 ≤ (s.thr t).pl))
  | _ => none

/-- TLB invalidations (03 R90; 10 R294, R295): thread, lowest level, and what is named. -/
def tlbiOf : Instr → Option (Nat × Nat × (State → TlbiForm))
  | .tlbiVa t ra rb => some (t, 1, fun s => .va ((s.thr t).rE ra) (((s.thr t).rE rb).toNat % 2 ^ 16) (if (s.thr t).secure || !s.vmen t then 0 else s.vmid t) (decide ((s.thr t).pl = 2)))
  | .tlbiAsid t rb => some (t, 1, fun s => .asid (((s.thr t).rE rb).toNat % 2 ^ 16) (if (s.thr t).secure || !s.vmen t then 0 else s.vmid t))
  | .tlbiVmid t rb => some (t, 2, fun s => .vmid (((s.thr t).rE rb).toNat % 2 ^ 16))
  | .tlbiAll t => some (t, 2, fun _ => .all)
  | _ => none

/-- Cache maintenance by address (03 R89): thread, address register, operation. -/
def cmoOf : Instr → Option (Nat × Reg × CmoKind)
  | .cmoC t ra => some (t, ra, .c)
  | .cmoI t ra => some (t, ra, .i)
  | .cmoCi t ra => some (t, ra, .ci)
  | _ => none
/-- Cache maintenance by range: thread, registers, operation, and the step before whose end an event is recognised, if one is (07 R186). -/
def cmoRangeOf : Instr → Option (Nat × Reg × Reg × CmoKind × Option Nat)
  | .cmoRangeC t ra rb u => some (t, ra, rb, .c, u)
  | .cmoRangeI t ra rb u => some (t, ra, rb, .i, u)
  | .cmoRangeCi t ra rb u => some (t, ra, rb, .ci, u)
  | _ => none
/-- Cache maintenance by set and way. -/
def cmoSwOf : Instr → Option (Nat × Reg × CmoKind)
  | .cmoSwC t ra => some (t, ra, .c)
  | .cmoSwI t ra => some (t, ra, .i)
  | .cmoSwCi t ra => some (t, ra, .ci)
  | _ => none

/-- Fences (03 R65): thread, and whether older stores are on the first side. -/
def fenceOf : Instr → Option (Nat × Bool)
  | .fenceLl t => some (t, false)
  | .fenceLs t => some (t, false)
  | .fenceSl t => some (t, true)
  | .fenceSs t => some (t, true)
  | .fenceFull t => some (t, true)
  | .fenceIo t => some (t, true)
  | _ => none

/-! ### Vector memory -/

/-- How a vector memory instruction performs its elements (06 R156–R162): a VLS, storing or not, a gather with its HINT, or a scatter. -/
inductive VmKind where
  | vls (st : Bool)
  | gather (hint : BitVec 2)
  | scatter

/-- Its elements performed in index order from VPROG: a gather far by HINT, or by AUTO when it touches more than eight lines (06 R160), else near. -/
def VmKind.run (k : VmKind) (v : VMem) (s : State) : VRun :=
  match k with
  | .vls st => if st then v.store true s else v.loadNear s
  | .scatter => v.store false s
  | .gather h => if h = 2 ∨ (h = 0 ∧ 8 < (v.lines (fld (s.thr v.t).vprog 0 8)).length) then v.loadFar s else v.loadNear s

/-- Vector memory instructions (03 R95, R96): thread, LONG, whether the encoding is allocated, how it performs its elements, and its elements from the state its effect starts in, with the boundary at which it may stop (06 R157, R166). -/
def vmemForm : Instr → Option (Nat × Bool × Bool × VmKind × (State → VMem))
  | .vlsLoad t long vd ra rb mask esize upto => some (t, long, vOk long vd, .vls false, vlsMem t long vd ra rb mask esize upto)
  | .vlsStore t long vd ra rb mask esize upto => some (t, long, vOk long vd, .vls true, vlsMem t long vd ra rb mask esize upto)
  | .vgather t long vd ra vidx mask scale hint esize idx64 upto => some (t, long, gatherOk long vd vidx hint, .gather hint, vgMem t long vd ra vidx mask scale esize idx64 upto)
  | .vscatter t long vd ra vidx mask scale _ esize idx64 upto => some (t, long, vOk long vd && vOk long vidx, .scatter, vgMem t long vd ra vidx mask scale esize idx64 upto)
  | _ => none

/-! ### Plain accesses -/

/-- The n bytes at address va, which thread t's level uses as it is (10 R285, R286), lie in one line of memory that its world may reach, and no watchpoint matches them (15 R476). -/
structure Plain (t : Nat) (va : Word) (n : Nat) (s : State) : Prop where
  flat : ∀ r, s.regime t = some r → r.en = false ∧ r.s2root = none
  low : va.toNat < 2 ^ 52
  mem : s.paKind va.toNat = .mem ∨ s.paKind va.toNat = .cxl
  inLine : va.toNat % 64 + n ≤ 64
  world : (s.thr t).secure = true ∨ s.lineSec (va.toNat / 64) = false
  unwatched : ∀ rd wr, s.watchAt t va n rd wr = none

/-- L1D of a stop holds the line in way w, live, without poison, and the access that brought it has been performed. -/
structure HeldIn (stop line : Nat) (q : PLine) (w : Nat) (s : State) : Prop where
  here : s.coh.pl stop line = some q
  l1d : q.l1d = some w
  live : q.victim = false
  done : q.fresh = none
  good : q.poison = false

/-- The elements of a vector memory instruction performed from VPROG, in order. -/
def VMem.active (v : VMem) (s : State) : List Nat := (List.range v.n).filter (fun i => decide (fld (s.thr v.t).vprog 0 8 ≤ i) && v.act i)

/-! ### Commands that write or read one register -/

/-- An agent's access to the register at an offset of Chip Control Space (00 R11). -/
def agentAccess (a : Agent) (off : Nat) (half : Bool) (data : Word) : CcsReq := ⟨off, half, data, a.sec, a.kind, a.num, a.vmid⟩

/-- An access of an agent gets to the register at an offset: its page is not Secure or the agent is (15 R458), its unit is present and it is assigned (01 R27), and it passes the register's own check (11 R347, 12 R362, 15 R479). -/
structure Gets (s : State) (q : CcsReq) (write : Bool) : Prop where
  world : s.pageSecure q.off = false ∨ q.sec = true
  page : 0x100000 ≤ q.off
  present : s.absentAt q.off = none
  assigned : (findReg q.off).isSome
  own : s.ownCheck q write = none

/-- Commands that are a 64-bit write of one register by an agent: the agent, whether the instance exists, offset, data, and what the register's rule does with the value its fields take from the write and their locks. -/
def regForm : Instr → Option (Agent × Bool × Nat × Nat × (State → Word → Word → State))
  | .iotInvStream a k p => some (a, true, a_IOT_INV, k % 2 ^ 20 + p.toNat * 2 ^ 21 + 2 ^ 63, fun s v _ => if bit (s.reg a_IOT_INV) 63 then s else s.iotInvWrite v)
  | .iotInvAll a k p => some (a, true, a_IOT_INV, k % 2 ^ 20 + 2 ^ 20 + p.toNat * 2 ^ 21 + 2 ^ 63, fun s v _ => if bit (s.reg a_IOT_INV) 63 then s else s.iotInvWrite v)
  | .recordLoad a n r => some (a, decide (n < 832), a_IRT_THR n, 1 + r % 2 ^ 45 * 2 ^ 7, fun s v _ => s.irtThr n v)
  | .recordUnload a n => some (a, decide (n < 832), a_IRT_THR n, 0, fun s v _ => s.irtThr n v)
  | .irtTcmdInvalidateSource a i k => some (a, true, a_IRT_TCMD, 1 + i.toNat * 2 ^ 4 + k % 2 ^ 20 * 2 ^ 5 + 2 ^ 63, fun s v _ => s.irtTcmd v)
  | .irtTcmdInvalidateAll a => some (a, true, a_IRT_TCMD, 2 + 2 ^ 63, fun s v _ => s.irtTcmd v)
  | .irtTcmdPin a i k e => some (a, true, a_IRT_TCMD, 3 + i.toNat * 2 ^ 4 + k % 2 ^ 20 * 2 ^ 5 + e % 2 ^ 16 * 2 ^ 25 + 2 ^ 63, fun s v _ => s.irtTcmd v)
  | .irtTcmdUnpin a i k e => some (a, true, a_IRT_TCMD, 4 + i.toNat * 2 ^ 4 + k % 2 ^ 20 * 2 ^ 5 + e % 2 ^ 16 * 2 ^ 25 + 2 ^ 63, fun s v _ => s.irtTcmd v)
  | .qosTrstReset a m c => some (a, true, a_QOS_TRST, m % 2 ^ 16 + c % 64 * 2 ^ 16 + 1 * 2 ^ 24 + 2 ^ 63, fun s v _ => s.qosTrstWrite v)
  | .qosTrstRelease a m c => some (a, true, a_QOS_TRST, m % 2 ^ 16 + c % 64 * 2 ^ 16 + 2 * 2 ^ 24 + 2 ^ 63, fun s v _ => s.qosTrstWrite v)
  | .lkpBerthCfgWrite a b d => some (a, decide (b < 64), a_LKP_BERTH_CFG b, d.toNat, fun s v _ => s.berthCfgWrite b v)
  | .lkpSecResWrite a d => some (a, true, a_LKP_SEC_RES, d.toNat, fun s v _ => s.secResWrite v)
  | .lkpSyncCtlArm a k => some (a, true, a_LKP_SYNC_CTL, 1 + k % 2 ^ 16 * 2 ^ 16, fun s v _ => s.syncCtlWrite v)
  | .lkpSyncCtlDisarm a k => some (a, true, a_LKP_SYNC_CTL, k % 2 ^ 16 * 2 ^ 16, fun s v _ => s.syncCtlWrite v)
  | .brgChTail a c k => some (a, decide (c < 128), a_BRG_CH_TAIL (c / 8) (c % 8), k % 2 ^ 16, fun s v _ => s.brgTailWrite c v)
  | .brgChEnable a c h => some (a, decide (c < 128), a_BRG_CH_CTL (c / 8) (c % 8), 1 + h.toNat * 2, fun s v _ => s.brgCtl c v)
  | .brgChDisable a c => some (a, decide (c < 128), a_BRG_CH_CTL (c / 8) (c % 8), 0, fun s v _ => s.brgCtl c v)
  | .brgChRestart a c => some (a, decide (c < 128), a_BRG_CH_CTL (c / 8) (c % 8), 1 + 2 ^ 2, fun s v _ => s.brgCtl c v)
  | .brgChAbort a c => some (a, decide (c < 128), a_BRG_CH_CTL (c / 8) (c % 8), 2 ^ 3, fun s v _ => s.brgCtl c v)
  | .shadowArm a c => some (a, decide (c < 128), a_BRG_CH_SHADOW (c / 8) (c % 8), 1, fun s v _ => s.brgShadowArm c v)
  | .rptHdmWrite a p n d => some (a, decide (p < 8) && decide (n < 8), a_RPT_HDM p n, d.toNat, fun s v _ => s.hdmWrite p n v)
  | .whfPwCommit a m => some (a, true, a_WHF_PW_COMMIT, m % 256, fun s v _ => if s.wharfEp then s.pwCommit v else s)
  | .whfVfCtlReset a n => some (a, decide (n < 16), a_WHF_VF_CTL n, 2 ^ 2, fun s v _ => if s.wharfEp then s.vfCtlWrite n v else s)
  | .whfIrqGo a f n => some (a, true, a_WHF_IRQ, f % 32 + n % 256 * 2 ^ 8 + 2 ^ 63, fun s v _ => if s.wharfEp then s.whfIrqWrite v else s)
  | .tolSmrWrite a n d => some (a, decide (n < 64), a_TOL_SMR n, d.toNat, fun s v _ => s.smrWrite n v)
  | .mapLock a => some (a, true, a_TOL_CTL, 1, fun s v l => (s.setReg a_TOL_CTL v).setLocks a_TOL_CTL l)
  | .watchdogStart a k i n => some (a, true, a_TOL_WDOG_CTL, 1 + k % 2 ^ 16 * 2 ^ 16 + i % 256 * 2 ^ 32 + n % 1024 * 2 ^ 42, fun s v _ => s.wdogCtlWrite v)
  | .tolWdogKick a k => some (a, true, a_TOL_WDOG_KICK, k % 2 ^ 16, fun s _ _ => s.wdogKick (BitVec.ofNat 64 (k % 2 ^ 16)) (if a.kind = 0 then some a.num else none))
  | .pvcHypVote a d v => some (a, decide (d < 788), a_PVC_HYP_VOTE d, v.toNat, fun s v _ => s.pvcVoteWrite d 1 v)
  | .pvcSecVote a d v => some (a, decide (d < 788), a_PVC_SEC_VOTE d, v.toNat, fun s v _ => s.pvcVoteWrite d 0 v)
  | .pvcClk a d v => some (a, decide (d < 788), a_PVC_CLK d, v.toNat, fun s v _ => s.pvcClkWrite d v a.sec a.kind a.num a.vmid)
  | .galTail a r k => some (a, decide (r < 4), a_GAL_TAIL r, k % 2 ^ 16, fun s v _ => if r = 2 then s else s.galTailWrite r v)
  | .galStatErrClear a r => some (a, decide (r < 4), a_GAL_STAT r, 2 ^ 48, fun s v l => if r = 2 then s else (s.setReg (a_GAL_STAT r) v).setLocks (a_GAL_STAT r) l)
  | .evqCons a q k => some (a, decide (q < 3), a_EVQ_CONS q, k % 2 ^ 16, fun s v _ => s.evqConsWrite q v)
  | .evqCtlWrite a q d => some (a, decide (q < 3), a_EVQ_CTL q, d.toNat, fun s v _ => s.evqCtlWrite q v)
  | .uncBwCtlWrite a u d => some (a, decide (u < 67), bwCtl u, d.toNat, fun s v _ => s.bwCtlWrite u v)
  | _ => none

/-- Mailbox operations (15 R468): the agent, OP and the arguments. -/
def mbxForm : Instr → Option (Agent × Nat × List Word)
  | .random a => some (a, 1, [])
  | .sha384 a x n y => some (a, 2, [x, n, y])
  | .ecdsaVerify a x y z => some (a, 3, [x, y, z])
  | .mldsaVerify a x n y z => some (a, 4, [x, n, y, z])
  | .seal a x n y => some (a, 5, [x, n, y])
  | .unseal a x n y => some (a, 6, [x, n, y])
  | _ => none

/-! ### Devices and the Interrupt Router -/

/-- The IOTU holds the stream's context c resident (10 R302), with translation of both stages off (10 R299) and no translation of the stream cached, and its tenant is not being reset (11 R339). -/
structure Untranslated (stream : Nat) (c : IotCtx) (s : State) : Prop where
  on : bit (s.reg a_IOT_CTL) 0 = true
  ctx : smGet (fun _ => none) s.iot.ctxs stream = some c
  pin : c.pin = true
  off : bit c.w0 1 = false ∧ bit c.w0 2 = false
  fresh : ∀ e ∈ s.iot.tlb, e.stream ≠ stream
  live : s.vmidBlocked 2 c.vmid = false

/-- The n bytes from a lie in one line of memory that the context's world may reach, outside the MSI window. -/
structure DevPlain (c : IotCtx) (a n : Nat) (s : State) : Prop where
  some_ : 0 < n
  inLine : a % 64 + n ≤ 64
  mem : s.isMem a = true ∧ s.isMem (64 * (a / 64)) = true
  world : c.sec = true ∨ s.lineSec (a / 64) = false
  msi : s.inMsi a = false

/-- The LLC holds the line, no core does, nothing of it is open or queued, and nothing is left to count: an agent's access has nothing to wait for. -/
def State.inLlc (s : State) (line : Nat) : Prop := s.coh.evs = [] ∧ s.coh.de line = none ∧ s.coh.queued line = false ∧ (s.coh.sectorOf line).isSome

/-- A device request without a PASID prefix as it is performed (10 R299, R300): its effect and its completion. -/
def devRun (stream iova : Nat) (op : DevOp) (tr : Bool) (s : State) : State := let x := s.devPasid stream iova op tr false; x.1.complete stream iova x.2

/-- An inbound request without a PASID prefix as a port performs it (14 R424): its payload is counted, its effect, its completion. -/
def inRun (p req addr : Nat) (op : DevOp) (ep tr : Bool) (n : Nat) (s : State) : State :=
  let x := (s.received p n).inbound p req addr op ep tr
  x.1.complete (65536 * p) addr x.2

/-- The end of a channel's oldest manifest m, served by its engine (13 R396, R400, R411): its data are moved unless they have been, its deadline is looked at, its status is written. -/
def State.brgEndRun (s : State) (c : Nat) (m : Man) : State :=
  let x := if m.moved then (s.brgServed c, some m) else (s.brgServed c).brgMove c m none
  match x.2 with
  | none => x.1
  | some m1 => let s2 := (x.1.setMan c 0 m1).brgLate c; (s2.brgFinish c ((s2.brg c).mans.headD m1)).brgDep (c / 8)

/-- A device atomic: bytes, and the value written from the old one (10 R292). -/
def devAtom : DevOp → Option (Nat × (Nat → Nat))
  | .fetchAdd n v => some (n, fun o => (o + v) % 2 ^ (8 * n))
  | .swap n v => some (n, fun _ => v)
  | .cas n c v => some (n, fun o => if o = c % 2 ^ (8 * n) then v else o)
  | _ => none

/-- An interruptible instruction performed from its start to its end: its word does not say where an event stops it (06 R166; 07 R186). -/
def wholeOf : Instr → Instr
  | .vlsLoad t long vd ra rb mask esize _ => .vlsLoad t long vd ra rb mask esize none
  | .vlsStore t long vd ra rb mask esize _ => .vlsStore t long vd ra rb mask esize none
  | .vgather t long vd ra vidx mask scale hint esize idx64 _ => .vgather t long vd ra vidx mask scale hint esize idx64 none
  | .vscatter t long vd ra vidx mask scale hint esize idx64 _ => .vscatter t long vd ra vidx mask scale hint esize idx64 none
  | .cmoRangeC t ra rb _ => .cmoRangeC t ra rb none
  | .cmoRangeI t ra rb _ => .cmoRangeI t ra rb none
  | .cmoRangeCi t ra rb _ => .cmoRangeCi t ra rb none
  | i => i

/-- The thread of an allocated encoding's tables, where the encoding is not allocated. -/
def unallocated (i : Instr) : Option Nat :=
  let no {α : Type} (o : Option (Nat × Bool × α)) : Option Nat := match o with | some (t, false, _) => some t | _ => none
  (no (intEffect i)).or <| (no (maskEffect i)).or <| (no (fpEffect i)).or <| (no (loadForm i)).or <| (no (storeForm i)).or <|
  match vecEffect i, vmemForm i, atomForm i, i with
  | some (t, _, false, _), _, _, _ => some t
  | _, some (t, _, false, _), _, _ => some t
  | _, _, some (t, _, _, _, _, _, _, false), _ => some t
  | _, _, _, .loop t ra off => if ra = 0 ∨ off = 0 then some t else none
  | _, _, _, .memx t _ _ _ kind _ _ => if 13 ≤ kind.toNat then some t else none
  | _, _, _, .cmoRangeC t ra rb _ => if ra = rb then some t else none
  | _, _, _, .cmoRangeI t ra rb _ => if ra = rb then some t else none
  | _, _, _, .cmoRangeCi t ra rb _ => if ra = rb then some t else none
  | _, _, _, _ => none

end Sys2Proof.Machine
end

