-- ==== Sys2Proof/Certificates/Slice0/Obligations.lean ====
section
/-! DEFINITION. The statements for the provers: what the commands do, what they leave alone, and what every step keeps. -/
open Sys2Proof Sys2Proof.Machine

/-- For every command c and state s, with c at the front of its queue, step is exec of c on s with the queue's rest. -/
def Obligations.StepRunsFront : Prop :=
  ∀ (c : Instr) (r : List Instr) (s : State), s.pending = c :: r → step s = exec c { s with pending := r }

/-- On an empty queue a step is the passing of one ns: it answers a next state with an empty queue, and one more ns has passed. That an empty queue lets one ns pass is the model's choice (notes/assumptions/1.md). -/
def Obligations.StepIdles : Prop :=
  ∀ s : State, s.pending = [] → ∃ s', step s = .next s' ∧ s'.pending = [] ∧ s'.time.ticks = s.time.ticks + 1 ∧ s' = s.idle

/-- At State.reset the threads hold the reset values of R41 to R47 that the spec gives: PC at the boot ROM alias, TSTAT 0x70 (Monitor level, Secure world), level 3 and no interrupt enabled; FPCTL, FPFLAGS and VPROG 0; VCFG 0x20; VECBASE_M at the boot ROM alias + 0x1000; MCTL 1; the core map has 208 active positions; the queue is empty. Registers to which the spec gives no reset value (the E, SV, LV and M registers read 0) are the model's choice (notes/assumptions/2.md). -/
def Obligations.ResetValues : Prop :=
  State.reset.pending = [] ∧ State.reset.coh.mem = [] ∧ State.reset.activeCores = 208 ∧
  ((State.reset.coreMap.filter (fun e => e.st == .active)).length = 208 ∧ (State.reset.coreMap.filter (fun e => e.st == .spare)).length = 16) ∧
  ∀ t, t < 832 → let th := State.reset.thr t
    th.pc = 0x000FFFFFFFF00000#64 ∧ th.tstat = 0x70#64 ∧ th.pl = 3 ∧ th.secure = true ∧ th.ie = false ∧ th.fpctl = 0 ∧ th.fpflags = 0 ∧ th.vprog = 0 ∧
      th.vcfg = 0x20#64 ∧ th.committed 0xC00 = 0x000FFFFFFFF01000#64 ∧ th.committed 0xC10 = 1 ∧ (∀ r, th.rE r = 0) ∧ th.stores = []

/-- For every command c and state s, if exec of c on s answers a next state, its queue and its variant are those of s: what waits is changed by nothing but step taking it from the front, and no command makes one part number into another. -/
def Obligations.QueueAndVariantKept : Prop :=
  ∀ (c : Instr) (s s' : State), exec c s = .next s' → s'.pending = s.pending ∧ s'.variant = s.variant

/-- For every state in which memory, Chip Control Space, the threads and the cores are in canonical form, every thread is at a level that exists in its world (level 2 only in the Normal world, level 3 only in the Secure world) with only sync-required state waiting for synchronisation, and the debug port holds an instruction of R471 and drives the lands only under EXTEST, the same holds of the next state of a step. -/
def Obligations.InvariantKept : Prop :=
  ∀ s s' : State, s.Canon → s.Modes → s.jtag.Legal → step s = .next s' → s'.Canon ∧ s'.Modes ∧ s'.jtag.Legal

/-- Memory, Chip Control Space, the threads and the cores are in canonical form at State.reset, every thread is at a level that exists in its world, and the debug port is legal. -/
def Obligations.InvariantAtReset : Prop :=
  State.reset.Canon ∧ State.reset.Modes ∧ State.reset.jtag.Legal

/-- Whatever the fetch at a thread's PC does (walks, fills, messages, counting, violations it reports), no register and nothing else of any thread changes, nor do the tables of other units: the core map, the queue, machine time, the Lock-Keeper, the Interrupt Router, the IOTU and the boot state. -/
def Obligations.FetchKeepsThreads : Prop :=
  ∀ (s s1 : State) (t : Nat) (w : Option (BitVec 32)), s.fetch t = .ok s1 w → (∀ u, s1.thr u = s.thr u) ∧ s1.coreMap = s.coreMap ∧ s1.pending = s.pending ∧ s1.time = s.time ∧
  s1.lkp = s.lkp ∧ s1.rtr = s.rtr ∧ s1.iot = s.iot ∧ s1.boot = s.boot

/-- For every integer instruction of R76 (each of ADD to ZEXT.W), the multiplies of R77 and the immediate forms of R78 whose encoding is allocated, a thread that executes it completes: its registers are those intEffect gives from those before (the destination, a pair for MULWU and MULWS, TSTAT.C for ADDC and SUBB; nothing when the destination is E0, but C), its PC is the next address, and nothing else changes but the counting of events. -/
def Obligations.IntegerResults : Prop :=
  ∀ (i : Instr) (t : Nat) (f : Thread → Thread) (s s1 : State) (w : Option (BitVec 32)), intEffect i = some (t, true, f) → Executes i t s s1 w →
  ∃ s', exec i s = .next s' ∧ Retires t s1 (f ((s1.thr t).decoded false w)) ((s1.thr t).pc + 4) s'

/-- For every mask instruction of R94 that names M registers M0 to M7, a thread that executes it completes with the result maskEffect gives (a write of M0 is ignored), its PC at the next address, and nothing else changed but the counting of events. -/
def Obligations.MaskResults : Prop :=
  ∀ (i : Instr) (t : Nat) (f : Thread → Thread) (s s1 : State) (w : Option (BitVec 32)), maskEffect i = some (t, true, f) → Executes i t s s1 w →
  ∃ s', exec i s = .next s' ∧ Retires t s1 (f ((s1.thr t).decoded false w)) ((s1.thr t).pc + 4) s'

/-- A divide completes with the quotient or remainder of R122 and the edge results of R123, changing nothing else; with TSTAT.DIVTRAP 1 an edge row raises instead: the thread enters level max(current level, 1) with DIV_ZERO or DIV_OVERFLOW, XPC the address of the divide, and its registers unchanged. -/
def Obligations.DivideResults : Prop :=
  ∀ (i : Instr) (t : Nat) (rd : Reg) (tr : Thread → Option Nat) (f : Thread → Word) (s s1 : State) (w : Option (BitVec 32)), divEffect i = some (t, rd, tr, f) → Executes i t s s1 w →
  ((if (s1.thr t).divtrap then tr (s1.thr t) else none) = none →
    ∃ s', exec i s = .next s' ∧ Retires t s1 (((s1.thr t).decoded false w).wE rd (f (s1.thr t))) ((s1.thr t).pc + 4) s') ∧
  (∀ c, (s1.thr t).Legal → (s1.thr t).divtrap = true → tr (s1.thr t) = some c →
    ∃ s', exec i s = .next s' ∧ Trapped t s1 (max (s1.thr t).pl 1) c (s1.thr t).pc s')

/-- Quotients truncate toward zero: outside the edge rows of R123, dividend = quotient × divisor + remainder with |remainder| < |divisor|, and the remainder is zero or has the sign of the dividend; the unsigned forms likewise. DIVW and DIVWU use only the low halves, and their 32-bit quotient is sign-extended. -/
def Obligations.DivisionIdentity : Prop :=
  (∀ a b : Word, b ≠ 0 → ¬(a.toInt = -(2 ^ 63) ∧ b.toInt = -1) →
    a.toInt = (divS a b).toInt * b.toInt + (remS a b).toInt ∧ (remS a b).toInt.natAbs < b.toInt.natAbs ∧ ((remS a b).toInt = 0 ∨ (remS a b).toInt.sign = a.toInt.sign)) ∧
  (∀ a b : Word, b ≠ 0 → a.toNat = (divU a b).toNat * b.toNat + (remU a b).toNat ∧ (remU a b).toNat < b.toNat) ∧
  (∀ a b a' b' : Word, a.setWidth 32 = a'.setWidth 32 → b.setWidth 32 = b'.setWidth 32 → divWS a b = divWS a' b' ∧ divWU a b = divWU a' b') ∧
  (∀ a b : Word, divWS a b = ((divWS a b).setWidth 32).signExtend 64 ∧ divWU a b = ((divWU a b).setWidth 32).signExtend 64) ∧
  (∀ a b : BitVec 32, b ≠ 0 → ¬(a.toInt = -(2 ^ 31) ∧ b.toInt = -1) → ((divWS (a.setWidth 64) (b.setWidth 64)).setWidth 32 : BitVec 32).toInt = a.toInt.tdiv b.toInt) ∧
  (∀ a b : BitVec 32, b ≠ 0 → ((divWU (a.setWidth 64) (b.setWidth 64)).setWidth 32 : BitVec 32).toNat = a.toNat / b.toNat)

/-- For every scalar floating-point instruction of R91 whose FMT is allocated, a thread that executes it completes: the result is in the low lane of its SV register with zero above it, or in its E register; the flags it raised are merged into FPFLAGS; its PC is the next address; nothing else changes but the counting of events. -/
def Obligations.FpResults : Prop :=
  ∀ (i : Instr) (t : Nat) (f : Thread → Thread) (s s1 : State) (w : Option (BitVec 32)), fpEffect i = some (t, true, f) → Executes i t s s1 w →
  ∃ s', exec i s = .next s' ∧ Retires t s1 (f ((s1.thr t).decoded false w)) ((s1.thr t).pc + 4) s'

/-- For every vector instruction of R92 (VADD, VSUB, VMUL, VMULH, VMIN, VMAX, VMINU, VMAXU, VAND, VOR, VXOR, VSLL, VSRL, VSRA, VDIV, VFMA, VFMS, VCMPEQ, VCMPLT, VCMPLE, VCMPLTU, VSAD, VSADA, VSEL, VPERM, VEXT, VREDSUM, VREDMIN, VREDMAX, VSQRT, VBCAST and VCVT) whose encoding is allocated, in its short and its long form (a long form on a core whose long-vector unit is present and on), a thread that executes it completes with a next state: its registers and flags are those vecEffect gives from the state its effect starts in, its PC is the next address, no other thread and nothing of memory changes; a short form changes nothing else but the counting of events, a long form besides only votes for power. -/
def Obligations.VectorResults : Prop :=
  (∀ (i : Instr) (t : Nat) (long : Bool) (f : State → Thread) (s s1 : State) (w : Option (BitVec 32)), vecEffect i = some (t, long, true, f) → Executes i t s s1 w →
    (long = true → s1.lvAbsent (s1.stopOf t) = false ∧ s1.lvReady (s1.stopOf t) = true) → ∃ s', exec i s = .next s' ∧ RetiresVec t long s1 (f (s1.begun t false w long)) s') ∧
  (∀ (t : Nat) (long : Bool) (vd va vb : Reg) (mask et dst : BitVec 3) (i : Instr),
    i ∈ [.vadd t long vd va vb mask et, .vsub t long vd va vb mask et, .vmul t long vd va vb mask et, .vmulh t long vd va vb mask et, .vmin t long vd va vb mask et, .vmax t long vd va vb mask et, .vminu t long vd va vb mask et, .vmaxu t long vd va vb mask et,
      .vand t long vd va vb mask et, .vor t long vd va vb mask et, .vxor t long vd va vb mask et, .vsll t long vd va vb mask et, .vsrl t long vd va vb mask et, .vsra t long vd va vb mask et, .vdiv t long vd va vb mask et, .vfma t long vd va vb mask et,
      .vfms t long vd va vb mask et, .vcmpeq t long vd va vb mask et, .vcmplt t long vd va vb mask et, .vcmple t long vd va vb mask et, .vcmpltu t long vd va vb mask et, .vsad t long vd va vb mask et, .vsada t long vd va vb mask et, .vsel t long vd va vb mask et,
      .vperm t long vd va vb mask et, .vext t long vd va vb mask et, .vredsum t long vd va mask et, .vredmin t long vd va mask et, .vredmax t long vd va mask et, .vsqrt t long vd va mask et, .vbcast t long vd va mask et, .vcvt t long vd va mask et dst] →
    ∃ (ok : Bool) (f : State → Thread), vecEffect i = some (t, long, ok, f) ∧
      ∀ (s s1 : State) (w : Option (BitVec 32)), ok = true → Executes i t s s1 w → (long = true → s1.lvAbsent (s1.stopOf t) = false ∧ s1.lvReady (s1.stopOf t) = true) →
        ∃ s', exec i s = .next s' ∧ s'.thr t = (f (s1.begun t false w long)).at s' ((f (s1.begun t false w long)).pc + 4) ∧ (∀ u, u ≠ t → s'.thr u = s1.thr u) ∧ s'.coh = s1.coh)

/-- For every form of these instructions that its register or format fields make unallocated (a bad pair, an M register above 7, an LV register above 15, a type or format the operation does not take, a reserved atomic size or hint, LOOP with E0 or OFF16 0, a range with RA = RB, MEMX kinds 13 to 15), executing it raises UNDEF_ENC: the thread enters level max(current level, 1) with its registers unchanged and XPC the instruction's address. -/
def Obligations.UnallocatedTraps : Prop :=
  ∀ (i : Instr) (t : Nat) (s s1 : State) (w : Option (BitVec 32)), unallocated i = some t → Meets i t s s1 w → (s1.thr t).Legal →
  ∃ s', exec i s = .next s' ∧ Trapped t s1 (max (s1.thr t).pl 1) 0x01 (s1.thr t).pc s'

/-- A load of R79 to R81 or a MEMX load whose access answers its bytes completes: the destination receives them sign-extended, zero-extended, as a pair or as an SV register with the rest zero; the thread is otherwise as the access leaves it, its PC the next address, no other thread changes after the access, and memory and everything else are as the access leaves them but for the counting of events. -/
def Obligations.LoadResults : Prop :=
  ∀ (i : Instr) (t n : Nat) (d : LdDst) (ea : Thread → Word) (s s1 s3 : State) (w : Option (BitVec 32)) (bs : List Byte), loadForm i = some (t, true, n, d, ea) → Executes i t s s1 w →
  (s1.begun t false w).load ⟨t, ea (s1.thr t), n, .load, d.num, false, decide (8 < n)⟩ = .ok s3 bs → bs.length = n →
  ∃ s', exec i s = .next s' ∧ Retires t s3 ((s3.thr t).take d n (leVal bs)) ((s1.thr t).pc + 4) s'

/-- A load that completes answers as many bytes as it accesses, whether it lies in one line or is split over two. -/
def Obligations.LoadLength : Prop :=
  ∀ (s s' : State) (r : Acc) (bs : List Byte), r.n ≤ 64 → s.load r = .ok s' bs → bs.length = r.n

/-- A store of R79 to R81 or a MEMX store whose access is accepted completes: nothing is written but what the access of the low bytes of its data register leaves, its PC is the next address. -/
def Obligations.StoreResults : Prop :=
  ∀ (i : Instr) (t n : Nat) (d : LdDst) (rel : Bool) (ea : Thread → Word) (s s1 s3 : State) (w : Option (BitVec 32)) (bs : List Byte), storeForm i = some (t, true, n, d, rel, ea) → Executes i t s s1 w →
  (s1.begun t false w).store ⟨t, ea (s1.thr t), n, .store, d.num, false, decide (8 < n)⟩ (leBytes n ((s1.thr t).give d)) rel = .ok s3 bs →
  ∃ s', exec i s = .next s' ∧ Retires t s3 (s3.thr t) ((s1.thr t).pc + 4) s'

/-- A store of the thread that lies in one line of memory, is checked, is no release store to Device memory and, when its memory is typed Device, finds the Device stores before it written, enters the thread's store buffer as its youngest entry: its bytes go to the physical addresses from the one its translation gives and to no other, and until it drains no byte of memory, no cache and no other thread changes. -/
def Obligations.StoreBuffered : Prop :=
  ∀ (s s1 s2 : State) (r : Acc) (p : Piece) (bs : List Byte) (rel : Bool), s.check r = .ok s1 [p] → (p.kind = .mem ∨ p.kind = .cxl) → (rel = true → p.ty ≠ 2) → s1.devOrder r.t (p.ty == 2) = .ok s2 → bs.length = p.n → p.x.pa % 64 + p.n ≤ 64 →
  ∃ s3, s.store r bs rel = .ok s3 [] ∧ s3.coh = s2.coh ∧ (∀ u, u ≠ r.t → s3.thr u = s2.thr u) ∧
    ∃ q, s3.thr r.t = { s2.thr r.t with stores := (s2.thr r.t).stores ++ [⟨[q], s2.clsOf r.t⟩] } ∧ q.line = p.x.pa / 64 ∧ q.sec = p.x.sec ∧ q.unc = decide (p.ty ≠ 0) ∧
      (∀ a, q.covers a = decide (p.x.pa ≤ a ∧ a < p.x.pa + p.n)) ∧ ∀ k, k < p.n → byteAt q.data ((p.x.pa + k) % 64) = bs.getD k 0

/-- Taking an exception puts the PC at the base in bits [63:12] of VECBASE of the level it goes to plus the offset of R54: 0x000 and 0x200 for a synchronous exception and an interrupt from that level, 0x400 and 0x600 from another level, 0x800 for a Machine Check; bits [11:0] of VECBASE are RES0: an MTS writes them as zero. -/
def Obligations.VectorOffsets : Prop :=
  (∀ (s : State) (t lvl : Nat) (k : ExcKind) (e : Exc), (s.thr t).Legal →
    ((s.enterExc t lvl k e).thr t).pc = BitVec.ofNat 64 (((s.thr t).committed (excRegs lvl)).toNat / 4096 * 4096) +
      BitVec.ofNat 64 (match k, decide ((s.thr t).pl = lvl) with | .sync, true => 0x000 | .irq, true => 0x200 | .sync, false => 0x400 | .irq, false => 0x600 | .mcheck, _ => 0x800)) ∧
  (∀ (n pl : Nat) (lv : Bool) (old v : Word), n ∈ [0x400, 0x800, 0xC00] → sysWritten n pl lv old v = BitVec.ofNat 64 (v.toNat / 4096 * 4096)) ∧
  (∀ (t : Nat), t < 832 → ∀ n ∈ [0x400, 0x800, 0xC00], (State.reset.thr t).committed n = BitVec.ofNat 64 (((State.reset.thr t).committed n).toNat / 4096 * 4096))

/-- A reduction with no active lane gives the identity of its operation and raises no flag: 0 or +0 for VREDSUM, the largest signed value or +infinity for VREDMIN, the smallest signed value or -infinity for VREDMAX. Integer VREDSUM is the sum of the active lanes modulo 2^w. -/
def Obligations.ReductionIdentity : Prop :=
  (∀ (op : VRed) (ty : EType) (env : FpEnv) (m : BitVec 256) (n a : Nat), n ≤ 256 → ty ≠ .bf16 → (∀ k, k < n → m.getLsbD k = false) →
    vecRed op ty env m n a = (match op, ty with
      | .sum, _ => 0
      | .min, .i8 => 0x7F | .min, .i16 => 0x7FFF | .min, .i32 => 0x7FFFFFFF | .min, .i64 => 0x7FFFFFFFFFFFFFFF
      | .max, .i8 => 0x80 | .max, .i16 => 0x8000 | .max, .i32 => 0x80000000 | .max, .i64 => 0x8000000000000000
      | .min, .f16 => 0x7C00 | .min, .f32 => 0x7F800000 | .min, .f64 => 0x7FF0000000000000
      | .max, .f16 => 0xFC00 | .max, .f32 => 0xFF800000 | .max, .f64 => 0xFFF0000000000000
      | _, .bf16 => 0, {})) ∧
  (∀ (ty : EType) (env : FpEnv) (m : BitVec 256) (n a : Nat), n ≤ 256 → ty.isInt = true →
    (vecRed .sum ty env m n a).1 = (((List.range n).filter (fun k => m.getLsbD k)).map (fun k => a / 2 ^ (ty.width * k) % 2 ^ ty.width)).sum % 2 ^ ty.width)

/-- An atomic of R82 whose encoding is allocated and whose address is aligned, when its access passes its checks and is performed near or far, completes: Ed, or the pair Ed and Ed+1 of a 16-byte form, receives the old memory value zero-extended (nothing when RD is E0), its PC is the next address, and everything else is as the access leaves it but for the counting of events. -/
def Obligations.AtomicResults : Prop :=
  ∀ (i : Instr) (t : Nat) (rd ra rb : Reg) (hint size : BitVec 2) (op : Nat) (s s1 s3 s4 : State) (w : Option (BitVec 32)) (p : Piece) (ps : List Piece) (bs : List Byte),
    atomForm i = some (t, rd, ra, rb, hint, size, op, true) → Executes i t s s1 w → ((s1.thr t).rE ra).toNat % atomWidth size = 0 →
    (s1.begun t false w).check (atomAcc t rd ((s1.thr t).rE ra) size) = .ok s3 (p :: ps) →
    s3.atomRun (atomAcc t rd ((s1.thr t).rE ra) size) p hint op ((s1.thr t).atomVal rb size) ((s1.thr t).atomVal rd size) = .ok s4 bs →
    ∃ s', exec i s = .next s' ∧ Retires t s4 ((s4.thr t).atomTake rd size (leVal bs)) ((s1.thr t).pc + 4) s'

/-- An atomic whose address is not aligned to its size raises ALIGN before any translation: the thread enters level max(current level, 1) with XADDR the address, nothing is read or written, and no register changes. -/
def Obligations.AtomicAligned : Prop :=
  ∀ (i : Instr) (t : Nat) (rd ra rb : Reg) (hint size : BitVec 2) (op : Nat) (s s1 : State) (w : Option (BitVec 32)),
    atomForm i = some (t, rd, ra, rb, hint, size, op, true) → Executes i t s s1 w → (s1.thr t).Legal → ((s1.thr t).rE ra).toNat % atomWidth size ≠ 0 →
    ∃ s', exec i s = .next s' ∧ Trapped t s1 (max (s1.thr t).pl 1) 0x22 (s1.thr t).pc s' ∧
      (s'.thr t).committed (excRegs (max (s1.thr t).pl 1) + 4) = (s1.thr t).rE ra

/-- A near atomic on a line of memory whose older stores are written, which the core can own with a miss entry free where it needs one (07 R174), which is not poisoned, for which no parked snoop waits, and whose fetch finds no memory error, answers the bytes at the address and leaves the line in M with those bytes replaced by the result of its operation and every other byte of it unchanged. The operation over w bits: sum, AND, OR, exclusive OR, signed and unsigned minimum and maximum, the operand for SWAP, and for CAS the operand where the old value equals the comparand and else the old value. -/
def Obligations.AtomicMemory : Prop :=
  (∀ (s : State) (r : Acc) (p : Piece) (op a k : Nat) (c : Coh) (how : OwnHow) (q : PLine), r.n ∈ [4, 8, 16] → p.x.pa % 64 + r.n ≤ 64 → (p.x.sec = true ∨ s.lineSec p.line = false) →
    (s.thr r.t).stores = [] → s.ownEntry (s.stopOf r.t) p.line → s.coh.acquireOwn s.env (s.stopOf r.t) p.line (s.clsOf r.t) = some (c, how) → s.canDo c → s.quiet c → c.pl (s.stopOf r.t) p.line = some q → q.poison = false → (q.hold = true ∨ q.fresh = none) →
    ∃ s' q', s.atomRun r p 1 op a k = .ok s' (bytesOf q.data p.x.pa r.n) ∧ s'.coh.pl (s.stopOf r.t) p.line = some q' ∧ q'.st = .m ∧
      leVal (bytesOf q'.data p.x.pa r.n) = atomNew op r.n (leVal (bytesOf q.data p.x.pa r.n)) a k % 2 ^ (8 * r.n) ∧
      (∀ b, b < 64 → (b < p.x.pa % 64 ∨ p.x.pa % 64 + r.n ≤ b) → byteAt q'.data b = byteAt q.data b)) ∧
  (∀ n old a k : Nat, n ∈ [4, 8, 16] → old < 2 ^ (8 * n) →
    atomNew 0 n old a k = (old + a) % 2 ^ (8 * n) ∧ atomNew 8 n old a k = a % 2 ^ (8 * n) ∧
    atomNew 9 n old a k = (if old = k % 2 ^ (8 * n) then a % 2 ^ (8 * n) else old) ∧
    atomNew 6 n old a k = min old (a % 2 ^ (8 * n)) ∧ atomNew 7 n old a k = max old (a % 2 ^ (8 * n)) ∧
    BitVec.ofNat (8 * n) (atomNew 1 n old a k) = BitVec.ofNat (8 * n) old &&& BitVec.ofNat (8 * n) a ∧
    BitVec.ofNat (8 * n) (atomNew 2 n old a k) = BitVec.ofNat (8 * n) old ||| BitVec.ofNat (8 * n) a ∧
    BitVec.ofNat (8 * n) (atomNew 3 n old a k) = BitVec.ofNat (8 * n) old ^^^ BitVec.ofNat (8 * n) a ∧
    (BitVec.ofNat (8 * n) (atomNew 4 n old a k)).toInt = min (BitVec.ofNat (8 * n) old).toInt (BitVec.ofNat (8 * n) a).toInt ∧
    (BitVec.ofNat (8 * n) (atomNew 5 n old a k)).toInt = max (BitVec.ofNat (8 * n) old).toInt (BitVec.ofNat (8 * n) a).toInt)

/-- A conditional branch completes: taken exactly when its comparison of Ea and Eb holds, to PC + OFF16 × 4, else to the next address; a staged block that holds that address is used, any other discarded; no register, no other thread and nothing of memory or the tables changes but counters, what the core has learnt of the branch, and what using the block fetches. -/
def Obligations.BranchResults : Prop :=
  ∀ (i : Instr) (t : Nat) (ra rb : Reg) (off : BitVec 16) (cond : Word → Word → Bool) (s s1 : State) (w : Option (BitVec 32)), branchForm i = some (t, ra, rb, off, cond) → Executes i t s s1 w →
  let tgt := if cond ((s1.thr t).rE ra) ((s1.thr t).rE rb) then (s1.thr t).pc + BitVec.ofInt 64 (4 * off.toInt) else (s1.thr t).pc + 4
  let b := (s1.thr t).staged.filter (fun b => b.block == tgt.toNat / 128)
  ∃ s', exec i s = .next s' ∧ Leaves t (s1.resumes t w b) ((((s1.thr t).decoded true w).resumed b).at s' tgt) s'

/-- J, JAL and JALR complete: the PC is the target (PC + OFF26 × 4, or Ea + IMM16 from the registers before with bits [1:0] cleared), JAL writes PC + 4 to E1 and JALR to Ed (nothing when that is E0); JALR uses a staged block that holds its target and discards any other; nothing else changes but counters, what the core has learnt, and what using the block fetches. -/
def Obligations.JumpResults : Prop :=
  ∀ (i : Instr) (t : Nat) (link : Option Reg) (st : Bool) (tgt : Thread → Word) (s s1 : State) (w : Option (BitVec 32)), jumpForm i = some (t, link, st, tgt) → Executes i t s s1 w →
  let b := if st then (s1.thr t).staged.filter (fun b => b.block == (tgt (s1.thr t)).toNat / 128) else none
  ∃ s', exec i s = .next s' ∧
    let th0 := (s1.thr t).decoded true w
    let th1 := match link with | some r => th0.wE r ((s1.thr t).pc + 4) | none => th0
    Leaves t (s1.resumes t w b) ((if st then th1.resumed b else th1).at s' (tgt (s1.thr t))) s'

/-- LOOP on Ec with an OFF16 that is not 0 completes whether or not a trip counter tracks Ec: if Ec is 0 it stays 0 and the thread falls through; else Ec is decremented, and the thread goes OFF16 × 4 back when the new value is not 0 and else falls through; the counter that tracks Ec equals Ec; a staged block is used when it falls through and discarded when it is taken (04 R103; that a LOOP that waited uses it on falling through is the model's reading, notes/assumptions/97.md). Apart from trip counters, loop buffer and the fetch queue nothing else of the thread changes, no other thread, and nothing of memory or the tables but what using the block fetches. -/
def Obligations.LoopResults : Prop :=
  ∀ (t : Nat) (ra : Reg) (off : BitVec 16) (s s1 : State) (w : Option (BitVec 32)), ra ≠ 0 → off ≠ 0 → Executes (.loop t ra off) t s s1 w →
  let n := (s1.thr t).rE ra
  let m := if n = 0 then 0 else n - 1
  let taken := n ≠ 0 ∧ m ≠ 0
  let sw := if ((s1.thr t).decoded false w).tripValid ra then s1.begun t false w else (s1.begun t false w).tripWait t ra
  let b := if taken then none else (sw.thr t).staged
  ∃ s', exec (.loop t ra off) s = .next s' ∧
    Leaves t (match b with | some b => sw.useStaged t b | none => s1) { ((((s1.thr t).decoded false w).resumed b).at s' (if taken then (s1.thr t).pc - BitVec.ofNat 64 (4 * off.toNat) else (s1.thr t).pc + 4)) with
      e := smSet (fun _ => 0) (s1.thr t).e ra.toNat m, lcnt := (s'.thr t).lcnt, loopBuf := (s'.thr t).loopBuf } s' ∧
    (s'.thr t).lcnt.head? = some ⟨ra.toNat, m, false⟩

/-- LOOP_COUNT_WAIT loads the least recently used trip counter of a thread that can run with Ec, and may stage the next sequential block. STAGING_READ stages the block that the branch-target buffer gives for the PC, when it can be read without a miss; one whose read meets an ECC or parity error leaves what was staged. STORE_BUFFER_DRAIN writes the first line of the oldest store when the core can own it now, with a miss entry free where it needs one (for which holding it in L1D in E or M suffices), no memory error is found on the way and no parked snoop waits: its bytes take the stored values, the other bytes of the line stay, the line is in M, and that line leaves the store buffer. -/
def Obligations.FrontEnd : Prop :=
  (∀ (t : Nat) (ra : Reg) (bad : Bool) (s : State), s.canRun t = true → ra ≠ 0 → (s.thr t).tripValid ra = false →
    ∃ s', exec (.loopCountWait t ra bad) s = .next s' ∧ (s'.thr t) = { s.thr t with lcnt := (⟨ra.toNat, (s.thr t).rE ra, true⟩ :: (s.thr t).lcnt).take 2, staged := (s'.thr t).staged } ∧
      ((s'.thr t).staged = (s.thr t).staged ∨ ∃ l po, (s'.thr t).staged = some ⟨(s.thr t).pc.toNat / 128 + 1, l, po⟩) ∧
      (∀ u, u ≠ t → s'.thr u = s.thr u) ∧ Counts { s with threads := s'.threads } s') ∧
  (∀ (t b l : Nat) (po bad : Bool) (s : State), s.canRun t = true → s.btbLookup t (s.thr t).pc = some b → s.stageable t (128 * b) = some (l, po) →
    ∃ s', exec (.stagingRead t bad) s = .next s' ∧ Counts { s with threads := s'.threads } s' ∧ s'.thr t = { s.thr t with staged := if bad then (s.thr t).staged else some ⟨b, l, po⟩ } ∧ ∀ u, u ≠ t → s'.thr u = s.thr u) ∧
  (∀ (t : Nat) (p : StorePart) (e : StoreEnt) (ps : List StorePart) (r : List StoreEnt) (s : State) (c : Coh) (how : OwnHow) (q : PLine),
    (s.thr t).stores = e :: r → e.parts = p :: ps → p.unc = false → s.isMem (64 * p.line) = true → (p.sec = true ∨ s.lineSec p.line = false) →
    ((s.ownEntry (s.stopOf t) p.line ∧ s.coh.acquireOwn s.tick.env (s.stopOf t) p.line e.cls = some (c, how) ∧ s.tick.canDo c ∧ s.quiet c) ∨
      (c = s.coh.useWay (s.stopOf t) 0 p.line (q.l1d.getD 0) ∧ s.coh.evs = [] ∧ q.l1d.isSome ∧ q.victim = false ∧ (q.st = .m ∨ q.st = .e))) →
    c.pl (s.stopOf t) p.line = some q → (q.hold = true ∨ q.fresh = none) →
    ∃ s' q', exec (.storeBufferDrain t) s = .next s' ∧ s'.coh.pl (s.stopOf t) p.line = some q' ∧ q'.st = .m ∧ q'.poison = q.poison ∧
      (∀ k, k < 64 → byteAt q'.data k = if p.mask.getLsbD k then byteAt p.data k else byteAt q.data k) ∧
      s'.thr t = { s.thr t with stores := if ps = [] then r else { e with parts := ps } :: r } ∧ ∀ u, u ≠ t → s'.thr u = s.thr u)

/-- An MFS that passes the checks of R49 completes: Ed receives the value of the system state (nothing when RD is E0), its PC is the next address, nothing else changes but the counting of events. THREAD_ID reads the logical thread number, BTBKEY reads 0, MT_NOW reads the copy of machine time of the thread's stop, which is within 2 ns of machine time and 0 while that is 0 (12 R360, R361), and TSTAT, FPCTL, FPFLAGS and VPROG read what the thread holds. An access that R49 refuses raises SYS_ACCESS with the number in XSYN.INFO, at level 2 for the state a guest kernel may not touch, and changes no register. -/
def Obligations.SystemReads : Prop :=
  (∀ (t : Nat) (rd : Reg) (num : BitVec 12) (s s1 : State) (w : Option (BitVec 32)), Executes (.mfs t rd num) t s s1 w → (s1.begun t false w).sysCheck t num.toNat false = .ok →
    ∃ s', exec (.mfs t rd num) s = .next s' ∧ Retires t s1 { ((s1.thr t).decoded false w).wE rd ((s1.begun t false w).sysRead t num.toNat) with fpRecent := if num = 2 then 0 else (s1.thr t).fpRecent } ((s1.thr t).pc + 4) s') ∧
  (∀ (t : Nat) (s : State), s.sysRead t 0x40 = BitVec.ofNat 64 t ∧ s.sysRead t 0x420 = 0 ∧ s.sysRead t 0x10 = BitVec.ofNat 64 (s.mtAt (s.stopOf t)) ∧
    ((s.thr t).Legal → s.sysRead t 0 = (s.thr t).tstat ∧ s.sysRead t 1 = (s.thr t).fpctl ∧ s.sysRead t 2 = (s.thr t).fpflags ∧ s.sysRead t 4 = (s.thr t).vprog)) ∧
  (∀ (p : Nat) (s : State), s.mtAt p ≤ s.time.mt + 2 ∧ s.time.mt ≤ s.mtAt p + 2 ∧ (s.time.mt = 0 → s.mtAt p = 0)) ∧
  (∀ (t : Nat) (rd : Reg) (num : BitVec 12) (s s1 : State) (w : Option (BitVec 32)), Executes (.mfs t rd num) t s s1 w → (s1.thr t).Legal → (s1.begun t false w).sysCheck t num.toNat false ≠ .ok →
    ∃ s', exec (.mfs t rd num) s = .next s' ∧
      let lvl := if (s1.begun t false w).sysCheck t num.toNat false = .trap2 then 2 else max (s1.thr t).pl 1
      Trapped t s1 lvl 0x04 (s1.thr t).pc s' ∧ fld ((s'.thr t).committed (excRegs lvl + 3)) 32 32 = num.toNat) ∧
  (∀ (t : Nat) (num : BitVec 12) (rs : Reg) (s s1 : State) (w : Option (BitVec 32)), Executes (.mts t num rs) t s s1 w → (s1.thr t).Legal → (s1.begun t true w).sysCheck t num.toNat true ≠ .ok →
    ∃ s', exec (.mts t num rs) s = .next s' ∧
      let lvl := if (s1.begun t true w).sysCheck t num.toNat true = .trap2 then 2 else max (s1.thr t).pl 1
      Trapped t s1 lvl 0x04 (s1.thr t).pc s' ∧ fld ((s'.thr t).committed (excRegs lvl + 3)) 32 32 = num.toNat)

/-- An MTS that passes the checks of R49 completes with its PC at the next address and no other thread changed. One to state that needs no synchronisation changes it at once, reserved bits written as zero; one to sync-required state leaves the committed value and adds the new one to those that wait; one to a counter or to PMU_USER_EN changes the core's; one to FPFLAGS leaves set what instructions that may still be executing raised, by free choice (02 R45). No integer, SV or M register, and nothing of memory or of the tables outside the core and its stop pages changes. -/
def Obligations.SystemWrites : Prop :=
  ∀ (t : Nat) (num : BitVec 12) (rs : Reg) (s s1 : State) (w : Option (BitVec 32)), Executes (.mts t num rs) t s s1 w → (s1.thr t).Legal → (s1.begun t true w).sysCheck t num.toNat true = .ok →
  ∃ s', exec (.mts t num rs) s = .next s' ∧ (let s2 := (s1.begun t true w).sysWrite t num.toNat ((s1.thr t).rE rs); Retires t s2 (s2.thr t) ((s1.thr t).pc + 4) s') ∧ (s'.thr t).pc = (s1.thr t).pc + 4 ∧ (∀ u, u ≠ t → s'.thr u = s1.thr u) ∧
    (s'.thr t).e = (s1.thr t).e ∧ (s'.thr t).sv = (s1.thr t).sv ∧ (s'.thr t).m = (s1.thr t).m ∧ s'.coh = s1.coh ∧ s'.time = s1.time ∧ s'.coreMap = s1.coreMap ∧
    (let v := (s1.thr t).rE rs
     (num = 0x000 → (s'.thr t).tstat = (if (s1.thr t).pl = 0 then setFld (s1.thr t).tstat 0 2 (fld v 0 2) else setFld (s1.thr t).tstat 0 4 (fld v 0 4))) ∧
     (num = 0x001 → (s'.thr t).fpctl = (if fld v 0 3 ≤ 4 then v else setFld v 0 3 (fld (s1.latest t 1) 0 3)) &&& 0x1F#64) ∧
     (num = 0x002 → ∃ x, (s'.thr t).fpflags = (v &&& 0x3F#64) ||| (BitVec.ofNat 64 ((s1.thr t).fpRecent % 64) &&& x)) ∧ (num = 0x004 → (s'.thr t).vprog = v &&& 0xFF#64) ∧
     (∀ l, l ∈ [0x400, 0x800, 0xC00] → (num.toNat = l → (s'.thr t).committed l = v &&& 0xFFFFFFFFFFFFF000#64) ∧ (num.toNat = l + 1 → (s'.thr t).committed (l + 1) = v) ∧
       (num.toNat = l + 4 → (s'.thr t).committed (l + 4) = v) ∧ (num.toNat = l + 5 → (s'.thr t).committed (l + 5) = v)) ∧
     (num = 0x440 → (s'.thr t).committed 0x440 = v &&& 1#64) ∧
     (num = 0x430 → (s'.core (s1.stopOf t)).pmuUserEn = v &&& 0x3FF#64) ∧
     ((num = 0x410 ∨ num = 0x411 ∨ num = 0x420 ∨ num = 0x460 ∨ num = 0x810 ∨ num = 0x811 ∨ num = 0x812 ∨ num = 0xC10) →
       (s'.thr t).committed num.toNat = (s1.thr t).committed num.toNat ∧
       (s'.thr t).pending num.toNat = (s1.thr t).pending num.toNat ++ [v &&& (if num = 0x410 then 0x0000FFFF00000003#64 else if num = 0x411 ∨ num = 0x812 then 0x000FFFFFFFFFF000#64
         else if num = 0x811 then 0x000FFFFFFFFFF001#64 else if num = 0x810 then 0xFFFF0003#64 else if num = 0x460 then 7#64 else if num = 0xC10 then 3#64 else 0xFFFFFFFFFFFFFFFF#64)]) ∧
     (num = 0x003 → Config.hasLv s1.variant = true → (s'.thr t).vcfg = (s1.thr t).vcfg ∧ (s'.thr t).pending 3 = (s1.thr t).pending 3 ++ [((s'.thr t).pending 3).getLastD 0] ∧
       fld (((s'.thr t).pending 3).getLastD 0) 0 6 = (if fld v 0 6 = 0 ∨ 32 < fld v 0 6 then fld (s1.latest t 3) 0 6 else fld v 0 6)))

/-- SYNCS completes: nothing waits for synchronisation afterwards, and every sync-required state of the thread holds the last value written to it; registers and other state of the thread do not change; trip counters are invalid and staged block and loop buffer are discarded; no other thread and nothing of memory changes. Until then an instruction sees the old value or one written since, and no other. -/
def Obligations.SyncResults : Prop :=
  (∀ (t : Nat) (s s1 : State) (w : Option (BitVec 32)), Executes (.syncs t) t s s1 w → (s1.thr t).Legal →
    ∃ s', exec (.syncs t) s = .next s' ∧ (s'.thr t).pend = [] ∧ (∀ num, coreSync num = false → (s'.thr t).committed num = s1.latest t num) ∧
      (∀ num, coreSync num = true → (s'.core (s1.stopOf t)).syncReg num = s1.latest t num) ∧
      (s'.thr t).pc = (s1.thr t).pc + 4 ∧ (s'.thr t).e = (s1.thr t).e ∧ (s'.thr t).sv = (s1.thr t).sv ∧ (s'.thr t).lv = (s1.thr t).lv ∧ (s'.thr t).m = (s1.thr t).m ∧
      (s'.thr t).lcnt = [] ∧ (s'.thr t).staged = none ∧ (s'.thr t).loopBuf = none ∧ (s'.thr t).stores = (s1.thr t).stores ∧
      (∀ u, u ≠ t → s'.thr u = s1.thr u) ∧ s'.coh = s1.coh ∧ ∀ o, o < 0x10000000 → s'.reg o = s1.reg o) ∧
  (∀ (t num : Nat) (s : State), coreSync num = false → s.view t num = (s.thr t).committed num ∨ s.view t num ∈ (s.thr t).pending num)

/-- XRET at level 1, 2 or 3 whose XSTAT names a level no higher than its own that exists in the world named, and that does not change the world unless it is level 3, completes: TSTAT is restored from XSTAT of its level, and the thread goes on at XPC of its level; sync-required state is synchronised; no register, no other thread and nothing of memory changes. Any other XSTAT raises ILLEGAL_RETURN, which changes nothing else. -/
def Obligations.ReturnResults : Prop :=
  (∀ (t : Nat) (s s1 : State) (w : Option (BitVec 32)), Executes (.xret t) t s s1 w → (s1.thr t).Legal → 1 ≤ (s1.thr t).pl →
    let x := (s1.thr t).committed (excRegs (s1.thr t).pl + 2)
    (fld x 4 2 ≤ (s1.thr t).pl ∧ ¬ (fld x 4 2 = 2 ∧ bit x 6 = true) ∧ ¬ (fld x 4 2 = 3 ∧ bit x 6 = false) ∧ (bit x 6 = (s1.thr t).secure ∨ (s1.thr t).pl = 3)) →
    ∃ s', exec (.xret t) s = .next s' ∧ (s'.thr t).tstat = x &&& 0x7F#64 ∧ (s'.thr t).pc = (s1.thr t).committed (excRegs (s1.thr t).pl + 1) ∧ (s'.thr t).pend = [] ∧
      (∀ num, num ≠ 0 → coreSync num = false → (s'.thr t).committed num = s1.latest t num) ∧ (s'.thr t).e = (s1.thr t).e ∧ (s'.thr t).sv = (s1.thr t).sv ∧ (s'.thr t).lv = (s1.thr t).lv ∧
      (s'.thr t).m = (s1.thr t).m ∧ (s'.thr t).stores = (s1.thr t).stores ∧ (∀ u, u ≠ t → s'.thr u = s1.thr u) ∧ s'.coh = s1.coh ∧ ∀ o, o < 0x10000000 → s'.reg o = s1.reg o) ∧
  (∀ (t : Nat) (s s1 : State) (w : Option (BitVec 32)), Executes (.xret t) t s s1 w → (s1.thr t).Legal → 1 ≤ (s1.thr t).pl →
    let x := (s1.thr t).committed (excRegs (s1.thr t).pl + 2)
    ¬ (fld x 4 2 ≤ (s1.thr t).pl ∧ ¬ (fld x 4 2 = 2 ∧ bit x 6 = true) ∧ ¬ (fld x 4 2 = 3 ∧ bit x 6 = false) ∧ (bit x 6 = (s1.thr t).secure ∨ (s1.thr t).pl = 3)) →
    ∃ s', exec (.xret t) s = .next s' ∧ Trapped t s1 (s1.thr t).pl 0x05 (s1.thr t).pc s')

/-- FENCE.LL and FENCE.LS complete and change nothing but the PC. A fence with stores on its first side, and FENCE.FETCH, complete once the store buffer of the thread can be written, and then it is empty; FENCE.FETCH besides discards the staged block and the loop buffer. -/
def Obligations.FenceResults : Prop :=
  (∀ (i : Instr) (t : Nat) (s s1 : State) (w : Option (BitVec 32)), fenceOf i = some (t, false) → Executes i t s s1 w →
    ∃ s', exec i s = .next s' ∧ Retires t s1 ((s1.thr t).decoded false w) ((s1.thr t).pc + 4) s') ∧
  (∀ (i : Instr) (t : Nat) (s s1 s3 : State) (w : Option (BitVec 32)), fenceOf i = some (t, true) → Executes i t s s1 w → (s1.begun t false w).drainAll t = .ok s3 →
    ∃ s', exec i s = .next s' ∧ Retires t s3 (s3.thr t) ((s1.thr t).pc + 4) s') ∧
  (∀ (t : Nat) (s s1 s3 : State) (w : Option (BitVec 32)), Executes (.fenceFetch t) t s s1 w → (s1.begun t true w).drainAll t = .ok s3 →
    ∃ s', exec (.fenceFetch t) s = .next s' ∧ Retires t s3 { s3.thr t with staged := none, loopBuf := none } ((s1.thr t).pc + 4) s') ∧
  (∀ (t : Nat) (s s' : State), s.drainAll t = .ok s' → (s'.thr t).stores = []) ∧
  (∀ (t : Nat) (s : State), (s.thr t).stores = [] → s.drainAll t = .ok s)

/-- WAIT at level 1 or above completes: with an interrupt pending nothing changes but the PC; else the thread is suspended at the next address. A suspended thread of a core in service for which an interrupt is pending leaves WAIT at WAIT_WAKE, and with STEP due takes the STEP exception. -/
def Obligations.WaitResults : Prop :=
  (∀ (t : Nat) (s s1 : State) (w : Option (BitVec 32)), Executes (.wait t) t s s1 w → 1 ≤ (s1.thr t).pl → (s1.begun t true w).irqPending t = true →
    ∃ s', exec (.wait t) s = .next s' ∧ Retires t s1 ((s1.thr t).decoded true w) ((s1.thr t).pc + 4) s') ∧
  (∀ (t : Nat) (s s1 : State) (w : Option (BitVec 32)), Executes (.wait t) t s s1 w → 1 ≤ (s1.thr t).pl → (s1.begun t true w).irqPending t = false →
    ∃ s', exec (.wait t) s = .next s' ∧ s'.thr t = { ((s1.thr t).decoded true w).at s' ((s1.thr t).pc + 4) with waiting := true, waitStep := false } ∧
      (∀ u, u ≠ t → s'.thr u = s1.thr u) ∧ s'.coh = s1.coh ∧ s'.time = s1.time) ∧
  (∀ (t : Nat) (s : State), (s.thr t).waiting = true → s.irqPending t = true → s.running = true → t / 4 < s.activeCores → s.clocked (s.stopOf t) = true →
    s.rf (a_STP_RAS_STAT (s.stopOf t)) f_STP_RAS_STAT_FROZEN = 0 →
    ∃ s', exec (.waitWake t) s = .next s' ∧ (s'.thr t).waiting = false ∧ (∀ u, u ≠ t → s'.thr u = s.thr u) ∧ s'.coh = s.coh ∧
      ((s.thr t).waitStep = false → s'.thr t = { s.thr t with waiting := false, waitStep := false }) ∧
      ((s.thr t).waitStep = true → (s.thr t).Legal → Entered (s.thr t) (max (s.thr t).pl 1) 0x0F (s.thr t).pc (if 1 ≤ (s.thr t).pl then 0 else 0x400) (s'.thr t)))

/-- SEND at level 1 or above completes once the older stores of its thread can be written. From a guest it posts vINTID Eb[9:0] to vCPU Ea[15:0] of HCTL.VMID; at level 2 with Ea[63] 1, to vCPU Ea[15:0] of VMID Ea[47:32]; else it makes INTID Eb[7:0] of logical thread Ea[9:0] pending. A physical SEND to an existing thread, and to the Secure bank only from the Secure world, makes that interrupt pending and no other. -/
def Obligations.SendResults : Prop :=
  (∀ (t : Nat) (ra rb : Reg) (s s1 s3 : State) (w : Option (BitVec 32)), Executes (.isend t ra rb) t s s1 w → 1 ≤ (s1.thr t).pl → (s1.begun t false w).drainAll t = .ok s3 →
    ∃ s', exec (.isend t ra rb) s = .next s' ∧
      let a := (s1.thr t).rE ra
      let b := (s1.thr t).rE rb
      let s4 := if (s1.begun t false w).guest t then s3.sendVirt t ((s1.begun t false w).vmid t) (fld a 0 16) (fld b 0 10)
        else if (s1.thr t).pl = 2 ∧ bit a 63 = true then s3.sendVirt t (fld a 32 16) (fld a 0 16) (fld b 0 10)
        else s3.sendPhys t (s1.thr t).secure (fld a 0 10) (fld b 0 8)
      Retires t s4 (s4.thr t) ((s1.thr t).pc + 4) s') ∧
  (∀ (s : State) (t tgt id : Nat) (sec : Bool), tgt < s.nThreads → id < 256 → (id < 192 ∨ sec = true) →
    ∃ s', s.sendPhys t sec tgt id = s' ∧ (∀ k, k < 256 → (s'.physOf tgt).getLsbD k = ((s.physOf tgt).getLsbD k || k == id)) ∧ (∀ u, u ≠ tgt → s'.physOf u = s.physOf u) ∧ s' = { s with rtr := s'.rtr }) ∧
  (∀ (s : State) (t tgt id : Nat) (sec : Bool), (s.nThreads ≤ tgt ∨ (192 ≤ id ∧ sec = false)) → ∀ u, (s.sendPhys t sec tgt id).physOf u = s.physOf u)

/-- SYSCALL, HYPCALL, MONCALL and BREAK take their exception where the level and world permit them: SYSCALL and BREAK to level max(current level, 1), HYPCALL to level 2, MONCALL to level 3, with the code of R59, IMM16 in XSYN.INFO, XPC the next address (for BREAK its own), and no register changed. -/
def Obligations.TrapResults : Prop :=
  ∀ (i : Instr) (t : Nat) (ok : State → Bool) (code imm : Nat) (next : Bool) (lvl : Thread → Nat) (s s1 : State) (w : Option (BitVec 32)), trapForm i = some (t, ok, code, imm, next, lvl) → Executes i t s s1 w →
  (s1.thr t).Legal → ok s1 = true → ∃ s', exec i s = .next s' ∧ Trapped t s1 (lvl (s1.thr t)) code ((s1.thr t).pc + if next then 4 else 0) s' ∧
    fld ((s'.thr t).committed (excRegs (lvl (s1.thr t)) + 3)) 32 32 = imm

/-- An instruction with a lowest level or a world, executed where R87 to R90 do not permit it, raises PRIV_INSTR at level max(current level, 1) and has no other effect. A long-vector instruction whose encoding is allocated raises UNIT_ABSENT where the unit is absent or has failed, and has no other effect. -/
def Obligations.PrivilegeTraps : Prop :=
  (∀ (i : Instr) (t : Nat) (ok : State → Bool) (s s1 : State) (w : Option (BitVec 32)), privForm i = some (t, ok) → Executes i t s s1 w → (s1.thr t).Legal → ok s1 = false →
    ∃ s', exec i s = .next s' ∧ Trapped t s1 (max (s1.thr t).pl 1) 0x03 (s1.thr t).pc s') ∧
  (∀ (i : Instr) (t : Nat) (f : State → Thread) (s s1 : State) (w : Option (BitVec 32)), vecEffect i = some (t, true, true, f) → Executes i t s s1 w → (s1.thr t).Legal → s1.lvAbsent (s1.stopOf t) = true →
    ∃ s', exec i s = .next s' ∧ Trapped t s1 (max (s1.thr t).pl 1) 0x02 (s1.thr t).pc s' ∧ fld ((s'.thr t).committed (excRegs (max (s1.thr t).pl 1) + 3)) 32 32 = 2) ∧
  (∀ (i : Instr) (t : Nat) (k : VmKind) (v : State → VMem) (s s1 : State) (w : Option (BitVec 32)), vmemForm i = some (t, true, true, k, v) → Executes i t s s1 w → (s1.thr t).Legal →
    s1.lvAbsent (s1.stopOf t) = true → ∃ s', exec i s = .next s' ∧ Trapped t s1 (max (s1.thr t).pl 1) 0x02 (s1.thr t).pc s')

/-- A maintenance instruction by address whose translation passes, whose older stores can be written and whose line can be served completes, the line cleaned or invalidated at its home; so does one of an untranslated address of memory on a line that is free and whose messages can cross. One by range completes with its lines served in steps of 4 KiB; one of length 0 changes nothing but the PC; one within a line is maintenance of that line; one that an event interrupts keeps its progress in Ea and Eb and its PC, and stays decoded (10 R296). One by set and way completes when its slot is free, and changes nothing but the PC when the slot does not exist. A clean or clean-and-invalidate leaves no dirty LLC sector of a line that no core holds, with memory holding its data; an invalidate of a line leaves no copy in the LLC, no directory entry, and no copy at a stop the directory recorded. -/
def Obligations.MaintenanceResults : Prop :=
  (∀ (i : Instr) (t : Nat) (ra : Reg) (k : CmoKind) (s s1 s3 s4 s5 : State) (w : Option (BitVec 32)) (x : Xl), cmoOf i = some (t, ra, k) → Executes i t s s1 w → (k = .i → 1 ≤ (s1.thr t).pl) →
    (s1.begun t true w).cmoXl t k ra.toNat ((s1.thr t).rE ra) = .ok (s3, x) → s3.drainAll t = .ok s4 → s4.cmoLine t k x.sec x.pa = some s5 →
    ∃ s', exec i s = .next s' ∧ Retires t s5 (s5.thr t) ((s1.thr t).pc + 4) s') ∧
  (∀ (i : Instr) (t : Nat) (ra : Reg) (k : CmoKind) (s s1 : State) (w : Option (BitVec 32)), cmoOf i = some (t, ra, k) → Executes i t s s1 w → (s1.thr t).pl = 3 → (s1.thr t).secure = true → (s1.thr t).stores = [] →
    let a := ((s1.thr t).rE ra).toNat
    let s2 := s1.begun t true w
    s1.isMem a = true → s1.coh.blocked (a / 64) = false → s2.canDo (s2.cmoCoh t k (a / 64)) →
    let s5 := ({ s2 with coh := s2.cmoCoh t k (a / 64) }).drainEvs (s2.rqrOf t) .write
    ∃ s', exec i s = .next s' ∧ Retires t s5 (s5.thr t) ((s1.thr t).pc + 4) s') ∧
  (∀ (i : Instr) (t : Nat) (ra rb : Reg) (k : CmoKind) (u : Option Nat) (s s1 s3 : State) (w : Option (BitVec 32)), cmoRangeOf i = some (t, ra, rb, k, u) → Executes i t s s1 w → ra ≠ rb → (k = .i → 1 ≤ (s1.thr t).pl) →
    (s1.begun t true w).drainAll t = .ok s3 → (s1.thr t).rE rb = 0 → ∃ s', exec i s = .next s' ∧ Retires t s3 (s3.thr t) ((s1.thr t).pc + 4) s') ∧
  (∀ (i : Instr) (t : Nat) (ra rb : Reg) (k : CmoKind) (u : Option Nat) (s s1 s3 s4 s5 : State) (w : Option (BitVec 32)) (x : Xl), cmoRangeOf i = some (t, ra, rb, k, u) → Executes i t s s1 w → ra ≠ rb → (k = .i → 1 ≤ (s1.thr t).pl) →
    (s1.begun t true w).drainAll t = .ok s3 → 0 < ((s1.thr t).rE rb).toNat → ((s1.thr t).rE rb).toNat ≤ 4096 - ((s1.thr t).rE ra).toNat % 4096 →
    s3.cmoXl t k ra.toNat ((s1.thr t).rE ra) = .ok (s4, x) → cmoStep t k x.sec (linesIn x.pa ((s1.thr t).rE rb).toNat) s4 = .ok s5 →
    ∃ s', exec i s = .next s' ∧ Retires t s5 (s5.thr t) ((s1.thr t).pc + 4) s') ∧
  (∀ (i : Instr) (t : Nat) (ra rb : Reg) (k : CmoKind) (u : Option Nat) (s s1 : State) (w : Option (BitVec 32)), cmoRangeOf i = some (t, ra, rb, k, u) → Executes i t s s1 w → ra ≠ rb → (s1.thr t).pl = 3 → (s1.thr t).secure = true → (s1.thr t).stores = [] →
    let a := ((s1.thr t).rE ra).toNat
    let n := ((s1.thr t).rE rb).toNat
    let s2 := s1.begun t true w
    0 < n → a % 64 + n ≤ 64 → s1.isMem a = true → s1.coh.blocked (a / 64) = false → s2.canDo (s2.cmoCoh t k (a / 64)) →
    let s5 := ({ s2 with coh := s2.cmoCoh t k (a / 64) }).drainEvs (s2.rqrOf t) .write
    ∃ s', exec i s = .next s' ∧ Retires t s5 (s5.thr t) ((s1.thr t).pc + 4) s') ∧
  (∀ (i : Instr) (t j : Nat) (ra rb : Reg) (k : CmoKind) (s s1 s3 s4 s5 : State) (w : Option (BitVec 32)) (x : Xl), cmoRangeOf i = some (t, ra, rb, k, some j) → Executes i t s s1 w → ra ≠ rb → (k = .i → 1 ≤ (s1.thr t).pl) → j ≤ 1 →
    (s1.begun t true w).drainAll t = .ok s3 → let a := (s1.thr t).rE ra; let n := ((s1.thr t).rE rb).toNat; let m := 4096 - a.toNat % 4096
    m < n → s3.cmoXl t k ra.toNat a = .ok (s4, x) → cmoStep t k x.sec (linesIn x.pa m) s4 = .ok s5 →
    exec i s = .next ((s5.updThr t (fun th => (th.wE ra (a + BitVec.ofNat 64 m)).wE rb (BitVec.ofNat 64 (n - m)))).updThr t (fun th => { th with held := some ((s1.thr t).pc, w) }))) ∧
  (∀ (i : Instr) (t : Nat) (ra : Reg) (k : CmoKind) (s s1 s3 s4 : State) (w : Option (BitVec 32)), cmoSwOf i = some (t, ra, k) → Executes i t s s1 w → s1.swOk t = true → (s1.begun t true w).drainAll t = .ok s3 →
    (let a := (s1.thr t).rE ra
     (fld a 0 2 = 3 → s4 = s3.swLlc t (fld a 20 8) (fld a 8 11) (fld a 4 4) k) ∧ (fld a 0 2 ≠ 3 → s3.swPrivate t (fld a 0 2) (fld a 8 11) (fld a 4 4) k = some s4)) →
    ∃ s', exec i s = .next s' ∧ Retires t s4 (s4.thr t) ((s1.thr t).pc + 4) s') ∧
  (∀ (i : Instr) (t : Nat) (ra : Reg) (k : CmoKind) (s s1 : State) (w : Option (BitVec 32)), cmoSwOf i = some (t, ra, k) → Executes i t s s1 w → s1.swOk t = true → (s1.thr t).stores = [] →
    let a := (s1.thr t).rE ra
    let s2 := s1.begun t true w
    (fld a 0 2 = 3 → ∃ s', exec i s = .next s' ∧ let s4 := s2.swLlc t (fld a 20 8) (fld a 8 11) (fld a 4 4) k; Retires t s4 (s4.thr t) ((s1.thr t).pc + 4) s') ∧
    (fld a 0 2 ≠ 3 → s1.coh.slotLine (s1.stopOf t) (fld a 0 2) (fld a 8 11) (fld a 4 4) = none → ∃ s', exec i s = .next s' ∧ Retires t s1 ((s1.thr t).decoded true w) ((s1.thr t).pc + 4) s')) ∧
  (∀ (c : Coh) (env : CohEnv) (line cls : Nat) (d : Line) (po : Bool), c.de line = none → c.sectorOf line = some (d, true, po) → env.badMem line = false → env.lostMem line = false → env.inj line = false →
    let c' := c.cleanLine env line cls
    c'.sectorOf line = some (d, false, po) ∧ c'.memLine env line = (d, po)) ∧
  (∀ (c : Coh) (env : CohEnv) (line : Nat), let c' := c.invalLine env line
    c'.de line = none ∧ c'.sectorOf line = none ∧ (∀ e, c.de line = some e → ∀ h, h ∈ e.holders → c'.pl h line = none) ∧ c'.mem = c.mem)

/-- A TLBI that its level permits, whose thread has no earlier one waiting, completes once the buffered stores of every thread can be written, no port read translated before it is outstanding, and no device has to be asked (for which it suffices that no store is buffered, no port read is outstanding and no device has been given a translation): from the TLBs of every core the entries it names are removed and every other entry stays, walk-cache entries it names are removed, no register and nothing of memory changes. A translation it names does not hit any more. One that had to wait completes once what it waited for has ended. -/
def Obligations.TlbiResults : Prop :=
  (∀ (i : Instr) (t lvl : Nat) (form : State → TlbiForm) (s s1 s3 : State) (w : Option (BitVec 32)), tlbiOf i = some (t, lvl, form) → Executes i t s s1 w → lvl ≤ (s1.thr t).pl →
  s1.iot.tlbis.find? (fun x => x.thread == t) = none →
  (((s1.begun t true w).drainEvery = .ok s3 ∧ (s3.tlbiAll (form s3) (s1.thr t).secure t).tlbiWaits ⟨t, (s1.begun t true w).readsOut⟩ = false) ∨
    (s3 = s1.begun t true w ∧ (∀ u, (s1.thr u).stores = []) ∧ s1.iot.given = [] ∧ s1.iot.inv = [] ∧ s3.readsOut = [])) →
  ∃ s', exec i s = .next s' ∧ (s'.thr t).pc = (s1.thr t).pc + 4 ∧ (∀ u, (s'.thr u).e = (s3.thr u).e ∧ (s'.thr u).sv = (s3.thr u).sv ∧ (s'.thr u).stores = (s3.thr u).stores) ∧ s'.coh = s3.coh ∧
    ∀ p, (s'.core p).itlb = (s3.core p).itlb.filter (fun e => !(form s3).hits (s1.thr t).secure e) ∧ (s'.core p).dtlb = (s3.core p).dtlb.filter (fun e => !(form s3).hits (s1.thr t).secure e) ∧
      (s'.core p).l2tlb = (s3.core p).l2tlb.filter (fun e => !(form s3).hits (s1.thr t).secure e) ∧ (s'.core p).walkc = (s3.core p).walkc.filter (fun e => !(form s3).hitsWalk (s1.thr t).secure e)) ∧
  (∀ (i : Instr) (t lvl : Nat) (form : State → TlbiForm) (s s1 : State) (w : Option (BitVec 32)) (x : TlbiWait), tlbiOf i = some (t, lvl, form) → Executes i t s s1 w → lvl ≤ (s1.thr t).pl →
    s1.iot.tlbis.find? (fun x => x.thread == t) = some x → (s1.begun t true w).tlbiWaits x = false →
    ∃ s', exec i s = .next s' ∧ Retires t { s1 with iot := { s1.iot with tlbis := s1.iot.tlbis.filter (fun y => y.thread != t) } } ((s1.thr t).decoded true w) ((s1.thr t).pc + 4) s')

/-- A vector load, gather, store or scatter whose encoding is allocated (a long one where the unit is present and on) performs its active elements in index order from VPROG; when all are performed it completes with VPROG 0 and the PC at the next address; when element k raises an exception the thread enters it with XPC the instruction's address and VPROG k, the elements before k performed; one that an event interrupts at the boundary before element k keeps its PC with VPROG k; one that has to wait keeps its PC, VPROG and lanes; both stay decoded (10 R296). -/
def Obligations.VectorMemoryResults : Prop :=
  ∀ (i : Instr) (t : Nat) (long : Bool) (k : VmKind) (form : State → VMem) (s s1 : State) (w : Option (BitVec 32)), vmemForm i = some (t, long, true, k, form) → Executes i t s s1 w →
  (long = true → s1.lvAbsent (s1.stopOf t) = false ∧ s1.lvReady (s1.stopOf t) = true) →
  let s2 := s1.begun t false w long
  let run := k.run (form s2) s2
  (∀ s3, run = .done s3 → ∃ s', exec i s = .next s' ∧ RetiresVec t long s3 { s3.thr t with vprog := 0, midVec := false } s') ∧
  (∀ s3 n, run = .stop s3 n → exec i s = .next ((s3.updThr t (fun th => { th with vprog := BitVec.ofNat 64 (n % 256), midVec := true })).updThr t (fun th => { th with held := some ((s1.thr t).pc, w) }))) ∧
  (∀ s3, run = .wait s3 → exec i s = .next ((s3.updThr t (fun th => { th with sv := (s2.thr t).sv, lv := (s2.thr t).lv, lvOld := (s2.thr t).lvOld, vcfg := (s2.thr t).vcfg })).updThr t (fun th => { th with held := some ((s1.thr t).pc, w) }))) ∧
  (∀ s3 n e, run = .exc s3 n e → (s3.thr t).Legal → 5 < e.code → ∃ s' lvl, exec i s = .next s' ∧ lvl ∈ [1, 2, 3] ∧ (s1.thr t).pl ≤ lvl ∧ (s'.thr t).vprog = BitVec.ofNat 64 (n % 256) ∧
    (s'.thr t).committed (excRegs lvl + 1) = (if e.xpcNext then (s3.thr t).pc + 4 else (s3.thr t).pc) ∧ fld ((s'.thr t).committed (excRegs lvl + 3)) 0 8 = e.code % 256 ∧
    (s'.thr t).pl = lvl ∧ (s'.thr t).e = (s3.thr t).e ∧ (s'.thr t).sv = (s3.thr t).sv ∧ (s'.thr t).lv = (s3.thr t).lv ∧ s'.coh = s3.coh ∧ ∀ u, u ≠ t → s'.thr u = s3.thr u)

/-- IRQ_PHYS takes a pending physical interrupt of a thread that can run and is not inside an instruction that no interrupt divides: one of the Secure bank to level 3 unless the thread is there with IE 0; one of the Normal bank in the Normal world to level 2 with VMEN 1 and else to level 1, when the thread is below that level or there with IE 1; XSYN has code 0x40, VEC 1 between two elements of a vector memory instruction, and XPC the address of the next instruction. IRQ_VIRT takes a virtual interrupt that TAKE returned to level 1 with code 0x41 and its vINTID when its record is still loaded on the thread and its VMID runs at level 0, or at level 1 with IE 1. No register changes. -/
def Obligations.InterruptEntry : Prop :=
  (∀ (t : Nat) (s : State), s.canRun t = true → s.midInstr t = false → (s.thr t).Legal → (s.physOf t).toNat / 2 ^ 192 ≠ 0 → ((s.thr t).pl < 3 ∨ (s.thr t).ie = true) →
    ∃ s', exec (.irqPhys t) s = .next s' ∧ Entered (s.thr t) 3 0x40 (s.thr t).pc (if (s.thr t).pl = 3 then 0x200 else 0x600) (s'.thr t) ∧
      fld ((s'.thr t).committed (excRegs 3 + 3)) 20 1 = (s.thr t).midVec.toNat ∧ (∀ u, u ≠ t → s'.thr u = s.thr u) ∧ s'.coh = s.coh) ∧
  (∀ (t : Nat) (s : State), s.canRun t = true → s.midInstr t = false → (s.thr t).Legal → (s.physOf t).toNat / 2 ^ 192 = 0 → (s.physOf t).toNat ≠ 0 → (s.thr t).secure = false →
    let l := if s.tick.vmen t then 2 else 1
    ((s.thr t).pl < l ∨ ((s.thr t).pl = l ∧ (s.thr t).ie = true)) →
    ∃ s', exec (.irqPhys t) s = .next s' ∧ Entered (s.thr t) l 0x40 (s.thr t).pc (if (s.thr t).pl = l then 0x200 else 0x600) (s'.thr t) ∧
      fld ((s'.thr t).committed (excRegs l + 3)) 20 1 = (s.thr t).midVec.toNat ∧ (∀ u, u ≠ t → s'.thr u = s.thr u) ∧ s'.coh = s.coh) ∧
  (∀ (t : Nat) (s : State), s.canRun t = true → (s.thr t).Legal → (s.physOf t).toNat / 2 ^ 192 = 0 → (s.physOf t).toNat ≠ 0 → (s.thr t).secure = false →
    let l := if s.tick.vmen t then 2 else 1
    ¬ ((s.thr t).pl < l ∨ ((s.thr t).pl = l ∧ (s.thr t).ie = true)) → exec (.irqPhys t) s = .next s) ∧
  (∀ (t v : Nat) (k : TakeSt) (r : LoadedRec) (s : State), s.canRun t = true → s.midInstr t = false → (s.thr t).Legal → (s.thr t).vint = some v → s.takeOf t = some k → v < 2 ^ 32 → s.loadedOn t = some r → r.addr = k.recAddr →
    (s.thr t).secure = false → s.tick.vmen t = true → s.tick.vmid t = r.vmid → ((s.thr t).pl = 0 ∨ ((s.thr t).pl = 1 ∧ (s.thr t).ie = true)) →
    ∃ s', exec (.irqVirt t) s = .next s' ∧ Entered (s.thr t) 1 0x41 (s.thr t).pc (if (s.thr t).pl = 1 then 0x200 else 0x600) (s'.thr t) ∧
      fld ((s'.thr t).committed 0x403) 32 32 = v ∧ fld ((s'.thr t).committed 0x403) 20 1 = (s.thr t).midVec.toNat ∧ (s'.thr t).vint = none ∧ (∀ u, u ≠ t → s'.thr u = s.thr u) ∧ s'.coh = s.coh)

/-- While the directory records an owner other than the requester, the home sends no Data for a RdShared, RdCode, RdOwn, Upgrade or RdCur, and an agent that reads the current value gets the owner's copy; with no owner recorded, the Data the home sends for a read or a RdOwn carry the valid LLC sector, or memory when the sector is not valid. -/
def Obligations.HomeSupplies : Prop :=
  (∀ (c : Coh) (env : CohEnv) (rq : HomeReq) (e : DirEntry) (b : Nat), c.de rq.line = some e → e.owner = some b → b ≠ rq.req →
    rq.kind ∈ [.rdShared, .rdCode, .rdOwn, .upgrade, .rdCur] → ∀ m ∈ (c.homeServe env rq).msgs, m ∈ c.msgs ∨ m.kind ≠ .data) ∧
  (∀ (c : Coh) (env : CohEnv) (line b : Nat) (e : DirEntry) (q : PLine), c.de line = some e → e.owner = some b → c.pl b line = some q → c.current env line = (q.data, q.poison)) ∧
  (∀ (c : Coh) (env : CohEnv) (rq : HomeReq) (h : HomeLoc) (e : DirEntry), env.home rq.line = some h → c.de rq.line = some e → e.owner = none →
    rq.kind ∈ [.rdShared, .rdCode, .rdOwn, .rdCur] → ∃ m, m ∈ (c.homeServe env rq).msgs ∧ m.kind = .data ∧ m.dst = rq.req ∧ m.line = rq.line ∧
      (m.data, m.poison) = (match c.sectorOf rq.line with | some (d, _, p) => (d, p) | none => c.memLine env rq.line))

/-- By the directory state of the line (08 R222). No entry and a free way: Data, granting E to RdShared, S to RdCode, and to RdOwn and Upgrade M when the LLC sector is dirty (whose dirty bit then clears) and else E; the entry records the requester. Sharers only: a reader gets Data in S and is added, with the line's poison mark; RdOwn invalidates the others and gets Data in E, with ACKS when some were snooped; a recorded Upgrade gets Cmp granting E, after the invalidations. An owner B: B is asked to forward, for ownership after invalidating the sharers, and memory and LLC stay. RdCur asks the owner for a copy. A coarse entry stays coarse. WrLine with no copy writes the valid LLC sector, dirty and with the write's own poison mark, or else memory. WbReq of the owner is pulled, any other cancelled. Every message and a new entry carry the line's SEC tag: that of its directory entry or LLC sector, for a line filled anew that of the region map (15 R456, R457). -/
def Obligations.HomeServes : Prop :=
  ∀ (c : Coh) (env : CohEnv) (rq : HomeReq) (h : HomeLoc), env.home rq.line = some h →
  let c' := c.homeServe env rq
  let (d, dirty, po) := c.homeData env rq.line
  let tag := (c.tagOf rq.line).getD (decide (c.de rq.line = none ∧ rq.kind ∈ [.rdShared, .rdCode, .rdOwn, .upgrade]) && env.secLine rq.line)
  let dat := fun (g : Option Moes) (a : Bool) => { mkMsg .data h.slice rq.req rq.line rq.req with grant := g, acks := a, data := d, poison := po, sec := tag, thread := rq.thread }
  let msg := fun (k : MsgKind) (x : Nat) => { mkMsg k h.slice x rq.line rq.req with sec := tag }
  let code := decide (rq.kind = .rdCode)
  (∀ w, rq.kind ∈ [.rdShared, .rdCode, .rdOwn, .upgrade] → c.de rq.line = none → (c.setDe rq.line none).dirFree env h = some w →
    c'.msgs = c.msgs ++ [dat (some (if rq.kind = .rdShared then .e else if code then .s else if dirty then .m else .e)) false] ∧
    c'.de rq.line = some ⟨h.slice, h.dirSet, w, tag, if code then .s else .ex, false, if code then none else some rq.req, if code then [rq.req] else [], 0, po, c.stamp⟩ ∧
    c'.txn rq.line = some (mkTxn rq [] true) ∧ c'.priv = c.priv ∧ c'.misses = c.misses ∧
    (rq.kind = .rdOwn ∨ rq.kind = .upgrade → ∀ x, c'.sectorOf rq.line = some x → x.2.1 = false)) ∧
  (∀ e, c.de rq.line = some e → e.owner = none → rq.kind = .rdShared ∨ rq.kind = .rdCode →
    c'.msgs = c.msgs ++ [dat (some .s) false] ∧ c'.de rq.line = some { (e.addSharer rq.req).1 with poison := e.poison || po } ∧ c'.txn rq.line = some (mkTxn rq [] true) ∧ c'.priv = c.priv) ∧
  (∀ e, c.de rq.line = some e → e.owner = none → rq.kind = .rdOwn ∨ rq.kind = .upgrade →
    let others := e.holders.filter (fun x => x != rq.req)
    let kept := decide (rq.kind = .upgrade) && e.records rq.req
    c'.msgs = c.msgs ++ others.map (msg .snpInv) ++
      (if kept then (if others = [] then [{ msg .cmp rq.req with grant := some .e }] else []) else [dat (some .e) (!others.isEmpty)]) ∧
    c'.de rq.line = some { e with st := .ex, owner := some rq.req, sharers := [], groups := 0, poison := e.poison || po } ∧ c'.priv = c.priv ∧ c'.txn rq.line = some { mkTxn rq others true with cmp := if others = [] then none else some (.e, !kept) }) ∧
  (∀ e b, c.de rq.line = some e → e.owner = some b → b ≠ rq.req → rq.kind = .rdShared ∨ rq.kind = .rdCode →
    c'.msgs = c.msgs ++ [msg .snpShared b] ∧ c'.de rq.line = some e ∧ c'.txn rq.line = some (mkTxn rq [b] true) ∧
    c'.priv = c.priv ∧ c'.mem = c.mem ∧ c'.llc = c.llc) ∧
  (∀ e b, c.de rq.line = some e → e.owner = some b → b ≠ rq.req → rq.kind = .rdOwn ∨ rq.kind = .upgrade →
    let others := e.holders.filter (fun x => x != rq.req && x != b)
    c'.msgs = c.msgs ++ others.map (msg .snpInv) ++ [{ msg .snpOwn b with acks := !others.isEmpty }] ∧
    c'.de rq.line = some { e with st := .ex, owner := some rq.req, sharers := [], groups := 0 } ∧ c'.txn rq.line = some { mkTxn rq (b :: others) true with cmp := if others = [] then none else some (.m, true), fwd := some b } ∧
    c'.priv = c.priv ∧ c'.mem = c.mem ∧ c'.llc = c.llc) ∧
  (rq.kind = .rdCur → (∀ e b, c.de rq.line = some e → e.owner = some b → c'.msgs = c.msgs ++ [msg .snpCur b] ∧ c'.priv = c.priv ∧ c'.dir = c.dir) ∧
    ((∀ e, c.de rq.line = some e → e.owner = none) → c'.msgs = c.msgs ++ [dat none false] ∧ c'.priv = c.priv ∧ c'.dir = c.dir ∧ c'.mem = c.mem ∧ c'.llc = c.llc ∧ c'.txns = c.txns)) ∧
  (rq.kind = .wrLine → c.de rq.line = none → (c.sectorOf rq.line ≠ none → c'.sectorOf rq.line = some (rq.data, true, rq.poison) ∧ c'.mem = c.mem) ∧
    (c.sectorOf rq.line = none → env.lostMem rq.line = false → env.badMem rq.line = false → env.inj rq.line = false → c'.memLine env rq.line = (rq.data, rq.poison) ∧ c'.llc = c.llc)) ∧
  (rq.kind = .wbReq → if (c.de rq.line).bind (·.owner) = some rq.req then
      c'.msgs = c.msgs ++ [msg .wbPull rq.req] ∧ c'.txn rq.line = some { mkTxn rq [] false with waitData := some rq.req }
    else c'.msgs = c.msgs ++ [msg .wbCancel rq.req] ∧ c'.txns = c.txns)

/-- A core's RDSHARED (a hardware prefetch or not), RDCODE, RDOWN or UPGRADE whose core is up, whose line is memory it may reach, that fits what the core holds of the line (nothing; for UPGRADE a copy in S or O), with no miss of the line and a free miss entry (07 R174), opens a miss and arrives at the home, where nothing that it needs is off; so do RDCUR, WRLINE and WRPART of an I/O agent, an aligned ATOMFAR of a thread with no older stores, WBREQ and EVICTCLEAN of a dirty or clean line in the victim buffer, WBREQ of one that a snoop took from it, and CMOREQ. GATHERREQ is served element by element by the home, and answers the packed elements when owners or the LLC hold their lines and nothing of them waits; its thread awaits one more response. No thread changes otherwise, and nothing outside the memory system but counters, votes and what counting reports. -/
def Obligations.CohRequests : Prop :=
  (∀ (t line : Nat) (sec pf : Bool) (i : Instr) (k : ReqKind) (p : Bool) (s : State),
    (i, k, p) ∈ [(.rdshared t line sec pf, ReqKind.rdShared, pf), (.rdcode t line sec, .rdCode, false), (.rdown t line sec, .rdOwn, false), (.upgrade t line sec, .upgrade, false)] →
    s.coreUp (t / 4) = true → s.isMem (64 * line) = true → (sec = true ∨ s.lineSec line = false) → s.coh.miss (s.stopOf t) line = none →
    s.reqFits (s.stopOf t) line k = true → s.missRoom (s.stopOf t) k p = true →
    let pc := (s.thr t).pc
    let c := ((s.coh.setMiss (s.stopOf t) line (some ⟨k, s.clsOf t, false, none, false, false, t, pc, [], p⟩)).hop (s.stopOf t) (s.homeOf line) 1).homeArrive s.tick.env
      { mkReq k (s.stopOf t) line sec (s.clsOf t) t with pc := pc }
    s.canDo c → ∃ s', exec i s = .next s' ∧ Coherent s c s') ∧
  (∀ (agent line cls stream : Nat) (sec poison : Bool) (data : Line) (mask : BitVec 64) (i : Instr) (rq : HomeReq) (s : State),
    (i, rq) ∈ [(.rdcur agent line sec cls stream, mkReq .rdCur agent line sec (cls % 64) 0),
      (.wrline agent line sec cls stream data poison, { mkReq .wrLine agent line sec (cls % 64) 0 with data := data, mask := BitVec.allOnes 64, poison := poison }),
      (.wrpart agent line sec cls stream data mask poison, { mkReq .wrPart agent line sec (cls % 64) 0 with data := data, mask := mask, poison := poison })] →
    224 ≤ agent → agent < 256 → s.isMem (64 * line) = true → (sec = true ∨ s.lineSec line = false) →
    let c := (s.coh.hop agent (s.homeOf line) (if rq.kind = .rdCur then 1 else 2)).homeArrive s.tick.env rq
    s.canDo c → ∃ s', exec i s = .next s' ∧ Coherent s c s') ∧
  (∀ (t line atop size : Nat) (sec auto : Bool) (va : BitVec 64) (rd : Reg) (operand cmp : BitVec 128) (s : State), s.canRun t = true → s.isMem (64 * line) = true → (s.thr t).stores = [] →
    (sec = true ∨ s.lineSec line = false) → atop ≤ 10 → size ≤ 2 → va.toNat % 64 % atomBytes size = 0 →
    let c := (s.coh.hop (s.stopOf t) (s.homeOf line) 1).homeArrive s.tick.env { mkReq .atomFar (s.stopOf t) line sec (s.clsOf t) t with
        atom := ⟨atop, size, va.toNat % 64, operand, cmp⟩, elems := [rd.toNat, auto.toNat, va.toNat] }
    s.canDo c → ∃ s', exec (.atomfar t line sec va rd atop size operand cmp auto) s = .next s' ∧ Coherent s c s') ∧
  (∀ (stop line : Nat) (i : Instr) (k : ReqKind) (s : State), (i, k) ∈ [(.wbreq stop line, ReqKind.wbReq), (.evictclean stop line, .evictClean)] → s.quietEvict k stop line = true →
    (∀ p, s.coh.pl stop line = some p → p.victim = true → p.st.dirty = decide (k = .wbReq) →
      let c := (s.coh.hop stop (s.homeOf line) 1).homeArrive s.tick.env (mkReq k stop line p.sec p.cls 0)
      s.canDo c → ∃ s', exec i s = .next s' ∧ Coherent s c s') ∧
    (k = .wbReq → s.coh.pl stop line = none → privKey stop line ∈ s.coh.gone →
      let c := (s.coh.hop stop (s.homeOf line) 1).homeArrive s.tick.env (mkReq .wbReq stop line (s.tick.env.secLine line) noClass 0)
      s.canDo c → ∃ s', exec i s = .next s' ∧ Coherent s c s')) ∧
  (∀ (t line op : Nat) (sec : Bool) (s : State), op ≤ 2 → s.coreUp (t / 4) = true → s.isMem (64 * line) = true → (sec = true ∨ s.lineSec line = false) →
    let k := match s.tick.cmoKind t (if op = 0 then .c else if op = 1 then .i else .ci) with | .c => ReqKind.cmoC | .i => .cmoI | .ci => .cmoCI
    let c := (s.coh.hop (s.stopOf t) (s.homeOf line) 1).homeArrive s.tick.env (mkReq k (s.stopOf t) line sec (s.clsOf t) t)
    s.canDo c → ∃ s', exec (.cmoreq t line sec op) s = .next s' ∧ Coherent s c s') ∧
  (∀ (t esz : Nat) (sec long : Bool) (vd : Reg) (x0 : Nat × Nat × Nat) (r : List (Nat × Nat × Nat)) (s : State), s.canRun t = true → esz ∈ [1, 2, 4, 8] → r.length ≤ 15 →
    (∀ x ∈ x0 :: r, s.isMem x.2.1 = true ∧ x.2.1 % 64 + esz ≤ 64 ∧ s.homeOf (x.2.1 / 64) = s.homeOf (x0.2.1 / 64) ∧ (sec = true ∨ s.lineSec (x.2.1 / 64) = false)) →
    let slice := s.homeOf (x0.2.1 / 64)
    let rqr := vd.toNat + long.toNat * 64 + 128 * esz
    let c := (s.coh.hop (s.stopOf t) slice 1).gatherGo s.tick.env ⟨t, s.stopOf t, slice, x0.2.1 / 64, rqr, esz, s.clsOf t, (x0 :: r).map (fun x => ⟨x.1, x.2.1, BitVec.ofNat 64 x.2.2⟩), [], []⟩
    s.canDo c → ∃ s1 s', exec (.gatherreq t sec long vd esz (x0 :: r)) s = .next s' ∧ Coherent s c s1 ∧ Counts { s1 with threads := s'.threads } s' ∧ (∀ u, u ≠ t → s'.thr u = s.thr u) ∧
      (let left := match (s.thr t).gath with | some g => if g.pc = (s.thr t).pc ∧ g.dst = rqr then some g else none | none => none
       s'.thr t = { s.thr t with gath := some (match left with | some g => { g with left := g.left + 1 } | none => ⟨(s.thr t).pc, rqr, 1, [], []⟩) }) ∧
      (s.coh.evs = [] → (∀ x ∈ x0 :: r, s.coh.queued (x.2.1 / 64) = false ∧
          (s.coh.sectorOf (x.2.1 / 64) ≠ none ∨ ∃ e b q, s.coh.de (x.2.1 / 64) = some e ∧ e.owner = some b ∧ s.coh.pl b (x.2.1 / 64) = some q)) →
        let v := fun (x : Nat × Nat × Nat) => s.coh.current s.tick.env (x.2.1 / 64)
        let bad := (x0 :: r).filter (fun x => (v x).2)
        s'.coh.msgs = s.coh.msgs ++ [{ mkMsg .gatherData slice (s.stopOf t) (x0.2.1 / 64) rqr with
          sec := s.coh.tagged (x0.2.1 / 64), thread := t, poison := !bad.isEmpty, elems := (x0 :: r).map (fun x => (x.1, fromLine (v x).1 (x.2.1 % 64) esz)), bad := bad.map (fun x => (x.1, BitVec.ofNat 64 x.2.2)) }] ∧
        s'.coh.priv = s.coh.priv ∧ s'.coh.mem = s.coh.mem ∧ s'.coh.dir = s.coh.dir))

/-- A snoop delivered to a cache that holds the line and does not park it is answered by 08 R218: SnpShared forwards the data in S and leaves O (from M or O) or S; SnpOwn forwards them in M or E and removes the copy; SnpInv removes it; SnpRecall removes it and returns dirty data to the home; SnpCur sends the home a copy and changes nothing. A dirty line that a snoop takes from the victim buffer waits there for the WbCancel. Without a copy, or with a clean line in the victim buffer, the answer is "no copy". Within the hold window, and until the access that caused the request has been performed, all but SnpCur are parked; HOLD_WINDOW_END answers them in order, and the homes go on with what waited for that (08 R224, R225). -/
def Obligations.SnoopAnswers : Prop :=
  (∀ (stop line : Nat) (i : Instr) (k : MsgKind) (m : Msg) (s : State),
    (i, k) ∈ [(.snpshared stop line, MsgKind.snpShared), (.snpown stop line, .snpOwn), (.snpinv stop line, .snpInv), (.snprecall stop line, .snpRecall), (.snpcur stop line, .snpCur)] →
    s.findMsg k false stop line = some m → s.routeUp m.src stop = true → s.canDo (s.coh.deliver s.tick.env m) → s.coh.evs = [] →
    let left := s.coh.msgs.erase m
    let tag := s.coh.tagged line
    let resp := fun (g : Option Moes) (sent : Bool) => { mkMsg .snpResp stop m.src line m.rqr with grant := g, dirty := sent, sec := tag }
    (∀ p, s.coh.pl stop line = some p → (p.victim = false ∨ p.st.dirty = true) → (p.keeps = false ∨ k = .snpCur) →
      let fwd := fun (g : Moes) (a : Bool) => { mkMsg .fwdData stop m.rqr line m.rqr with grant := some g, acks := a, data := p.data, poison := p.poison, sec := p.sec || tag }
      let dat := { mkMsg .snpData stop m.src line m.rqr with data := p.data, dirty := p.st.dirty, poison := p.poison, sec := tag }
      let st : Moes := if p.st.dirty then .o else .s
      let gone := if p.victim then s.coh.gone ++ [privKey stop line] else s.coh.gone
      ∃ s', exec i s = .next s' ∧ Coherent s (match k with
        | .snpShared => { s.coh with priv := (s.coh.setPl stop line (some { p with st := st })).priv, msgs := left ++ [fwd .s false, resp (some st) true] }
        | .snpOwn => { s.coh with priv := (s.coh.setPl stop line none).priv, gone := gone, msgs := left ++ [fwd (if p.st.dirty then .m else .e) m.acks, resp none true] }
        | .snpCur => { s.coh with msgs := left ++ [dat, resp (some p.st) true] }
        | .snpRecall => { s.coh with priv := (s.coh.setPl stop line none).priv, gone := gone, msgs := left ++ (if p.st.dirty then [dat, resp none true] else [resp none false]) }
        | _ => { s.coh with priv := (s.coh.setPl stop line none).priv, gone := gone, msgs := left ++ [resp none false] }) s') ∧
    ((s.coh.pl stop line = none ∨ ∃ p, s.coh.pl stop line = some p ∧ p.victim = true ∧ p.st.dirty = false ∧ p.keeps = false) →
      ∃ s', exec i s = .next s' ∧ Coherent s { s.coh with msgs := left ++ [resp none false] } s') ∧
    (∀ p, s.coh.pl stop line = some p → p.keeps = true → k ≠ .snpCur → ∃ s', exec i s = .next s' ∧ Coherent s { s.coh with msgs := left, parked := s.coh.parked ++ [m] } s')) ∧
  (∀ (stop line : Nat) (p : PLine) (s : State), s.coh.pl stop line = some p → (p.fresh = none ∨ s.accessDue stop line = false) →
    let c := ((s.coh.parked.filter (fun m => m.dst == stop && m.line == line)).foldl Coh.answer
        { s.coh with priv := (s.coh.setPl stop line (some { p with hold := false, fresh := none })).priv, parked := s.coh.parked.filter (fun m => !(m.dst == stop && m.line == line)) }).pump s.tick.env
    s.canDo c → ∃ s', exec (.holdWindowEnd stop line) s = .next s' ∧ Coherent s c s')

/-- DATA and FWDDATA reach a miss: the line is installed in the granted state, opens its hold window in native mode and is acknowledged, unless ACKS is set and Cmp has not come, when it is kept; CMP installs kept data, or gives an Upgrade's copy the granted state. SNPRESP ticks its sender off, and the last one releases the Cmp owed, or records the reader and the owner that stays. COMPACK closes a grant. SNPDATA reaches the home, for RdCur goes on to the requester. WBPULL sends the line and frees the buffer, WBDATA puts it in the LLC sector (dirty for WbReq), WBCANCEL frees the buffer and leaves any other copy. LINE_FILL puts a line held in L2 into L1D or L1I, or memory's data into the LLC sector. ATOMRESP writes the old value and trains the predictor, CMODONE is consumed, and GATHERDATA, the last one its thread's gather awaits, writes the lanes of all its responses; with a poisoned element it writes those below the lowest and the thread takes POISON_DATA with VEC 1, VPROG that element and XADDR its address; one of a gather that has ended is discarded. -/
def Obligations.CohDeliveries : Prop :=
  (∀ (stop line : Nat) (i : Instr) (k : MsgKind) (m : Msg) (x : Miss) (s : State), (i, k) ∈ [(.data stop line, MsgKind.data), (.fwddata stop line, .fwdData)] →
    s.findMsg k false stop line = some m → s.routeUp m.src stop = true → s.canDo (s.coh.deliver s.tick.env m) → s.coh.evs = [] → s.coh.miss stop line = some x → x.stale = false →
    ((m.acks = false ∨ x.gotCmp = true) → ∃ s' q, exec i s = .next s' ∧ Coherent s s'.coh s' ∧ s'.coh.pl stop line = some q ∧ q.st = m.grant.getD .s ∧ q.data = m.data ∧ q.poison = m.poison ∧
      q.sec = m.sec ∧ q.hold = s.env.native ∧ q.fresh = (if x.pf then none else some (x.thread, x.pc)) ∧ s'.coh.miss stop line = none ∧ s'.coh.msgs = s.coh.msgs.erase m ++ [{ mkMsg .compAck stop ((s.homeLoc line).elim m.src (·.slice)) line stop with sec := s.coh.tagged line }] ∧ s'.coh.dir = s.coh.dir) ∧
    (m.acks = true → x.gotCmp = false → ∃ s', exec i s = .next s' ∧ Coherent s ({ s.coh with msgs := s.coh.msgs.erase m }.setMiss stop line
      (some { x with held := some ⟨m.grant.getD .s, m.data, m.poison, m.sec, none, none, none, false, none, false, x.cls, none, k == MsgKind.fwdData⟩, needCmp := true })) s')) ∧
  (∀ (stop line : Nat) (m : Msg) (x : Miss) (s : State), s.findMsg .cmp false stop line = some m → s.routeUp m.src stop = true → s.canDo (s.coh.deliver s.tick.env m) → s.coh.evs = [] → s.coh.miss stop line = some x → x.stale = false →
    (∀ p, (x.held = some p ∨ (x.held = none ∧ m.acks = false ∧ p.victim = false ∧ s.coh.pl stop line = some p)) →
      ∃ s' q, exec (.cmp stop line) s = .next s' ∧ Coherent s s'.coh s' ∧ s'.coh.pl stop line = some q ∧ q.st = (if x.held.isSome then p.st else m.grant.getD .e) ∧ q.data = p.data ∧ q.poison = p.poison ∧
        q.hold = s.env.native ∧ q.fresh = (if x.pf then none else some (x.thread, x.pc)) ∧ s'.coh.miss stop line = none ∧ s'.coh.msgs = s.coh.msgs.erase m ++ [{ mkMsg .compAck stop ((s.homeLoc line).elim m.src (·.slice)) line stop with sec := s.coh.tagged line }]) ∧
    (x.held = none → m.acks = true → ∃ s', exec (.cmp stop line) s = .next s' ∧ Coherent s ({ s.coh with msgs := s.coh.msgs.erase m }.setMiss stop line (some { x with gotCmp := true })) s')) ∧
  (∀ (stop line : Nat) (m : Msg) (t : Txn) (h : HomeLoc) (s : State), s.homeLoc line = some h → s.coh.txn line = some t → s.coh.evs = [] → t.waitAck = true → t.waitData = none →
    s.findMsg .snpResp true stop line = some m → s.routeUp stop m.dst = true → s.canDo (s.coh.deliver s.tick.env m) → stop ∈ t.waitResp →
    (t.rq.kind = .rdOwn ∨ t.rq.kind = .upgrade) → (t.fwd = some stop → m.dirty = true) →
    let w := t.waitResp.erase stop
    ∃ s', exec (.snpresp stop line) s = .next s' ∧ Coherent s s'.coh s' ∧ s'.coh.txn line = some { t with waitResp := w, cmp := if w = [] then none else t.cmp } ∧
      s'.coh.msgs = s.coh.msgs.erase m ++ (match w, t.cmp with | [], some (g, a) => [{ mkMsg .cmp h.slice t.rq.req line t.rq.req with grant := some g, acks := a, sec := s.coh.tagged line }] | _, _ => []) ∧
      s'.coh.priv = s.coh.priv ∧ s'.coh.dir = s.coh.dir ∧ s'.coh.llc = s.coh.llc ∧ s'.coh.mem = s.coh.mem) ∧
  (∀ (stop line : Nat) (m : Msg) (t : Txn) (h : HomeLoc) (e : DirEntry) (s : State), s.homeLoc line = some h → s.coh.txn line = some t → s.coh.evs = [] → t.waitAck = true → t.waitResp = [stop] → t.waitData = none → t.cmp = none →
    s.findMsg .snpResp true stop line = some m → s.routeUp stop m.dst = true → s.canDo (s.coh.deliver s.tick.env m) → m.dirty = true → (t.rq.kind = .rdShared ∨ t.rq.kind = .rdCode) → s.coh.de line = some e →
    ∃ s', exec (.snpresp stop line) s = .next s' ∧ Coherent s s'.coh s' ∧ s'.coh.txn line = some { t with waitResp := [] } ∧ s'.coh.priv = s.coh.priv ∧ s'.coh.mem = s.coh.mem ∧
      s'.coh.de line = some ((if m.grant = some Moes.o then { e with st := DirState.o } else ({ e with st := .s, owner := none }.addSharer stop).1).addSharer t.rq.req).1) ∧
  (∀ (stop line : Nat) (m : Msg) (t : Txn) (s : State), (s.homeLoc line).isSome → s.coh.txn line = some t → s.coh.evs = [] → t.next = none → s.coh.retry = [] →
    (∀ r ∈ s.coh.waiting, r.line ≠ line ∧ r.kind.cmo = false ∧ (s.coh.txn r.line).isSome) →
    (s.findMsg .compAck true stop line = some m → s.routeUp stop m.dst = true → s.canDo (s.coh.deliver s.tick.env m) → t.waitAck = true → t.rq.req = stop → t.rq.kind ∈ [.rdShared, .rdCode, .rdOwn, .upgrade] → t.waitResp = [] → t.waitData = none → t.cmp = none →
      ∃ s', exec (.compack stop line) s = .next s' ∧ Coherent s s'.coh s' ∧ s'.coh.txn line = none ∧ s'.coh.msgs = s.coh.msgs.erase m ∧ s'.coh.priv = s.coh.priv ∧ s'.coh.dir = s.coh.dir ∧ s'.coh.mem = s.coh.mem) ∧
    (s.findMsg .snpData true stop line = some m → s.routeUp stop m.dst = true → s.canDo (s.coh.deliver s.tick.env m) → t.rq.kind = .rdCur → t.waitResp = [] →
      ∃ s', exec (.snpdata stop line) s = .next s' ∧ Coherent s s'.coh s' ∧ s'.coh.txn line = none ∧ s'.coh.priv = s.coh.priv ∧ s'.coh.mem = s.coh.mem ∧
        ∃ d, s'.coh.msgs = s.coh.msgs.erase m ++ [d] ∧ d.kind = .data ∧ d.dst = t.rq.req ∧ d.line = t.rq.line ∧ d.data = m.data ∧ d.poison = m.poison) ∧
    (∀ b, s.findMsg .wbData true stop line = some m → s.routeUp stop m.dst = true → s.canDo (s.coh.deliver s.tick.env m) → t.waitData = some stop → (t.rq.kind = .wbReq ∨ t.rq.kind = .evictClean) → s.coh.blk line = some b →
      ∃ s', exec (.wbdata stop line) s = .next s' ∧ Coherent s s'.coh s' ∧ s'.coh.txn line = none ∧ s'.coh.msgs = s.coh.msgs.erase m ∧ s'.coh.sectorOf line = some (m.data, decide (t.rq.kind = .wbReq), m.poison || s.coh.markOf line) ∧
        s'.coh.de line = (if t.rq.kind = .wbReq then (s.coh.de line).bind (·.remove stop) else s.coh.de line) ∧ s'.coh.mem = s.coh.mem)) ∧
  (∀ (stop line : Nat) (m : Msg) (t : Txn) (s : State), s.findMsg .snpData true stop line = some m → s.routeUp stop m.dst = true → s.coh.evs = [] → s.coh.txn line = some t → t.waitResp ≠ [] →
    ∃ s', exec (.snpdata stop line) s = .next s' ∧ Coherent s ({ s.coh with msgs := s.coh.msgs.erase m }.setTxn line (some { t with got := some (m.data, m.dirty, m.poison), waitData := none })) s') ∧
  (∀ (stop line : Nat) (m : Msg) (p : PLine) (s : State), s.findMsg .wbPull false stop line = some m → s.coh.pl stop line = some p → s.coh.evs = [] → s.routeUp m.src stop = true →
    s.canDo (s.coh.deliver s.tick.env m) → ∃ s', exec (.wbpull stop line) s = .next s' ∧ Coherent s { s.coh with
      priv := (s.coh.setPl stop line none).priv, msgs := s.coh.msgs.erase m ++ [{ mkMsg .wbData stop m.src line m.rqr with data := p.data, dirty := p.st.dirty, poison := p.poison, sec := p.sec || s.coh.tagged line }] } s') ∧
  (∀ (stop line : Nat) (m : Msg) (s : State), s.findMsg .wbCancel false stop line = some m → s.coh.evs = [] → s.routeUp m.src stop = true →
    ∃ s', exec (.wbcancel stop line) s = .next s' ∧ Coherent s { s.coh with
      priv := if ∃ p, s.coh.pl stop line = some p ∧ p.victim = true then (s.coh.setPl stop line none).priv else s.coh.priv
      gone := s.coh.gone.erase (privKey stop line), msgs := s.coh.msgs.erase m } s') ∧
  (∀ (stop line cls : Nat) (p : PLine) (s : State), s.coh.pl stop line = some p → s.coh.evs = [] → p.victim = false → p.l2.isSome → (∃ w, w < 4 ∧ (s.waysOut 0 stop).testBit w = false ∧ (s.waysOut 1 stop).testBit w = false) →
    (∃ s' q, exec (.lineFill stop line 0 cls) s = .next s' ∧ Coherent s s'.coh s' ∧ s'.coh.pl stop line = some q ∧ q.l1d.isSome ∧ q = { p with l1d := q.l1d } ∧ s'.coh.dir = s.coh.dir) ∧
    (s.missCount stop < 64 → ∃ s' q, exec (.lineFill stop line 1 cls) s = .next s' ∧ Coherent s s'.coh s' ∧ s'.coh.pl stop line = some q ∧ q.l1i.isSome ∧ q = { p with l1i := q.l1i } ∧ s'.coh.dir = s.coh.dir)) ∧
  (∀ (line cls w : Nat) (h : HomeLoc) (s : State), s.homeLoc line = some h → s.isMem (64 * line) = true → s.coh.txn line = none → s.coh.sectorOf line = none → (∀ e, s.coh.de line = some e → e.owner = none) →
    s.coh.evs = [] → s.memx.inject = [] → s.coh.unwritten = 0 → (∀ a, s.hdmOf a = none) → (line ∈ s.memx.fetched ∨ s.canDo (s.coh.homeFill s.tick.env line (s.tick.env.secLine line) (cls % 64) h.slice)) → (s.coh.blk line ≠ none ∨ s.coh.chooseWay s.tick.env h.slice h.llcSet (cls % 64) = some (w, none)) →
    ∃ s', exec (.lineFill h.slice line 3 cls) s = .next s' ∧ s'.coh.sectorOf line = some ((s.coh.memLine s.tick.env line).1, false, (s.coh.memLine s.tick.env line).2) ∧
      s'.coh.mem = s.coh.mem ∧ s'.coh.priv = s.coh.priv ∧ s'.coh.dir = s.coh.dir ∧ Coherent s s'.coh s') ∧
  (∀ (t line rd auto size va : Nat) (m : Msg) (s : State), s.coh.msgs.find? (fun m => m.kind == .atomResp && m.thread == t && m.line == line) = some m → s.routeUp m.src m.dst = true → m.poison = false →
    m.elems = [(rd, auto), (size, va)] →
    ∃ s', exec (.atomresp t line) s = .next s' ∧ s'.coh = { s.coh with msgs := s.coh.msgs.erase m } ∧ (∀ u, u ≠ t → s'.thr u = s.thr u) ∧
      (let v := m.data.extractLsb' 0 128
       s'.thr t = (if size = 2 then (s.thr t).wPair (BitVec.ofNat 5 rd) v else (s.thr t).wE (BitVec.ofNat 5 rd) (v.extractLsb' 0 64))) ∧
      (∀ k, auto = 1 → smGet (fun _ => none) (s.core (s.stopOf t)).pred (predIdx line) = some (predTag line, k) →
        smGet (fun _ => none) (s'.core (s.stopOf t)).pred (predIdx line) = some (predTag line, if m.contended then min 3 (k + 1) else min 3 (k - 1)))) ∧
  (∀ (t line : Nat) (m : Msg) (s : State), s.coh.msgs.find? (fun m => m.kind == .cmoDone && m.thread == t && m.line == line) = some m → s.routeUp m.src m.dst = true →
    exec (.cmodone t line) s = .next { s with coh := { s.coh with msgs := s.coh.msgs.erase m } }) ∧
  (∀ (t line : Nat) (m : Msg) (s : State), s.coh.msgs.find? (fun m => m.kind == .gatherData && m.thread == t && m.line == line) = some m → s.routeUp m.src m.dst = true →
    let s1 := { s with coh := { s.coh with msgs := s.coh.msgs.erase m } }
    ((∀ g, (s.thr t).gath = some g → g.pc ≠ (s.thr t).pc ∨ g.dst ≠ m.rqr) → exec (.gatherdata t line) s = .next s1) ∧
    (∀ g, (s.thr t).gath = some g → g.pc = (s.thr t).pc → g.dst = m.rqr →
      let got := g.got ++ m.elems
      let bad := g.bad ++ m.bad
      let vd : Reg := BitVec.ofNat 5 (m.rqr % 64)
      let long := m.rqr / 64 % 2 == 1
      let lanes := fun (l : List (Nat × Nat)) => (s.thr t).wVec long vd (l.foldl (fun r e => setLane r (8 * (m.rqr / 128)) e.1 e.2) (s.rVec t long vd))
      (1 < g.left → exec (.gatherdata t line) s = .next (s1.updThr t (fun th => { th with gath := some { g with left := g.left - 1, got := got, bad := bad } }))) ∧
      (g.left ≤ 1 → bad = [] → exec (.gatherdata t line) s = .next (s1.updThr t (fun _ => { lanes got with gath := none }))) ∧
      (g.left ≤ 1 → (s.thr t).Legal → m.rqr / 128 ≤ 8 → ∀ k va, (k, va) ∈ bad → (∀ x ∈ bad, x ≠ (k, va) → k < x.1) →
        let th := lanes (got.filter (fun e => decide (e.1 < k)))
        ∃ s' lvl, exec (.gatherdata t line) s = .next s' ∧ s'.coh = s1.coh ∧ (∀ u, u ≠ t → s'.thr u = s.thr u) ∧ lvl ∈ [1, 2, 3] ∧ (s.thr t).pl ≤ lvl ∧ (s'.thr t).pl = lvl ∧
          (s'.thr t).vprog = BitVec.ofNat 64 (k % 256) ∧ (s'.thr t).e = th.e ∧ (s'.thr t).sv = th.sv ∧ (s'.thr t).lv = th.lv ∧ (s'.thr t).gath = none ∧ (s'.thr t).committed (excRegs lvl + 1) = (s.thr t).pc ∧
          fld ((s'.thr t).committed (excRegs lvl + 3)) 0 9 = 0x130 ∧ fld ((s'.thr t).committed (excRegs lvl + 3)) 20 1 = 1 ∧ (s'.thr t).committed (excRegs lvl + 4) = va)))

/-- FLIT_CRC_ERROR on a working link requests a replay, which REPLAYS of an aqueduct counts, saturating; when the eighth replay in a row of one flit fails, retraining starts. LINK_RETRAIN_END that resumes ends the retraining; one that cannot declares the element failed; a failed lane takes a spare (LANE event) or, with none left, puts the direction at half width and requests replacement. MESH_LINK_FAILED enters the element in the first free MSH_FAULT_n and reports the reroute, fatally when a pair of stops has no route. AQUEDUCT_IDLE_TIMEOUT withdraws the DEP vote 100 us after the last message. -/
def Obligations.MeshErrors : Prop :=
  (∀ (kind stop : Nat) (ba again : Bool) (s : State), let e : Elem := ⟨kind, stop⟩
    e.ok = true → kind ≠ 2 → kind ≠ 3 → s.linkStuck e ba = false → e ∉ s.meshFaults →
    let old := smGet (fun _ => (0, 0)) s.msh.replays (linkKey e ba)
    let n := if again = true ∧ old.1 ≠ 0 then old.1 + 1 else 1
    let since := if n ≤ 2 then s.time.mt else old.2
    (9 ≤ n → exec (.flitCrcError kind stop ba again) s = .next { s with msh := { s.msh with
      replays := smSet (fun _ => (0, 0)) s.msh.replays (linkKey e ba) (0, 0), retrain := s.msh.retrain ++ [(e, ba, since)] } }) ∧
    (n < 9 → ∃ s', exec (.flitCrcError kind stop ba again) s = .next s' ∧ s' = { s with ccs := s'.ccs, ev := s'.ev, msh := s'.msh } ∧
      s'.msh = { s.msh with replays := smSet (fun _ => (0, 0)) s.msh.replays (linkKey e ba) (n, since) } ∧
      (∀ q, e.aq = some q → s'.rf (a_MSH_AQ_STAT q) f_MSH_AQ_STAT_REPLAYS = min (s.rf (a_MSH_AQ_STAT q) f_MSH_AQ_STAT_REPLAYS + 1) 65535))) ∧
  (∀ (kind stop since : Nat) (ba : Bool) (s : State), let e : Elem := ⟨kind, stop⟩
    s.msh.retrain.find? (fun x => x.1 == e && x.2.1 == ba) = some (e, ba, since) →
    let s1 := { s with msh := { s.msh with retrain := s.msh.retrain.filter (fun x => !(x.1 == e && x.2.1 == ba)) } }
    exec (.linkRetrainEnd kind stop ba true []) s = .next s1 ∧
    ((∀ x ∈ s.msh.failing, x.1 ≠ e) → e ∉ s.meshFaults → exec (.linkRetrainEnd kind stop ba false []) s =
      .next { s with msh := { s.msh with failing := s.msh.failing ++ [(e, since)], retrain := s.msh.retrain.filter (fun x => x.1 != e) } }) ∧
    (∀ n lane, e.aq = some n →
      let a := a_MSH_AQ_STAT n
      let fs := if ba then f_MSH_AQ_STAT_SPARES_BA else f_MSH_AQ_STAT_SPARES_AB
      let fh := if ba then f_MSH_AQ_STAT_HALF_BA else f_MSH_AQ_STAT_HALF_AB
      s.rf a fh ≠ 1 → exec (.linkRetrainEnd kind stop ba true [lane]) s = .next (
        if s.rf a fs < 2 then (s1.wf a fs (s.rf a fs + 1)).logArea.hostEv 0x0603 1 (672 + n) 0 (n + ba.toNat * 2 ^ 8 + lane % 64 * 2 ^ 16 + (s.rf a fs + 1) * 2 ^ 24) 0
        else (s1.wf a fh 1).logArea.replaceReq 4 0x0604 (672 + n) (n + ba.toNat * 2 ^ 8) 0))) ∧
  (∀ (kind stop since n : Nat) (s : State), let e : Elem := ⟨kind, stop⟩
    s.gal.restart = none → s.msh.failing.find? (fun x => x.1 == e) = some (e, since) → (List.range 8).find? (fun n => s.rf (a_MSH_FAULT n) f_MSH_FAULT_VALID == 0) = some n →
    let s0 := { s with msh := { s.msh with failing := s.msh.failing.filter (fun x => x.1 != e) } }
    let s1 := (match e.aq with | some q => s0.wf (a_MSH_AQ_STAT q) f_MSH_AQ_STAT_FAILED 1 | none => s0).setReg (a_MSH_FAULT n) (BitVec.ofNat 64 e.image) |>.logArea
    let src := match e.aq with | some q => 672 + q | none => 804
    exec (.meshLinkFailed kind stop) s = .next (if routable s1.meshFaults then s1.hostEv 0x0601 2 src 0 (e.image + n * 2 ^ 16) (s.time.mt - since)
      else s1.fatal 0x0602 src (e.image + n * 2 ^ 16) 0)) ∧
  (∀ (n : Nat) (s : State), n < 38 → smGet (fun _ => 0) s.msh.aqLast n + 100000 ≤ s.time.mt + 1 → exec (.aqueductIdleTimeout n) s = .next (s.setVote (672 + n) 4 false))

/-- MEMORY_REQUEST puts a request that its scheduler has room for into its queue and places the controller's DEP vote; a write to a line queued for writing merges, each read that meets a queued write of its line is counted; the home holds a request whose queue is full, or behind a held write to its line; a CXL.mem write is sent at its port, marked when its line is poisoned, and a read is issued there. DRAM_ACCESS_COMPLETE of the request its scheduler picks issues and removes it, an uncorrectable DDR5 read on both copies poisons the line, and the homes offer what they hold again. REFRESH_DUE issues all that is owed once the debt is urgent, may be postponed before that, waits while the controller is off, and a ninth clears the debt with REFRESH_DEBT. SELF_REFRESH_ENTRY and EXIT set and clear self-refresh, owed refreshes paid. PERIODIC_RETRAIN runs once in each 100 ms, or falls due in self-refresh. A CHANNEL_FAILURE loses an unmirrored channel, begins a failover, or is fatal; DDR_FAILOVER completes one and sends the reads again; PATROL_SCRUB reads when no request of its scheduler can be picked. SUBST_WALK_END, HBM_ROW_REPAIR and PATROL_SCRUB do what 09 R262, R266 and R267 say. -/
def Obligations.MemoryCommands : Prop :=
  (∀ (line cls : Nat) (wr part : Bool) (m : MemAt) (s : State), s.hdmOf (64 * line) = none → s.servedAt line wr = [m] → (∀ x ∈ s.memx.held, ¬(x.wr = true ∧ x.line = line)) →
    let w : MemWant := ⟨line, wr, part && wr, cls⟩
    let s1 := s.updMem (fun x => { x with reqs := x.reqs ++ [⟨m, line, wr, part && wr, cls, s.time.mt, s.epochOf m.unit, false⟩] })
    let raw := if wr then (s.memx.reqs.filter (fun r => r.loc.sch == m.sch && !r.wr && r.line == line)).length else 0
    (s.queuedWrite m.sch line = false → s.queueRoom m wr = true → exec (.memoryRequest line wr cls part) s = .next
      (((if raw = 0 then s1 else s1.countUnc (memBlk m.unit) 8 none 0x043 {} .read (some (64 * line)) raw).touchUnit m.unit).redrain m)) ∧
    (s.queuedWrite m.sch line = true → wr = false → s.queueRoom m false = true →
      exec (.memoryRequest line wr cls part) s = .next (((s1.countUnc (memBlk m.unit) 8 none 0x043 {} .read (some (64 * line)) 1).touchUnit m.unit).redrain m)) ∧
    (s.queuedWrite m.sch line = true → wr = true → exec (.memoryRequest line wr cls part) s = .next (((s.updMem (fun x => { x with
      reqs := x.reqs.map (fun r => if r.loc.sch = m.sch ∧ r.wr = true ∧ r.line = line then { r with part := r.part && part } else r) })).touchUnit m.unit).redrain m)) ∧
    (s.queueRoom m wr = false → (wr = true → s.queuedWrite m.sch line = false) → exec (.memoryRequest line wr cls part) s = .next (s.updMem (fun x => { x with held := x.held ++ [w] })))) ∧
  (∀ (line cls : Nat) (wr part : Bool) (s : State), s.hdmOf (64 * line) = none → s.servedAt line wr ≠ [] → (∃ x ∈ s.memx.held, x.wr = true ∧ x.line = line) →
    exec (.memoryRequest line wr cls part) s = .next (s.updMem (fun x => { x with held := x.held ++ [⟨line, wr, part && wr, cls⟩] }))) ∧
  (∀ (line cls p k : Nat) (wr part : Bool) (s : State), s.hdmOf (64 * line) = some (p, k) →
    exec (.memoryRequest line wr cls part) s = .next (if s.cxlDown (64 * line) then s.hostEv 0x0708 3 (750 + p) 0 (3 * 2 ^ 8) (64 * line)
      else if wr then s.transmit ⟨p, if (s.coh.memLine s.env line).2 then 9 else 0, 64 * line, 64, (s.coh.memLine s.env line).1.toNat⟩ else s.issue p 0 3 line (64 * line) (64 * line) 64 0)) ∧
  (∀ (k : Nat) (e : MemErr) (r : MemReq) (s : State), s.memx.reqs[k]? = some r → s.pickReq r.loc.sch = some k → (∀ x ∈ s.memx.inject, x.1 ≠ r.line) →
    let s0 := s.tick.updMem (fun x => { x with reqs := x.reqs.eraseIdx k })
    let home := (s.homeLoc r.line).elim 0 (·.slice)
    let s1 := if s.hbmCached then s0.hbmAccess home (64 * r.line) r.wr r.part r.cls {} (fun _ x => x) else (s0.countHop home r.loc r.wr).dramIssue r.loc (64 * r.line) r.wr r.cls {}
    let ends := fun (s2 : State) => ((if r.wr = true ∨ r.stale = true ∨ r.line ∈ s2.memx.fetched then s2 else s2.updMem (fun x => { x with fetched := x.fetched ++ [r.line] })).redrain r.loc).sendHeld
    (e.kind = 0 → exec (.dramAccessComplete k e) s = .next (ends s1)) ∧
    (e.kind = 3 → r.wr = false → s.hbmCached = false → r.loc.unit < 16 → s1.chFailed r.loc.unit = false → s.coh.unwritten = 0 → s1.hbmHit r.line = none → exec (.dramAccessComplete k e) s = .next
      (let x := s1.dmcLog r.loc.unit 2 (some r.line) (s1.placed r.loc.unit (some r.line) e) 31 false
       ends (({ x.1 with coh := { x.1.coh with poison := smSet (fun _ => false) x.1.coh.poison r.line true } }).hostEv 0x0504 3 (710 + r.loc.unit) 0 x.2 (64 * r.line))))) ∧
  (∀ (u r : Nat) (s : State), s.memHere u = true → s.inSr u = false → r < s.refRanks u →
    (s.debtOf u r < 8 → ∀ po,
      (s.domState (memDom u) = 2 → s.rf (memReg u 0x10) f_DMC_REF_CTL_URGENT ≤ s.debtOf u r → exec (.refreshDue u r po) s = .next (s.setDebt u r 0)) ∧
      (s.domState (memDom u) = 2 → s.debtOf u r < s.rf (memReg u 0x10) f_DMC_REF_CTL_URGENT → exec (.refreshDue u r po) s = .next (if po then s.setDebt u r (s.debtOf u r + 1) else s)) ∧
      (s.domState (memDom u) ≠ 2 → exec (.refreshDue u r po) s = .next (s.setDebt u r (s.debtOf u r + 1)))) ∧
    (8 ≤ s.debtOf u r → r < 32 → ∀ po, ∃ s' n, exec (.refreshDue u r po) s = .next s' ∧ s' = (s.tick.setDebt u r 0).hostEv 0x0502 5 (memEntry u) 0 (n + 9 * 2 ^ 24) (Config.freeWord s.freeCtr 0x502).toNat ∧ n < 2 ^ 24) ∧
    (∀ n, n ≤ 8 → (s.setDebt u r n).debtOf u r = n ∧ ∀ r', r' ≠ r → (s.setDebt u r n).debtOf u r' = s.debtOf u r')) ∧
  (∀ (u : Nat) (s : State), s.memHere u = true → s.inSr u = false → bit (s.reg (memReg u 0x20)) 0 = true → (∀ r ∈ s.memx.reqs, r.loc.unit ≠ u) →
    smGet (fun _ => 0) s.memx.busy u + 1000 * fld (s.reg (memReg u 0x20)) 16 16 ≤ s.time.mt →
    ∃ s', exec (.selfRefreshEntry u) s = .next s' ∧ s'.inSr u = true ∧ (∀ r, r < 32 → s'.debtOf u r = 0) ∧ (s'.votes (memPhy u)).testBit 4 = true ∧ (s'.votes (memDom u)).testBit 4 = false ∧
      s' = { s with ccs := s'.ccs, pwr := s'.pwr, memx := { s.memx with debt := s'.memx.debt, wants := s.memx.wants.filter (fun x => x.loc.unit != u) } }) ∧
  (∀ (u pc : Nat) (ok : Bool) (s : State), s.memHere u = true → s.inSr u = true → ((∃ r ∈ s.memx.reqs, r.loc.unit = u) ∨ ∃ x ∈ s.memx.wants, x.loc.unit = u) → s.domState (memDom u) = 2 →
    let s1 := (s.setReg (memReg u 0x20) (setBit (s.reg (memReg u 0x20)) 32 false)).touchUnit u
    let s2 := s1.updMem (fun x => { x with retrainDue := x.retrainDue.filter (fun y => y != u) })
    exec (.selfRefreshExit u pc ok) s = .next (if u ∉ s1.memx.retrainDue then s1 else if ok then s2 else if u < 16 then s2.chFail u 2 else s2.pcFail (u - 16) pc 2)) ∧
  (∀ (u pc : Nat) (s : State), s.memHere u = true → u * 1000000 ≤ s.time.mt % 100000000 → smGet (fun _ => 0) s.memx.retrained u ≤ s.time.mt / 100000000 →
    let s1 := s.updMem (fun x => { x with retrained := smSet (fun _ => 0) x.retrained u (s.time.mt / 100000000 + 1) })
    (s.inSr u = false → exec (.periodicRetrain u pc true) s = .next s1 ∧ exec (.periodicRetrain u pc false) s = .next (if u < 16 then s1.chFail u 2 else s1.pcFail (u - 16) pc 2)) ∧
    (s.inSr u = true → u ∉ s.memx.retrainDue → ∀ ok, exec (.periodicRetrain u pc ok) s = .next (s1.updMem (fun x => { x with retrainDue := x.retrainDue ++ [u] })))) ∧
  (∀ (c cause : Nat) (s : State), 1 ≤ cause → cause ≤ 4 → s.chTrained c = true → s.chFailed c = false →
    let s1 := (s.wf (a_DMC_RAS_STAT c) f_DMC_RAS_STAT_CH_FAILED 1).logArea
    (s.partner c = none → s.rf a_MSH_MEM_CFG f_MSH_MEM_CFG_MIRROR = 1 → exec (.channelFailure c cause) s = .next (s1.fatal 0x050A (710 + c) (min c (pairMate c) + max c (pairMate c) * 2 ^ 8 + cause * 2 ^ 16) 0)) ∧
    (s.partner c = none → s.rf a_MSH_MEM_CFG f_MSH_MEM_CFG_MIRROR ≠ 1 → exec (.channelFailure c cause) s = .next (s1.hostEv 0x050B 3 (710 + c) 0 (c + cause * 2 ^ 16) 0)) ∧
    (∀ p, s.partner c = some p → s.chFailed p = false → exec (.channelFailure c cause) s = .next (s1.updMem (fun x => { x with failovers := x.failovers ++ [⟨c, cause, s.time.mt⟩] }))) ∧
    (∀ p, s.partner c = some p → s.chFailed p = true → exec (.channelFailure c cause) s = .next (s1.fatal 0x050A (710 + c) (min c p + max c p * 2 ^ 8 + cause * 2 ^ 16) 0))) ∧
  (∀ (c p : Nat) (f : Failover) (s : State), s.memx.failovers.find? (fun f => f.ch == c) = some f → s.partner c = some p →
    let ep := (smGet (fun _ => 0) s.memx.epoch (min c p) + 1) % 256
    exec (.ddrFailover c) s = .next (((((s.updMem (fun x => { x with failovers := x.failovers.erase f, epoch := smSet (fun _ => 0) x.epoch (min c p) ep })).resend c).wf
      (a_DMC_RAS_STAT c) f_DMC_RAS_STAT_FAILED_OVER 1).wf (a_DMC_RAS_STAT p) f_DMC_RAS_STAT_FAILED_OVER 1).logArea.hostEv 0x0509 2 (710 + c) 0 (c + p * 2 ^ 8 + f.cause * 2 ^ 16 + ep * 2 ^ 24) (s.time.mt - f.start))) ∧
  (∀ (c r : Nat) (s : State), (c, r) ∈ s.memx.walks →
    let s1 := s.updMem (fun x => { x with walks := x.walks.erase (c, r) })
    exec (.substWalkEnd c r) s = .next (if (∃ w ∈ s1.memx.walks, w.1 = c) then s1 else s1.wf (a_DMC_RAS_STAT c) f_DMC_RAS_STAT_SUBST_BUSY 0)) ∧
  (∀ (st pc bank row : Nat) (s : State), let r : HbmRow := ⟨st, pc, bank, row⟩
    r ∈ s.memx.repairDue →
    let s1 := s.updMem (fun x => { x with repairDue := x.repairDue.erase r })
    let used := s.rf (a_HMC_RAS_STAT st) f_HMC_RAS_STAT_REPAIRS
    let w2 := st + pc * 2 ^ 8 + bank % 32 * 2 ^ 16 + row % 2 ^ 18 * 2 ^ 24
    ((s.memx.repairs.filter (fun x => x.stack == st && x.pc == pc && x.bank == bank)).length < 2 → ∃ s2 : State, exec (.hbmRowRepair st pc bank row) s = .next (s2.hostEv 0x050C 2 (742 + st) 0 w2 (used + 1)) ∧
      s2 = { s1.logArea with memx := { s1.memx with repairs := s.memx.repairs ++ [r] }, ccs := s2.ccs, freeCtr := s2.freeCtr } ∧ (st < 4 → s2.rf (a_HMC_RAS_STAT st) f_HMC_RAS_STAT_REPAIRS = min (used + 1) 65535)) ∧
    (2 ≤ (s.memx.repairs.filter (fun x => x.stack == st && x.pc == pc && x.bank == bank)).length →
      exec (.hbmRowRepair st pc bank row) s = .next ((s1.wf (a_HMC_RAS_STAT st) f_HMC_RAS_STAT_EXHAUSTED 1).replaceReq 2 0x050D (742 + st) w2 used))) ∧
  (∀ (u : Nat) (e : MemErr) (s : State), s.memHere u = true → s.rf (memReg u 0x28) f_DMC_RAS_CTL_SCRUB_EN ≠ 0 → s.inSr u = false → s.memx.inject = [] → e.kind = 0 →
    let n := (s.patrolLines u).1
    let at_ := smGet (fun _ => 0) s.memx.patrol u
    let m := s.patrolAt u at_ ((s.patrolLines u).2 at_)
    let k := (at_ + 1) % n
    let s1 := ((s.tick.patrolIssue u m ((s.patrolLines u).2 at_)).updMem (fun x => { x with patrol := smSet (fun _ => 0) x.patrol u k })).wf (memReg u 0x30) f_DMC_RAS_STAT_SCRUB_POS (65536 * k / n)
    0 < n → (∀ r ∈ s.memx.reqs, r.loc.sch = m.sch → s.pickable r = false) → exec (.patrolScrub u e) s = .next (if k = 0 then s1.countUnc (memBlk u) 8 none 0x045 { unclassed := true } .none none 1 else s1))

/-- GALLEY_TAKE of a ring that is on, with a packet posted and a proof slot free, takes the packet at HEAD, advances HEAD and hands it on; a FENCE packet waits for every earlier proof, and a packet that cannot be read stops the ring with ERR and GALLEY_FAULT. The packet's fields are those of 17 R525. A proof holds TAG, STATUS, REPLACE, OPCODE, MT and two results (R528), goes to the slot at PPROD, which advances, and the command is no longer taken; a datagram's proof is sent back and kept. A record offered to an enabled queue with room is written at its slot with the queue's SEQ, PROD and SEQ advance (R537, R538); with one free slot an OVERFLOW record takes it and OVF is set, and with none the record is dropped (R540); a disabled queue counts it as dropped. Nothing but registers, memory, events, ports' MSI-X and the push datagrams changes by an event. -/
def Obligations.GalleyRings : Prop :=
  (∀ (r : Nat) (s : State), s.galOn r = true → s.galRoom r = true → s.gal.restart = none →
    let head := s.rf (a_GAL_STAT r) f_GAL_STAT_HEAD
    (∀ s1 bs, s.galRead r head = (s1, some bs) →
      let c := galParse bs r s1.time.ticks s1.time.mt none
      exec (.galleyTake r) s = .next (if c.flags.testBit 1 = true ∧ (∃ x ∈ s1.gal.taken, x.ring = r) then s1
        else (s1.wf (a_GAL_STAT r) f_GAL_STAT_HEAD ((head + 1) % 2 ^ s1.galLog r)).galAccept c)) ∧
    (∀ s1, s.galRead r head = (s1, none) → exec (.galleyTake r) s = .next ((s1.wf (a_GAL_STAT r) f_GAL_STAT_ERR 1).galFault r 1 head (s1.galPacket r head)))) ∧
  (∀ (bs : List Byte) (r t mt k : Nat) (p : Option NetPeer), bs.length = 64 → 1 ≤ k → k ≤ 7 →
    let c := galParse bs r t mt p
    c.op = leVal (bs.take 2) ∧ [c.flags] = ((bs.drop 2).take 1).map (·.toNat) ∧ [c.len] = ((bs.drop 3).take 1).map (·.toNat) ∧ c.tag = leVal ((bs.drop 4).take 2) ∧ c.target = leVal ((bs.drop 6).take 2) ∧
      c.word k = (if k ≤ c.len then BitVec.ofNat 64 (leVal ((bs.drop (8 * k)).take 8)) else 0) ∧ c.ring = r ∧ c.begun = false) ∧
  (∀ (c : GalCmd) (x : GalRes) (rep : Bool) (mt : Nat), c.tag < 2 ^ 16 → x.status < 2 ^ 8 → c.op < 2 ^ 16 → mt < 2 ^ 64 →
    let b := proofBytes c x rep mt
    b.length = 32 ∧ leVal (b.take 2) = c.tag ∧ leVal ((b.drop 2).take 1) = x.status ∧ leVal ((b.drop 3).take 1) = rep.toNat ∧ leVal ((b.drop 4).take 2) = c.op ∧ leVal ((b.drop 6).take 2) = 0 ∧
      leVal ((b.drop 8).take 8) = mt ∧ leVal ((b.drop 16).take 8) = x.w2.toNat ∧ leVal (b.drop 24) = x.w3.toNat) ∧
  (∀ (c : GalCmd) (x : GalRes) (s : State),
    let b := proofBytes c x (s.rf a_GAL_HEALTH f_GAL_HEALTH_REPLACE == 1) s.time.mt
    let s' := s.galProve c x
    s'.gal.taken = s.gal.taken.erase c ∧
    (∀ p, c.net = some p → s' = { s with gal := { s.gal with taken := s.gal.taken.erase c, sent := s.gal.sent ++ [.udp p.addr p.port b], kept := s.gal.kept ++ [⟨p, c.tag, c.since, b⟩] } }) ∧
    (c.net = none → c.ring < 4 →
      let prod := s.rf (a_GAL_STAT c.ring) f_GAL_STAT_PPROD
      let a := s.rf (a_GAL_PBASE c.ring) f_GAL_PBASE_BASE * 4096 + 32 * prod
      s'.rf (a_GAL_STAT c.ring) f_GAL_STAT_PPROD = (prod + 1) % 2 ^ s.galLog c.ring ∧
      (c.ring ≠ 2 → s.isMem a = true → s.memFailed (a / 64) = false → (c.ring = 0 ∨ s.lineSec (a / 64) = false) → c.flags.testBit 0 = false → s'.coh = (s.writeBytes a b 0).coh) ∧
      (c.ring = 2 → s'.ev.svc = putBytes s.ev.svc (0x80000 + 32 * prod) b))) ∧
  (∀ (r : EvRec) (seq : Nat), r.typ < 2 ^ 16 → r.sev < 16 → r.source < 2 ^ 16 → r.vmid < 2 ^ 16 → seq < 4096 → r.mt < 2 ^ 64 →
    let b := r.bytes seq
    let w := leVal (b.take 8)
    b.length = 32 ∧ w % 2 ^ 16 = r.typ ∧ w / 2 ^ 16 % 2 ^ 4 = r.sev ∧ w / 2 ^ 20 % 2 ^ 16 = r.source ∧ w / 2 ^ 36 % 2 ^ 16 = r.vmid ∧ w / 2 ^ 52 = seq ∧
      leVal ((b.drop 8).take 8) = r.mt ∧ leVal ((b.drop 16).take 8) = r.w2.toNat ∧ leVal (b.drop 24) = r.w3.toNat) ∧
  (∀ (q : Nat) (r : EvRec) (s : State), q < 3 →
    let s' := s.offer q r
    let seq := (s.evq q).seq
    let prod := s.rf (a_EVQ_PROD q) f_EVQ_PROD_PROD
    let a := s.rf (a_EVQ_BASE q) f_EVQ_BASE_BASE * 4096 + 32 * prod
    (s.rf (a_EVQ_CTL q) f_EVQ_CTL_EN ≠ 0 → (s.evq q).dropping = false → 2 ≤ s.evqFree q → s.evqSize q ≤ 65536 → (q = 2 ∨ (s.isMem a = true ∧ s.memFailed (a / 64) = false)) →
      s'.rf (a_EVQ_PROD q) f_EVQ_PROD_PROD = (prod + 1) % s.evqSize q ∧ (s'.evq q).seq = (seq + 1) % 4096 ∧
      (q = 2 → s'.ev.svc = putBytes s.ev.svc (0xA0000 + 32 * prod) (r.bytes seq)) ∧ (q ≠ 2 → q = 0 ∨ s.lineSec (a / 64) = false → s'.coh = (s.writeBytes a (r.bytes seq) 0).coh)) ∧
    (s.rf (a_EVQ_CTL q) f_EVQ_CTL_EN ≠ 0 → (s.evq q).dropping = false → s.evqFree q = 1 →
      (s'.evq q).dropping = true ∧ s'.rf (a_EVQ_STAT q) f_EVQ_STAT_OVF = 1 ∧ s'.rf (a_EVQ_STAT q) f_EVQ_STAT_DROPPED = min (s.rf (a_EVQ_STAT q) f_EVQ_STAT_DROPPED + 1) (2 ^ 32 - 1) ∧
      (q = 2 → s'.ev.svc = putBytes s.ev.svc (0xA0000 + 32 * prod) (EvRec.bytes ⟨0x0001, 0, 1000, 0, s.time.mt, BitVec.ofNat 64 (s.rf (a_EVQ_STAT q) f_EVQ_STAT_DROPPED), 0⟩ seq))) ∧
    (s.rf (a_EVQ_CTL q) f_EVQ_CTL_EN ≠ 0 → (s.evq q).dropping = false → s.evqFree q = 0 →
      s' = (s.setEvq q { s.evq q with dropping := true }).addSat (a_EVQ_STAT q) f_EVQ_STAT_DROPPED 1) ∧
    (s.rf (a_EVQ_CTL q) f_EVQ_CTL_EN = 0 → (q = 1 → (s.evq 1).everEnabled = true) → s' = s.addSat (a_EVQ_STAT q) f_EVQ_STAT_DROPPED 1)) ∧
  (∀ (q : Nat) (r : EvRec) (s : State), s.post q r = { s with ccs := (s.post q r).ccs, coh := (s.post q r).coh, ev := (s.post q r).ev, port := (s.post q r).port, gal := { s.gal with sent := (s.post q r).gal.sent } })

/-- Each command of groups 00xx, 02xx, 05xx to 08xx and 0Axx, handed to its executor and passing the checks of 17 R527, is performed as 17 R532 says and proved with its result, and the rotation goes on to the next ring; the proof is galProve of GalleyRings. CORE_RESET leaves the core's four threads at their reset state. FW_STAGE_COMMIT is proved ACCEPTED, and SNAPSHOT_NOW has begun. -/
def Obligations.LengthsmanCommands : Prop :=
  ∀ (r : Nat) (c : GalCmd) (s0 : State), let s := s0.galTurned c
  (Handed s0 r 0x0001 c → exec (.nop r) s0 = .next (s.galProve c ⟨0x00, c.word 1, c.word 2⟩)) ∧
  (Handed s0 r 0x0002 c → c.par 1 32 6 ≤ 32 →
    let n : NetCfg := ⟨c.par 1 0 32, c.par 1 32 6, c.par 2 0 32, c.par 1 40 1 == 1, c.par 1 41 1 == 1, c.par 3 0 32, c.par 3 32 16⟩
    exec (.netConfig r) s0 = .next ((s.updGal (fun g => { g with net := some n, sent := g.sent ++ (if n.ipv4 = s.netOf.ipv4 then [] else [.announce n.ipv4]) })).logArea.galProve c gDone)) ∧
  (Handed s0 r 0x0201 c → exec (.coreStatus r) s0 = .next (s.galProve c ⟨0x00, BitVec.ofNat 64 (c.target + s.lcoreOf c.target * 2 ^ 16 +
    (match (s.mapEnt (s.lcoreOf c.target)).st with | .active => 0 | .spare => 1 | .failed => 2 | .fusedOff => 3) * 2 ^ 24), s.clkselOf c.target (s.core c.target).clksel⟩)) ∧
  (Handed s0 r 0x0202 c → (c.ring = 1 → (s.votes c.target).testBit 0 = false) → s.coreActive c.target = true →
    exec (.coreReset r) s0 = .next ((s.tick.coreResetNow c.target).galProve c gDone) ∧
    ∀ k, k < 4 → ∃ n, (s.tick.coreResetNow c.target).thr (4 * s.lcoreOf c.target + k) = { Thread.reset (vcfgReset s.variant) with keyGen := n }) ∧
  (Handed s0 r 0x0210 c → exec (.chipReset r) s0 = .next ((if c.par 1 0 1 = 0 then { s with ev := { s.ev with fatalAt := some (s.ev.fatalAt.getD (s.time.mt + 10000)) } }
    else { s with boot := { s.boot with coldAt := some (s.boot.coldAt.getD (s.time.mt + 10000)) } }).galProve c gDone)) ∧
  (Handed s0 r 0x0601 c → ∀ value mt, exec (.telemetryRead r value mt) s0 = .next (s.galProve c (match s.sensorAt (c.par 1 0 16) with | none => gBadParam | some false => gAbsent | some true => ⟨0x00, value, mt⟩))) ∧
  (Handed s0 r 0x0701 c → exec (.logbookInfo r) s0 = .next (s.galProve c ⟨0x00, BitVec.ofNat 64 s.ev.log.journal.length, BitVec.ofNat 64 (min 100 s.ev.log.wear)⟩)) ∧
  (Handed s0 r 0x0702 c → exec (.logbookRead r) s0 = .next (s.galProve c (match s.ev.log.journal[c.par 1 0 32]? with
    | none => gBadParam
    | some j => ⟨0x00, BitVec.ofNat 64 (leVal ((j.bytes.drop (16 * c.par 1 32 2)).take 8)), BitVec.ofNat 64 (leVal ((j.bytes.drop (16 * c.par 1 32 2 + 8)).take 8))⟩))) ∧
  (Handed s0 r 0x0801 c → c.par 1 0 2 ≠ 3 → c.par 1 32 20 ≠ 0 → (∀ x, s.gal.stage = some x → x.ring = c.ring) →
    exec (.fwStageBegin r) s0 = .next ((s.updGal (fun g => { g with stage := some ⟨c.ring, c.par 1 0 2, c.par 1 32 20, [], none⟩ })).galProve c gDone)) ∧
  (∀ x, Handed s0 r 0x0802 c → s.gal.stage = some x → x.ring = c.ring → c.par 1 0 20 % 48 = 0 → c.par 1 0 20 < x.length →
    exec (.fwStageData r) s0 = .next ((s.updGal (fun g => { g with stage := some { x with bytes := putBytes x.bytes (c.par 1 0 20) (([2, 3, 4, 5, 6, 7].flatMap (fun k => leBytes 8 (c.word k).toNat)).take (x.length - c.par 1 0 20)) } })).galProve c gDone)) ∧
  (∀ x, Handed s0 r 0x0803 c → s.gal.stage = some x → x.ring = c.ring →
    exec (.fwStageCommit r) s0 = .next ((s.updGal (fun g => { g with stage := none, verify := g.verify ++ [{ x with commit := some c.tag }] })).galProve c gAccepted)) ∧
  (Handed s0 r 0x0804 c → exec (.fwStatus r) s0 = .next (s.galProve c ⟨0x00, BitVec.ofNat 64 (s.boot.lenVer + s.boot.tolVer * 2 ^ 32),
    BitVec.ofNat 64 (s.tol.rollback + s.fwStaged.toNat * 2 ^ 8 + s.tol.ownerKeys.toNat * 2 ^ 9)⟩)) ∧
  (Handed s0 r 0x0A01 c →
    let f := if c.word 1 = 0 then c.mt + 4000 else (c.word 1).toNat
    exec (.snapshotNow r) s0 = .next (if s.mtRuns = true ∧ s.time.mt ≤ f then
      (({ s with lkp := { s.lkp with passages := s.lkp.passages ++ [⟨none, f, 2, 0, none⟩] } } : State).wf a_LKP_SNAP_STAT f_LKP_SNAP_STAT_PENDING 1).begins c
      else s.galProve c gLate)) ∧
  (Handed s0 r 0x0A02 c → (s.absentAt (c.word 1).toNat).isNone → counterAt (c.word 1).toNat = true → (s.pageSecure (c.word 1).toNat = true → c.ring = 0) →
    exec (.counterRead r) s0 = .next (s.galProve c ⟨0x00, s.counterReg (c.word 1).toNat, 0⟩)) ∧
  (Handed s0 r 0x0501 c → exec (.memStatus r) s0 = .next (s.galProve c ⟨0x00, s.reg (memReg (memTarget c.target) 0x30), s.reg (memReg (memTarget c.target) 0)⟩)) ∧
  (∀ pc ok, Handed s0 r 0x0502 c → let u := memTarget c.target
    (if u < 16 then s.chTrained u = true ∧ s.chFailed u = false else ∃ p, p < 32 ∧ 32 * (u - 16) + p ∉ s.memx.pcFailed) →
    exec (.memRetrain r pc ok) s0 = .next (if ok then s.galProve c gDone else (if u < 16 then s.chFail u 2 else s.pcFail (u - 16) pc 2).galProve c gFailed)) ∧
  (Handed s0 r 0x0503 c → c.par 1 0 2 = 1 ∨ c.par 1 0 2 = 2 → s.paKind (c.word 2).toNat = .mem →
    exec (.errInject r) s0 = .next ((s.updMem (fun x => { x with inject := x.inject.filter (fun y => y.1 != (c.word 2).toNat / 64) ++ [((c.word 2).toNat / 64, c.par 1 0 2)] })).galProve c gDone))

/-- The power Galley commands are performed as 16 R505 says; HOST_DIRECT_ENTER ends the slices' DEP votes, and leaving the mode gives every domain the state its votes give. DOMAIN_DRAINED, of a Barge engine once no manifest is in flight there, uses a token, counts the switch and leaves the domain OFF, a core's threads at reset. POWER_GOOD turns the domain ON with its PLL unlocked; a first WAKE_TIMEOUT begins a second attempt, a later one fails the domain. PLL_LOCK, PLL_LOCK_FAILED, the loss of SYS_REFCLK (no domain stays on a PLL) and its return, SWITCH_TOKEN, WEAR_COPY, FREQUENCY_RECOMPUTE, which grants every core that is on its frequency and starts the glide of its PLL (a fall at once, a rise within 50 µs), and the cap loop are those of 16 R498 to R508. -/
def Obligations.PowerCommands : Prop :=
  (∀ (r : Nat) (c : GalCmd) (s0 : State), let s := s0.galTurned c
  (Handed s0 r 0x0101 c → c.par 1 0 12 ≤ 787 → domAbsent s.variant (c.par 1 0 12) = false →
    exec (.powerStatus r) s0 = .next (s.galProve c ⟨0x00, s.domReg (c.par 1 0 12), s.reg (a_PVC_WEAR (c.par 1 0 12))⟩)) ∧
  (Handed s0 r 0x0102 c → s.hostDirect = true → exec (.hostDirectEnter r) s0 = .next (s.tick.galProve c gBusy)) ∧
  (Handed s0 r 0x0102 c → s.hostDirect = false → ∃ s2 : State, exec (.hostDirectEnter r) s0 = .next ((s2.hostEv 0x0107 0 1000 0 (1 + c.ring * 2) 0).galProve c gDone) ∧
    s2 = { s.tick with ccs := s2.ccs, pwr := { s.pwr with direct := [] } } ∧ s2.hostDirect = true ∧ s2.rf a_PVC_STAT f_PVC_STAT_RING = c.ring ∧
    (∀ k, k < 224 → (s2.votes (448 + k)).testBit 4 = false) ∧ ∀ d, d < 788 → s2.domState d = s.domState d) ∧
  (Handed s0 r 0x0103 c → s.hostDirect = true → (∀ x ∈ s.gal.taken, ¬(x.op = 0x0104 ∧ x.begun = true)) → ∃ s2 : State,
    exec (.hostDirectExit r) s0 = .next ((s2.hostEv 0x0107 0 1000 0 (s.rf a_PVC_STAT f_PVC_STAT_RING * 2) 0).galProve c gDone) ∧
    s2 = { s.tick with ccs := s2.ccs, pwr := s2.pwr } ∧ s2.hostDirect = false ∧ (∀ k, k < 224 → (s2.votes (448 + k)).testBit 4 = true) ∧
    ∀ d, d < 788 → (s2.votes d ≠ 0 → s2.domState d ≠ 3) ∧ (s2.votes d = 0 → s2.domState d ≠ 2 ∨ s2.rf (a_PVC_DOM d) f_PVC_DOM_DEFERRED = 1)) ∧
  (Handed s0 r 0x0104 c → let d := c.par 1 0 12
    d ≤ 787 → s.domState d ≠ 5 → (c.ring = 1 → (s.votes d).testBit 0 = false) →
    (s.hostDirect = false → exec (.domainSet r) s0 = .next (s.tick.galProve c gBadParam)) ∧
    (s.hostDirect = true → s.domState d ≠ 4 →
      let s1 := s.tick.updPwr (fun x => { x with direct := (x.direct.filter (fun y => y.1 != d)) ++ [(d, c.par 1 12 1 == 1)] })
      (c.par 1 12 1 = 1 → s.domState d = 0 → s.domHeldSpare d = false → exec (.domainSet r) s0 = .next ((s1.startWake d).begins c)) ∧
      (c.par 1 12 1 = 1 → s.domState d = 2 → exec (.domainSet r) s0 = .next ((s1.wf (a_PVC_DOM d) f_PVC_DOM_DEFERRED 0).galProve c ⟨0x00, 2, 0⟩)) ∧
      (c.par 1 12 1 = 0 → s.domState d = 2 → (s.votes d).testBit 4 = true → exec (.domainSet r) s0 = .next (s.tick.galProve c gBusy)) ∧
      (c.par 1 12 1 = 0 → s.domState d = 2 → (s.votes d).testBit 4 = false → s.rf (a_PVC_DOM d) f_PVC_DOM_TOKENS = 0 → exec (.domainSet r) s0 = .next (s.tick.galProve c gNoRes)) ∧
      (c.par 1 12 1 = 0 → s.domState d = 2 → (s.votes d).testBit 4 = false → s.rf (a_PVC_DOM d) f_PVC_DOM_TOKENS ≠ 0 → exec (.domainSet r) s0 = .next ((s1.startOff d).begins c)))) ∧
  (Handed s0 r 0x0110 c → exec (.powerCapSet r) s0 = .next (if 650 ≤ c.par 1 0 11 ∧ c.par 1 0 11 ≤ 1000 then
    (s.wf a_PVC_STAT f_PVC_STAT_LIMIT (c.par 1 0 11)).galProve c ⟨0x00, BitVec.ofNat 64 (s.rf a_PVC_STAT f_PVC_STAT_LIMIT), 0⟩ else s.galProve c gBadParam)) ∧
  (Handed s0 r 0x0111 c → exec (.powerCapStatus r) s0 = .next (s.galProve c
    ⟨0x00, BitVec.ofNat 64 (s.rf a_PVC_STAT f_PVC_STAT_LIMIT + s.pwr.measured % 2048 * 2 ^ 16), BitVec.ofNat 64 (s.rf a_PVC_STAT f_PVC_STAT_CAP)⟩))) ∧
  ∀ s : State,
  (∀ d, d < 788 →
    (s.domState d = 3 → (∀ x ∈ s.ras.sparing, x.old ≠ d) → (768 ≤ d → d < 784 → s.brgDrained (d - 768) = true) → exec (.domainDrained d) s = .next (((((((s.tick.drainUnit d).useSwitch d).wf (a_PVC_DOM d) f_PVC_DOM_STATE 0).wf (a_PVC_DOM d) f_PVC_DOM_DEFERRED 0).depChain d).domainSetEnd d).settleDom d)) ∧
    (s.rf (a_PVC_WEAR d) f_PVC_WEAR_SWITCHES < switchBudget → let t := s.useSwitch d
      t = { s with ccs := t.ccs } ∧ t.rf (a_PVC_DOM d) f_PVC_DOM_TOKENS = s.rf (a_PVC_DOM d) f_PVC_DOM_TOKENS - 1 ∧ t.rf (a_PVC_WEAR d) f_PVC_WEAR_SWITCHES = s.rf (a_PVC_WEAR d) f_PVC_WEAR_SWITCHES + 1) ∧
    (d < 224 → ∀ k, k < 4 → ∃ n, (s.drainUnit d).thr (4 * s.lcoreOf d + k) = { Thread.reset (vcfgReset s.variant) with keyGen := n }) ∧
    (s.domState d = 1 → s.wakeOpen d = true → ∃ s1 : State, s1 = { s with ccs := s1.ccs, pwr := s1.pwr } ∧ s1.domState d = 2 ∧ smGet (fun _ => Glide.still) s1.pwr.glide d = ⟨48, 48, 0⟩ ∧ smGet (fun _ => 0) s1.pwr.goodMt d = s.time.mt ∧
      smGet (fun _ => 0) s1.pwr.attempts d = 0 ∧ d ∉ s1.pwr.pllFailed ∧ (hasPll d = true → d ∈ s1.pwr.unlocked) ∧
      (224 ≤ d → exec (.powerGood d) s = .next (((s1.depChain d).domainSetEnd d).settleDom d)) ∧
      (d < 224 → (∀ k, k < 4 → s.loadedOn (4 * s.lcoreOf d + k) = none) → (∀ x ∈ s.ras.sparing, x.spare = d → x.moved = true) →
        exec (.powerGood d) s = .next ((((s1.coreDep d).depChain d).domainSetEnd d).settleDom d))) ∧
    (s.domState d = 1 → smGet (fun _ => 0) s.pwr.attempts d ≤ 1 → s.notYet (smGet (fun _ => 0) s.pwr.firstMt d + 20000) = false →
      exec (.wakeTimeout d) s = .next (s.updPwr (fun x => { x with attempts := smSet (fun _ => 0) x.attempts d 2 }))) ∧
    (s.domState d = 1 → 2 ≤ smGet (fun _ => 0) s.pwr.attempts d → s.notYet (smGet (fun _ => 0) s.pwr.firstMt d + 50000) = false → exec (.wakeTimeout d) s = .next (s.tick.wakeFails d)) ∧
    ((s.votes d).testBit 0 = false →
      let s3 := (s.wf (a_PVC_DOM d) f_PVC_DOM_STATE 4).logArea.hostEv 0x0101 3 d 0 (d + 2 * 2 ^ 12) (smGet (fun _ => 0) s.pwr.firstMt d)
      (224 ≤ d → d < 448 → s.wakeFails d = s3.domainSetEnd d) ∧
      (768 ≤ d → d < 784 → s.wakeFails d =
        (((List.range 8).filter (fun k => !(s3.brg (8 * (d - 768) + k)).mans.isEmpty)).foldl (fun s k => s.brgError (8 * (d - 768) + k)) s3).domainSetEnd d)) ∧
    (s.domOn d = true → d ∈ s.pwr.unlocked → d ∉ s.pwr.pllFailed →
      (s.pwr.refLost = none → exec (.pllLock d) s = .next (s.updPwr (fun x => { x with unlocked := x.unlocked.filter (fun y => y != d) }))) ∧
      (s.notYet (smGet (fun _ => 0) s.pwr.goodMt d + 100000) = false → (s.votes d).testBit 0 = false →
        exec (.pllLockFailed d) s = .next ((s.updPwr (fun x => { x with pllFailed := x.pllFailed ++ [d] })).hostEv 0x0102 2 d 0 d 0)))) ∧
  (s.pwr.refLost = none → s.rf a_GAL_BOOT_STAT f_GAL_BOOT_STAT_STAGE = 8 →
    let s1 := (s.updPwr (fun x => { x with refLost := some s.time.mt })).wf a_PVC_STAT f_PVC_STAT_SYSREF_OK 0
    exec .clockRefLost s = .next (s1.hostEv 0x0103 2 1000 0 0 0) ∧ ∀ d, s1.clkOf d ≠ 2) ∧
  (∀ m, s.pwr.refLost = some m → 3 ≤ s.rf a_GAL_BOOT_STAT f_GAL_BOOT_STAT_STAGE →
    exec .clockRefRestored s = .next (((s.updPwr (fun x => { x with refLost := none })).wf a_PVC_STAT f_PVC_STAT_SYSREF_OK 1).hostEv 0x0104 0 1000 0 0 (s.time.mt - m))) ∧
  (∃ s' : State, exec .switchToken s = .next s' ∧ s' = { s with ccs := s'.ccs } ∧
    ∀ d, d < 788 → s'.rf (a_PVC_DOM d) f_PVC_DOM_TOKENS = s.rf (a_PVC_DOM d) f_PVC_DOM_TOKENS + (if s.rf (a_PVC_DOM d) f_PVC_DOM_TOKENS < 10000 then 1 else 0)) ∧
  (∃ s' : State, exec .wearCopy s = .next s' ∧ s' = { s with ev := { s.ev with log := { s.ev.log with switches := s'.ev.log.switches, area := s'.ev.log.area } } } ∧
    ∀ d, d < 788 → smGet (fun _ => 0) s'.ev.log.switches d = s.rf (a_PVC_WEAR d) f_PVC_WEAR_SWITCHES) ∧
  (s.gal.restart = none → s.running = true →
    ((s.mtRuns = true → s.pwr.freqMs ≤ s.time.mt / 1000000) →
      ∃ s' : State, exec .frequencyRecompute s = .next s' ∧ s' = { s.tick with pwr := { s.pwr with freqMs := s.time.mt / 1000000 + 1, granted := s'.pwr.granted, glide := s'.pwr.glide } } ∧
      ∀ p, p < 224 → smGet (fun _ => 48) s'.pwr.granted p = (if s.domState p = 2 then s.grantOf p else smGet (fun _ => 48) s.pwr.granted p) ∧
        let g := smGet (fun _ => Glide.still) s'.pwr.glide p
        (s.domState p ≠ 2 → g = smGet (fun _ => Glide.still) s.pwr.glide p) ∧
        (s.domState p = 2 → s.coreOnPll p = false → g = ⟨48, 48, 0⟩) ∧
        (s.domState p = 2 → s.coreOnPll p = true → g.dst = s.grantOf p ∧
          ((smGet (fun _ => Glide.still) s.pwr.glide p).dst ≠ s.grantOf p → g.src = s.pllFreq p ∧ s.time.ticks ≤ g.start ∧ g.start ≤ s.time.ticks + 50000 ∧
            (s.grantOf p ≤ s.pllFreq p → g.start = s.time.ticks)))) ∧
    (∀ p, fld (s.clkselOf p (s.core p).clksel) 16 8 = if s.coreOnPll p then s.pllFreq p % 256 else 48) ∧
    (∀ p, (s.mtRuns = true → s.pwr.capMs ≤ s.time.mt / 1000000) →
      let cap := s.rf a_PVC_STAT f_PVC_STAT_CAP
      let lim := s.rf a_PVC_STAT f_PVC_STAT_LIMIT
      let s1 := s.updPwr (fun x => { x with measured := p, capMs := s.time.mt / 1000000 + 1 })
      (lim < p → cap ≠ 32 → exec (.powerCapLoop p) s = .next (s1.wf a_PVC_STAT f_PVC_STAT_CAP (max 32 (cap - 1 - (p - lim) / 10)))) ∧
      (lim < p → cap = 32 → s.pwr.capUnmet = none →
        exec (.powerCapLoop p) s = .next (((s1.wf a_PVC_STAT f_PVC_STAT_CAP 32).updPwr (fun x => { x with capUnmet := some s.time.mt })).hostEv 0x0106 0 1000 0 lim p)) ∧
      (p + 20 < lim → cap < 132 → exec (.powerCapLoop p) s = .next (s1.wf a_PVC_STAT f_PVC_STAT_CAP (cap + 1))) ∧
      (p ≤ lim → lim ≤ p + 20 → exec (.powerCapLoop p) s = .next s1)))

/-- Without translation, on a line of memory: a load of R79 to R81 or a MEMX load of a line that L1D holds, with no older store and no port read outstanding, completes with the line's bytes in its destination; a store completes as the youngest entry of the store buffer; an atomic completes with the old bytes in its destination, near on a line held in M or E (which goes to M with the bytes replaced by atomNew), or far by HINT when its messages can cross, its line is free and nothing of it waits; a fence, and a SEND, complete; a vector load or a near gather of lines that L1D holds completes with every active element in its lane, and a vector store or a scatter with every active element in the store buffer. Nothing else changes but the counting of events, and what a far atomic's counting reports. -/
def Obligations.PlainAccesses : Prop :=
  (∀ (i : Instr) (t n wy : Nat) (d : LdDst) (ea : Thread → Word) (q : PLine) (s s1 : State) (w : Option (BitVec 32)), loadForm i = some (t, true, n, d, ea) → Executes i t s s1 w →
    let a := ea (s1.thr t)
    (s1.thr t).stores = [] → s1.loadOut t = none → s1.coh.evs = [] → (∀ g ∈ s1.coh.given, g.thread ≠ t) → Plain t a n s1 → HeldIn (s1.stopOf t) (a.toNat / 64) q wy s1 →
    ∃ s', exec i s = .next s' ∧ Retires t { s1 with coh := s1.coh.useWay (s1.stopOf t) 0 (a.toNat / 64) wy } (((s1.thr t).decoded false w).take d n (leVal (bytesOf q.data a.toNat n))) ((s1.thr t).pc + 4) s') ∧
  (∀ (i : Instr) (t n : Nat) (d : LdDst) (rel : Bool) (ea : Thread → Word) (s s1 : State) (w : Option (BitVec 32)), storeForm i = some (t, true, n, d, rel, ea) → Executes i t s s1 w →
    let a := ea (s1.thr t)
    Plain t a n s1 →
    ∃ s', exec i s = .next s' ∧ Retires t s1 { (s1.thr t).decoded false w with
      stores := (s1.thr t).stores ++ [⟨[StorePart.of a.toNat (leBytes n ((s1.thr t).give d)) (s1.thr t).secure false], s1.clsOf t⟩] } ((s1.thr t).pc + 4) s') ∧
  (∀ (i : Instr) (t op wy : Nat) (rd ra rb : Reg) (hint size : BitVec 2) (q : PLine) (s s1 : State) (w : Option (BitVec 32)), atomForm i = some (t, rd, ra, rb, hint, size, op, true) → Executes i t s s1 w →
    let a := ((s1.thr t).rE ra).toNat
    let n := atomWidth size
    let new := fun (x : Line) => putInLine x (a % 64) n (atomNew op n (fromLine x (a % 64) n) ((s1.thr t).atomVal rb size) ((s1.thr t).atomVal rd size))
    a % n = 0 → (s1.thr t).stores = [] → s1.coh.evs = [] → Plain t ((s1.thr t).rE ra) n s1 →
    (hint ≠ 2 → HeldIn (s1.stopOf t) (a / 64) q wy s1 → (q.st = .m ∨ q.st = .e) →
      let s2 := if hint = 0 then s1.trainPred (s1.stopOf t) (a / 64) (-1) else s1
      ∃ s', exec i s = .next s' ∧ Retires t { s2 with coh := (s1.coh.useWay (s1.stopOf t) 0 (a / 64) wy).writeOwned s1.env (s1.stopOf t) (a / 64) (new q.data) fullMask }
        (((s1.thr t).decoded false w).atomTake rd size (fromLine q.data (a % 64) n)) ((s1.thr t).pc + 4) s') ∧
    (hint = 2 → ∀ c x con, s1.coh.farOp s1.env (s1.stopOf t) (a / 64) (s1.clsOf t) new = (c, x, false, con) → s1.coh.blocked (a / 64) = false → s1.coh.queued (a / 64) = false → s1.coh.lineFree (s1.stopOf t) (a / 64) = true → s1.canDo c →
      let s4 := ({ s1.begun t false w with coh := c }).drainEvs (s1.rqrOf t) .atomic
      ∃ s', exec i s = .next s' ∧ Retires t s4 ((s4.thr t).atomTake rd size (fromLine x (a % 64) n)) ((s1.thr t).pc + 4) s')) ∧
  (∀ (i : Instr) (t : Nat) (b : Bool) (s s1 : State) (w : Option (BitVec 32)), fenceOf i = some (t, b) → Executes i t s s1 w → (s1.thr t).stores = [] →
    ∃ s', exec i s = .next s' ∧ Retires t s1 ((s1.thr t).decoded false w) ((s1.thr t).pc + 4) s') ∧
  (∀ (t : Nat) (s s1 : State) (w : Option (BitVec 32)), Executes (.fenceFetch t) t s s1 w → (s1.thr t).stores = [] →
    ∃ s', exec (.fenceFetch t) s = .next s' ∧ Retires t s1 { (s1.thr t).decoded true w with staged := none, loopBuf := none } ((s1.thr t).pc + 4) s') ∧
  (∀ (t : Nat) (ra rb : Reg) (s s1 : State) (w : Option (BitVec 32)), Executes (.isend t ra rb) t s s1 w → 1 ≤ (s1.thr t).pl → (s1.thr t).stores = [] → s1.guest t = false → ¬((s1.thr t).pl = 2 ∧ bit ((s1.thr t).rE ra) 63 = true) →
    let s4 := (s1.begun t false w).sendPhys t (s1.thr t).secure (fld ((s1.thr t).rE ra) 0 10) (fld ((s1.thr t).rE rb) 0 8)
    ∃ s', exec (.isend t ra rb) s = .next s' ∧ Retires t s4 (s4.thr t) ((s1.thr t).pc + 4) s') ∧
  (∀ (i : Instr) (t : Nat) (long : Bool) (k : VmKind) (form : State → VMem) (s s1 : State) (w : Option (BitVec 32)), vmemForm i = some (t, long, true, k, form) → Executes i t s s1 w →
    (long = true → s1.lvAbsent (s1.stopOf t) = false ∧ s1.lvReady (s1.stopOf t) = true) →
    let s2 := s1.begun t false w long
    let v := form s2
    v.upto = none → s1.coh.evs = [] → (∀ i ∈ v.active s1, Plain t (v.addr i) v.esz s1) →
    ((k = .vls false ∨ ∃ h, k = .gather h ∧ h ≠ 2 ∧ (h = 0 → (v.lines (fld (s1.thr t).vprog 0 8)).length ≤ 8)) → (s1.thr t).stores = [] → s1.loadOut t = none → (∀ g ∈ s1.coh.given, g.thread ≠ t) →
      ∀ (f : Nat → PLine × Nat), (∀ i ∈ v.active s1, HeldIn (s1.stopOf t) ((v.addr i).toNat / 64) (f i).1 (f i).2 s1) →
      let s3 := (v.active s1).foldl (fun s i => v.putLane i (bytesOf (f i).1.data (v.addr i).toNat v.esz) { s with coh := s.coh.useWay (s1.stopOf t) 0 ((v.addr i).toNat / 64) (f i).2 }) s2
      ∃ s', exec i s = .next s' ∧ RetiresVec t long s3 { s3.thr t with vprog := 0, midVec := false } s') ∧
    (∀ vls : Bool, k = (if vls then .vls true else .scatter) →
      let s3 := (v.active s1).foldl (fun s i => s.bufferElem t (if vls then some (s1.thr t).stores.length else none) [StorePart.of (v.addr i).toNat (v.laneBytes s i) (s1.thr t).secure false]) s2
      ∃ s', exec i s = .next s' ∧ RetiresVec t long s3 { s3.thr t with vprog := 0, midVec := false } s'))

/-- A write of one register that gets to it (00 R12; 01 R27; 15 R458) changes each field it covers by the field's type, keeps every other bit, and does what the register's own rule adds: REGISTER_WRITE, and the commands named after their register, each with its register's operation on the value so written. A Normal write of a Secure page is reported as a violation; one of an unassigned offset or an absent unit is reported; one in a berth frame is a violation of KIND 7 where the berth is Secure and the agent is not, and otherwise ignored where the berth is free (12 R362). IRT_ACK_N and IRT_ACK_S are the acknowledging reads. A mailbox command whose agent is Secure writes its arguments and, when no operation runs, starts its OP with them. -/
def Obligations.RegisterCommands : Prop :=
  (∀ (i : Instr) (a : Agent) (off data : Nat) (f : State → Word → Word → State) (s : State), regForm i = some (a, true, off, data, f) →
    let q := agentAccess a off false (BitVec.ofNat 64 data)
    Gets s q true → let x := s.tick.written q; exec i s = .next (f s.tick x.1 x.2)) ∧
  (∀ (a : Agent) (off : Nat) (half : Bool) (data : Word) (s : State), off % (if half then 4 else 8) = 0 →
    let q := agentAccess a off half data
    (Gets s q true → exec (.registerWrite a off half data) s = .next (s.tick.regWrite q)) ∧
    (s.pageSecure off = true → a.sec = false → exec (.registerWrite a off half data) s = .next (s.tick.secViol (pageSource off) a.vmid a.kind a.num 2 off)) ∧
    (s.pageSecure off = false ∨ a.sec = true → 0x100000 ≤ off → (s.absentAt off ≠ none ∨ (findReg off = none ∧ inRange off 0x340000 0x40000 = false)) →
      exec (.registerWrite a off half data) s = .next (s.tick.pageEvent off true (s.absentAt off) a.kind a.num a.vmid)) ∧
    (inRange off 0x340000 0x40000 = true → s.pageSecure off = false ∨ a.sec = true → s.absentAt off = none → let b := (off - 0x340000) / 0x1000
      (s.berthSecRange b = true → a.sec = false → exec (.registerWrite a off half data) s = .next (s.tick.secViol 1000 a.vmid a.kind a.num 7 off)) ∧
      (s.berthSecRange b = false ∨ a.sec = true → s.berthAlloc b = false → exec (.registerWrite a off half data) s = .next s.tick) ∧
      (s.berthSecRange b = false ∨ a.sec = true → s.berthAlloc b = true → findReg off = none → exec (.registerWrite a off half data) s = .next (s.tick.pageEvent off true none a.kind a.num a.vmid)))) ∧
  (∀ (q : CcsReq) (fs : List RegField) (s : State), fieldsAt q.reg = some fs →
    (∀ f ∈ fs, let old := fld (s.reg q.reg) f.lo f.width; let x := fld q.placed f.lo f.width
      fld (s.written q).1 f.lo f.width = (if covers q f = false then old else match f.acc with
        | .rw | .rws => x | .ro | .rc | .wo => old | .w1c => old &&& (2 ^ f.width - 1 - x) | .w1s | .w1l => old ||| x
        | .wl => if (smGet (fun _ => 0) s.locks q.reg).getLsbD f.lo then old else x)) ∧
    (∀ k, k < 64 → (∀ f ∈ fs, ¬(f.lo ≤ k ∧ k < f.lo + f.width)) → (s.written q).1.getLsbD k = (s.reg q.reg).getLsbD k)) ∧
  (∀ (a : Agent) (n : Nat) (s : State), n < s.nThreads →
    (Gets s (agentAccess a (a_IRT_ACK_N n) false 0) false → exec (.irtAckN a n) s = .next (s.tick.irtAck n false true).1) ∧
    (Gets s (agentAccess a (a_IRT_ACK_S n) false 0) false → exec (.irtAckS a n) s = .next (s.tick.irtAck n true true).1)) ∧
  (∀ (i : Instr) (a : Agent) (op : Nat) (args : List Word) (s : State), mbxForm i = some (a, op, args) → a.sec = true →
    ∃ s', exec i s = .next s' ∧ s' = { s with freeCtr := s'.freeCtr, ccs := s'.ccs, locks := s'.locks, tol := s'.tol } ∧
      (∀ k, k < 4 → s'.reg (a_TOL_MBX_ARG k) = args.getD k (s.reg (a_TOL_MBX_ARG k))) ∧ s'.rf a_TOL_MBX_CMD f_TOL_MBX_CMD_OP = op ∧
      (s.tol.mbx = none → s'.tol = { s.tol with mbx := some ⟨op, (List.range 4).map (fun k => (args.getD k (s.reg (a_TOL_MBX_ARG k))).toNat)⟩ }) ∧
      (s.tol.mbx ≠ none → s'.tol = s.tol))

/-- DEVICE_REQUEST of a stream whose resident context translates nothing, to one line of memory, when nothing it asks for has to wait (for which it suffices that the LLC holds the line, no core does and nothing of it is open or queued): a read completes with the bytes, a write writes them, an atomic writes the new value and completes with the old; one with a PASID prefix is answered as an Unsupported Request. MSI_WRITE in the window, when the router's accesses to memory need not wait, is an input of the Interrupt Router with the context's VMID; ATS_TRANSLATION_REQUEST answers the address with both rights, and one with a PASID prefix as an Unsupported Request; ATS_INV_COMPLETION ends an Invalidate, and ATS_INV_TIMEOUT reports it and bars the device's translated requests; IOT_INV's BUSY clears when nothing is outstanding. -/
def Obligations.DeviceCommands : Prop :=
  (∀ (stream iova : Nat) (op : DevOp) (tr : Bool) (s : State), exec (.deviceRequest stream iova op tr true) s = .next (match op with | .write _ => s.tick | _ => s.tick.complete stream iova .unsupported)) ∧
  (∀ (stream iova n : Nat) (c : IotCtx) (s : State), Untranslated stream c s → DevPlain c iova n s →
    s.tick.holds (devRun stream iova (.read n) false) = [] ∨ s.inLlc (iova / 64) →
    let x := s.tick.readBytes iova n
    exec (.deviceRequest stream iova (.read n) false false) s = .next (((s.tick.noteTry (.read (iova / 64))).countCur 224 (iova / 64) (s.reqCls stream c) (devRqr stream c)).complete stream iova (.data x.1 x.2))) ∧
  (∀ (stream iova : Nat) (bs : List Byte) (c : IotCtx) (s : State), Untranslated stream c s → DevPlain c iova bs.length s →
    s.tick.holds (devRun stream iova (.write bs) false) = [] ∨ s.inLlc (iova / 64) →
    exec (.deviceRequest stream iova (.write bs) false false) s = .next ((s.tick.writeBytes iova bs (s.reqCls stream c)).drainEvs (devRqr stream c) .write)) ∧
  (∀ (stream iova n : Nat) (op : DevOp) (f : Nat → Nat) (c : IotCtx) (s : State), devAtom op = some (n, f) → Untranslated stream c s → DevPlain c iova n s →
    s.tick.holds (devRun stream iova op false) = [] ∨ s.inLlc (iova / 64) →
    let x := s.tick.readBytes iova n
    let s1 := (s.tick.noteTry (.read (iova / 64))).countCur 224 (iova / 64) (s.reqCls stream c) (devRqr stream c)
    x.2 = false → (s1.isMem (64 * (iova / 64)) = true ∧ (c.sec = true ∨ s1.lineSec (iova / 64) = false) ∧ s1.isMem iova = true) →
    exec (.deviceRequest stream iova op false false) s =
      .next (((s1.writeBytes iova (leBytes n (f (leVal x.1))) (s.reqCls stream c)).drainEvs (devRqr stream c) .write).complete stream iova (.data x.1 false))) ∧
  (∀ (stream iova : Nat) (data : BitVec 32) (c : IotCtx) (s : State), Untranslated stream c s → s.inMsi iova = true → iova % 4096 ≤ 4092 →
    s.tick.holds (fun s => (s.devWrite stream iova (leBytes 4 data.toNat) false).1) = [] →
    let p := stream / 65536
    let s1 := if p < 9 then s.tick.countUnc (portBase p + 0x200) 8 none 0x052 (devRqr stream c) .write none 1 else s.tick
    exec (.msiWrite stream iova data) s = .next (s1.irtInput ⟨false, stream, data.toNat % 65536⟩ (some c.vmid) s.time.mt)) ∧
  (∀ (stream iova p : Nat) (c : IotCtx) (s : State), Untranslated stream c s → c.ats = true → bit (s.reg a_IOT_CTL) 1 = true → s.isMem iova = true → portOfStream stream = some p →
    let g : AtsGiven := ⟨stream, c.sec, c.tag, c.asid, false⟩
    exec (.atsTranslationRequest stream iova) s = .next ((s.tick.updIot (fun y => { y with given := g :: y.given.filter (· != g) })).transmit ⟨p, 7, iova / 2 ^ 30 * 2 ^ 30, 2 ^ 30, 3⟩)) ∧
  (∀ (stream iova : Nat) (s : State), exec (.atsTranslationRequest stream iova true) s = .next (s.tick.complete stream iova .unsupported)) ∧
  (∀ (stream : Nat) (v : AtsInv) (s : State), s.iot.inv.find? (fun x => x.stream == stream) = some v →
    let s1 := s.updIot (fun x => { x with inv := x.inv.erase v })
    exec (.atsInvCompletion stream) s = .next s1.invBusy) ∧
  (∀ (stream : Nat) (v : AtsInv) (s : State), let tmo := s.rf a_IOT_ATS_CTL f_IOT_ATS_CTL_TIMEOUT
    s.iot.inv.find? (fun x => x.stream == stream && decide (x.start + 1000 * tmo ≤ s.time.mt)) = some v → ∃ s', exec (.atsInvTimeout stream) s = .next (State.invBusy s') ∧
      s' = (s.hostEv 0x0702 3 796 0 (stream % 2 ^ 20) tmo).updIot (fun x => { x with inv := s.iot.inv.erase v, dead := s'.iot.dead }) ∧ stream ∈ s'.iot.dead ∧ ∀ k, k ∈ s'.iot.dead → k = stream ∨ k ∈ s.iot.dead) ∧
  (∀ s : State, ((s.iot.invReqs = [] ∧ bit (s.reg a_IOT_INV) 63 = false) ∨ (∃ x ∈ s.iot.inv, x.owner = none) → s.invBusy = s) ∧
    ((s.iot.invReqs ≠ [] ∨ bit (s.reg a_IOT_INV) 63 = true) → (∀ x ∈ s.iot.inv, x.owner ≠ none) → s.stillOut s.iot.invReqs = false →
      s.invBusy = (s.updIot (fun x => { x with invReqs := [] })).wf a_IOT_INV f_IOT_INV_BUSY 0))

/-- INTERNAL_INTERRUPT hands a raised internal interrupt to the router. An input of a pinned slot that names a thread makes its INTID pending there and nothing else; a vINTID posted to a loaded record is pending in it, with its PRIO_SUM bit, and rings the doorbell, which DOORBELL turns into PENDING; TAKE removes the lowest pending vINTID, and TAKE_REPLY brings it to the core, or back when it may not be taken, or ends a TAKE that found none. IRQ_DEADLINE reports an Express interrupt not taken within 1 us. BANDWIDTH_WINDOW clears the class counts of a window that has ended. TENANT_RESET and TENANT_RELEASE are proved with their outcome; TENANT_RESET_DONE ends a reset at step 7 and reports it, and RESET_TIMEOUT reports one that takes longer than 200 us. -/
def Obligations.RouterCommands : Prop :=
  (∀ (src ev : Nat) (e : IrqIn) (s : State), s.ev.irqs.find? (fun e => e.src == src && e.ev == ev) = some e →
    exec (.internalInterrupt src ev) s = .next (({ s with ev := { s.ev with irqs := s.ev.irqs.erase e } } : State).tick.irtInput ⟨true, src, ev⟩ none e.mt)) ∧
  (∀ (x : IrtSrc) (p : Pin) (cv : Option Nat) (mt : Nat) (s : State), bit (s.reg a_IRT_CTL) 0 = true → s.rtr.pins.find? (fun p => p.src == x) = some p → (∀ v ∈ cv, v = 0) → fld p.dt.2 0 16 = 0 → s.vmidBlocked 4 0 = false →
    bit p.it.1 1 = false →
    let id := fld p.it.1 8 10
    let th := fld p.it.1 32 10
    id < 192 → th < s.nThreads →
    let s' := s.irtInput x cv mt
    s' = { s with rtr := { s.rtr with phys := s'.rtr.phys, express := s'.rtr.express } } ∧ (∀ k, k < 256 → (s'.physOf th).getLsbD k = ((s.physOf th).getLsbD k || k == id)) ∧ ∀ u, u ≠ th → s'.physOf u = s.physOf u) ∧
  (∀ (addr vmid v n : Nat) (r : LoadedRec) (s : State), s.threadOfRec addr = some n → s.loadedOn n = some r → r.vmid = vmid → v < 1024 → r.pend.getLsbD v = false →
    let x := s.postV addr vmid v
    (∃ r', x.1.loadedOn n = some r' ∧ (∀ k, k < 1024 → r'.pend.getLsbD k = (r.pend.getLsbD k || k == v)) ∧ (∀ k, k < 32 → r'.prio.getLsbD k = (r.prio.getLsbD k || k == v / 32)) ∧
      r'.addr = r.addr ∧ r'.vmid = r.vmid ∧ r'.ptable = r.ptable) ∧ x.1.rtr.bells = s.rtr.bells ++ [n] ∧ x.1.threads = s.threads) ∧
  (∀ (t : Nat) (r : LoadedRec) (s : State), t ∈ s.rtr.bells → s.loadedOn t = some r →
    exec (.doorbell t) s = .next ((s.updRtr (fun r => { r with bells := r.bells.erase t })).updThr t (fun th => { th with pendFlag := true }))) ∧
  (∀ (t : Nat) (r : LoadedRec) (s : State), s.loadedOn t = some r → s.canRun t = true → (s.thr t).pendFlag = true → (s.thr t).takeOut = false → (s.thr t).vint = none → s.virtOk t r.vmid = true →
    let s1 := s.tick.updThr t (fun th => { th with pendFlag := false, takeOut := true })
    exec (.take t) s = .next (s1.serveTake t r) ∧
    (s.vmidBlocked 4 r.vmid = true ∨ r.pend = 0 → s1.serveTake t r = s1.setTake t (some ⟨r.addr, r.vmid, none⟩)) ∧
    (s.vmidBlocked 4 r.vmid = false → ∀ v, r.pend.getLsbD v = true → (∀ k, k < v → r.pend.getLsbD k = false) →
      (s1.serveTake t r).takeOf t = some ⟨r.addr, r.vmid, some v⟩ ∧
      ∃ r', (s1.serveTake t r).loadedOn t = some r' ∧ (∀ k, r'.pend.getLsbD k = (r.pend.getLsbD k && k != v)) ∧ r'.addr = r.addr ∧ r'.vmid = r.vmid)) ∧
  (∀ (t : Nat) (k : TakeSt) (s : State), s.takeOf t = some k → (s.thr t).takeOut = true →
    let s1 := s.tick.updThr t (fun th => { th with takeOut := false })
    (k.reply = none → exec (.takeReply t) s = .next (s1.setTake t none)) ∧
    (∀ v, k.reply = some v → (s1.takeOk t k = true → exec (.takeReply t) s = .next (s1.updThr t (fun th => { th with vint := some v }))) ∧
      (s1.takeOk t k = false → exec (.takeReply t) s = .next ((s1.setTake t none).handBack k v)))) ∧
  (∀ (k : Nat) (x : Express) (s : State), s.rtr.express[k]? = some x → x.mt + 1000 ≤ s.time.mt →
    exec (.irqDeadline k) s = .next ((s.updRtr (fun r => { r with express := r.express.eraseIdx k })).post 1 ⟨0x0303, 5, 797, x.vmid, x.mt + 1000,
      BitVec.ofNat 64 (x.src.num % 2 ^ 20 + x.src.internal.toNat * 2 ^ 20 + (x.src.ev % 2 ^ 16) * 2 ^ 21 + x.id * 2 ^ 41), BitVec.ofNat 64 (s.expressLack x)⟩)) ∧
  (∀ s : State, s.memx.qosWin ≠ s.time.mt / 1000 → exec .bandwidthWindow s = .next { s with memx := { s.memx with clsWin := [], qosWin := s.time.mt / 1000 } }) ∧
  (∀ (r : Nat) (c : GalCmd) (s0 : State), let s := s0.galTurned c
    (Handed s0 r 0x0305 c → let x := s.trstStart (c.par 1 0 16) (c.par 1 16 6) (ringQueue r); exec (.tenantReset r) s0 = .next (x.1.galProve c ⟨x.2, 0, 0⟩)) ∧
    (Handed s0 r 0x0306 c → let x := s.trstRelease (c.par 1 0 16); exec (.tenantRelease r) s0 = .next (x.1.galProve c ⟨x.2, 0, 0⟩))) ∧
  (∀ (v cls q i : Nat) (s : State), (v = 0 → s.trstStart v cls q = (s, 0x11)) ∧ (∀ k, v ≠ 0 → s.slotOfVmid v = some k → s.trstGoing k = true → s.trstStart v cls q = (s, 0x14)) ∧
    (v ≠ 0 → (s.slotOfVmid v = some i ∧ s.trstGoing i = false) ∨ (s.slotOfVmid v = none ∧ (List.range 8).find? (fun i => !bit (s.slotReg i) 16) = some i) →
      s.trstStart v cls q = ((((s.setReg (a_QOS_TRST_SLOT i) (BitVec.ofNat 64 (v + 2 ^ 16 + 2 ^ 19))).updRtr (fun r => { r with trst := smSet (fun _ => none) r.trst i (some ⟨cls, s.time.mt, q, bit (s.slotReg i) 17⟩) })).trstEnter 1 v cls), 0x01)) ∧
    (s.slotOfVmid v = some i → s.trstGoing i = false → s.trstRelease v = ((s.setReg (a_QOS_TRST_SLOT i) 0).updRtr (fun r => { r with trst := smSet (fun _ => none) r.trst i none }), 0x00))) ∧
  (∀ (i : Nat) (x : TrstSt) (s : State), i < 8 → s.trstOf i = some x → s.trstGoing i = true →
    (s.trstStep i = 7 → exec (.tenantResetDone i) s = .next ((s.wf (a_QOS_TRST_SLOT i) f_QOS_TRST_SLOT_DONE 1).post x.queue ⟨0x0304, 0, 798, fld (s.slotReg i) 0 16, s.time.mt,
      BitVec.ofNat 64 (fld (s.slotReg i) 0 16 + x.cls * 2 ^ 16 + (bit (s.slotReg i) 18).toNat * 2 ^ 22), BitVec.ofNat 64 (s.time.mt - x.start)⟩)) ∧
    (x.start + 200000 ≤ s.time.mt → bit (s.slotReg i) 18 = false → exec (.resetTimeout i) s = .next ((s.wf (a_QOS_TRST_SLOT i) f_QOS_TRST_SLOT_TIMEOUT 1).post 1
      ⟨0x0305, 5, 798, fld (s.slotReg i) 0 16, s.time.mt, BitVec.ofNat 64 (s.trstStep i + x.cls * 2 ^ 16), BitVec.ofNat 64 x.start⟩)))

/-- MT_CODE_FRAME is kept until the epoch with its CRC judged; MT_EPOCH takes a good epoch, whose second in a row outside LOCKED takes up its code, or counts a bad one; EPOCH_MISSING is a bad one; REFERENCE_LOST clears REF_OK and, outside AWAIT, enters HOLDOVER, and MT_REFCLK_RETURN sets it; PTP_WAIT_EXPIRY enters PTP, PTP_SYNC sets MT and then steers it within 200 ppm, SLEW_END ends a slew. PASSAGE_PRESENT presents a passage from 2 us before F; at F, within the window, RAISE delivers its interrupt, RELEASE releases its channel, PULSE drives a pin until PULSE_END, VOTE places or withdraws the vote, SNAPSHOT latches every counter, and the berth counts a fire; SNAPSHOT_COMPLETE gives LKP_SNAP_MT. The berth, time and Sync commands are proved with the results of R373, and SYNC_IN is sampled as R374 says. -/
def Obligations.LockKeeperCommands : Prop := ∀ s : State,
  (∀ v crc, s.refOk = true → exec (.mtCodeFrame v crc) s = .next (s.updLkp (fun x => { x with frames := x.frames ++ [(s.time.refCycles, v.toNat, crc == codeCrc v)] }))) ∧
  (s.refOk = true →
    let fs := if s.lkp.seen then s.lkp.frames else s.lkp.frames.filter (fun f => decide (s.time.refCycles ≤ f.1 + 100000))
    let s1 := s.updLkp (fun x => { x with frames := [], seen := true, expect := some (s.time.refCycles + 100000) })
    (∀ f, fs.filter (fun f => f.2.2) = [f] → (∀ g, s.lkp.good = some g → s.time.refCycles = g.1 + 100000 ∧ f.2.1 = g.2 + 1000000) → (s.lkpState = 1 → f.2.1 = s.time.edge) → exec .mtEpoch s = .next (s1.goodEpoch f.2.1)) ∧
    ((fs.filter (fun f => f.2.2)).length ≠ 1 → exec .mtEpoch s = .next (s1.badEpoch 3 (BitVec.ofInt 64 (((((fs.filter (fun f => f.2.2)).head?.map (·.2.1)).getD 0 : Nat) : Int) - s.time.edge))))) ∧
  (∀ c,
    let s2 := (((s.wf a_LKP_STATUS f_LKP_STATUS_BAD_EPOCHS 0).wf a_LKP_STATUS f_LKP_STATUS_CODE_OK 1).setReg a_LKP_EPOCH (BitVec.ofNat 64 c)).updLkp (fun x => { x with good := some (s.time.refCycles, c), goodRun := x.goodRun + 1 })
    (s.lkpState = 1 ∨ s.lkp.goodRun = 0 → s.goodEpoch c = s2) ∧
    (s.lkpState ≠ 1 → 1 ≤ s.lkp.goodRun → s.goodEpoch c = ((s2.takeCode c s.time.edge).setLkpState 1).lkpEvent 0x0401 0 (BitVec.ofNat 64 s.lkpState) (BitVec.ofInt 64 ((c : Int) - s.time.edge)))) ∧
  (∀ k off, s.lkpState ≠ 1 → s.badEpoch k off = ((s.addSat a_LKP_STATUS f_LKP_STATUS_BAD_EPOCHS 1).wf a_LKP_STATUS f_LKP_STATUS_CODE_OK 0).updLkp (fun x => { x with good := none, goodRun := 0 })) ∧
  (∀ e, s.lkp.expect = some e → s.refOk = true → e < s.time.refCycles → exec .epochMissing s = .next ((s.updLkp (fun x => { x with expect := some (e + 100000) })).badEpoch 1 0)) ∧
  (s.refOk = true →
    let s1 := (s.wf a_LKP_STATUS f_LKP_STATUS_REF_OK 0).updLkp (fun x => { x with good := none, goodRun := 0, expect := none, seen := false, frames := [] })
    (s.lkpState = 0 → exec .referenceLost s = .next s1) ∧ (s.lkpState ≠ 0 → exec .referenceLost s = .next ((s1.setLkpState 2).lkpEvent 0x0403 2 1 0))) ∧
  (s.refOk = false → exec .mtRefclkReturn s = .next ((s.wf a_LKP_STATUS f_LKP_STATUS_REF_OK 1).syncSampled)) ∧
  (s.rf a_LKP_CTL f_LKP_CTL_PTP_EN = 1 → (s.lkpState = 0 ∨ s.lkpState = 2) → s.lkp.entered + s.rf a_LKP_CTL f_LKP_CTL_PTP_WAIT * 1000000 ≤ s.time.ticks →
    exec .ptpWaitExpiry s = .next (((s.setLkpState 3).updLkp (fun x => { x with ptpRuns := decide (s.lkpState = 2), ptpSet := false, ppb := 0, acc := 0 })).lkpEvent 0x0404 2 0 0)) ∧
  (∀ (t : BitVec 64) (ppb : Int), s.lkpState = 3 → (s.lkp.ptpSet = false → exec (.ptpSync t ppb) s = .next ((s.updLkp (fun x => { x with ptpSet := true, ptpRuns := true })).takeCode t.toNat s.time.mt)) ∧
    (s.lkp.ptpSet = true → ∃ k, -200000 ≤ k ∧ k ≤ 200000 ∧ (-200000 ≤ ppb → ppb ≤ 200000 → k = ppb) ∧ exec (.ptpSync t ppb) s = .next (s.updLkp (fun x => { x with ppb := k })))) ∧
  (s.lkp.ahead = 0 → exec .slewEnd s = .next (s.wf a_LKP_STATUS f_LKP_STATUS_SLEWING 0)) ∧
  (∀ b, b < 64 → s.berthArmed b = true → s.mtRuns = true → s.berthF b ≤ s.time.mt + 2000 → s.passageOf b = none → s.windowOver (s.berthF b) (s.berthTol b) = false →
    let q := fun r => ({ berth := some b, f := s.berthF b, action := s.berthAction b, target := s.berthTarget b, raise := r } : Passage)
    let put := fun (s : State) r => s.updLkp (fun x => { x with passages := x.passages ++ [q r] })
    (s.berthAction b = 0 → let x := s.tick.presentRaise b (s.berthTarget b); exec (.passagePresent b) s = .next (put x.1 x.2)) ∧
    (s.berthAction b = 1 → exec (.passagePresent b) s = .next ((put s none).brgDep (s.berthTarget b / 8))) ∧
    (s.berthAction b = 2 → exec (.passagePresent b) s = .next ((put s none).wf a_LKP_SNAP_STAT f_LKP_SNAP_STAT_PENDING 1))) ∧
  (∀ b p, s.passageOf b = some p → s.mtRuns = true →
    (p.action = 0 → p.f ≤ s.destMt p → s.passOver p b = false → let s1 := s.tick.dropPassage p; exec (.raise b) s = .next ((match p.raise with | some r => s1.raiseNow ⟨true, 0x080 + b, p.target⟩ r p.f | none => s1).berthDone b p.f)) ∧
    (p.action = 1 → p.f ≤ s.destMt p → s.passOver p b = false → s.brgOn p.target = true → (∀ q ∈ s.lkp.passages, q.action = 1 → q.target = p.target → q.f = p.f → b ≤ q.berth.getD 64) →
      exec (.release b) s = .next (((s.brgRelease p.target).dropPassage p).berthDone b p.f)) ∧
    (p.action = 2 → p.f ≤ s.time.mt → s.windowOver p.f (s.berthTol b) = false → (s.lkp.passages.find? (fun p => p.berth == some b && p.action == 2 && !s.lkp.passages.any (fun q => q.action == 2 && decide (q.f < p.f)))) = some p →
      (∀ l, s.lkp.lastSnap = some l → l + 4000 ≤ p.f) → exec (.snapshot (some b)) s = .next (((s.snapshot p.f).dropPassage p).berthDone b p.f))) ∧
  (∀ p, s.lkp.passages.find? (fun p => p.berth == none && p.action == 2 && !s.lkp.passages.any (fun q => q.action == 2 && decide (q.f < p.f))) = some p → s.mtRuns = true → p.f = s.time.mt →
    (∀ l, s.lkp.lastSnap = some l → l + 4000 ≤ p.f) → exec (.snapshot none) s = .next ((s.snapshot p.f).dropPassage p).snapAnswer) ∧
  (∀ f, s.lkp.snapDue = some f → exec .snapshotComplete s = .next ((((s.setReg a_LKP_SNAP_MT (BitVec.ofNat 64 f)).updLkp (fun x => { x with snapDue := none })).wf a_LKP_SNAP_STAT f_LKP_SNAP_STAT_SEQ
    ((s.rf a_LKP_SNAP_STAT f_LKP_SNAP_STAT_SEQ + 1) % 2 ^ 32)).wf a_LKP_SNAP_STAT f_LKP_SNAP_STAT_PENDING (s.lkp.passages.any (fun q => q.action == 2)).toNat).snapAnswer) ∧
  (∀ b, b < 64 → s.berthArmed b = true → s.mtRuns = true → s.berthF b ≤ s.time.mt → s.windowOver (s.berthF b) (s.berthTol b) = false →
    let t := s.berthTarget b
    (s.berthAction b = 3 → exec (.pulse b) s = .next ((s.updLkp (fun x => { x with pulses := x.pulses ++ [(t % 2, s.time.refCycles + natField t 8 8)] })).berthDone b (s.berthF b))) ∧
    (s.berthAction b = 4 → (∀ k, k < 64 → b < k → s.berthAction k ≠ 4) → domAbsent s.variant (t % 4096) = false →
      exec (.vote b) s = .next ((s.setVote (t % 4096) 2 (t.testBit 12)).berthDone b (s.berthF b)))) ∧
  (∀ b f, b < 64 → let s' := s.berthDone b f
    s'.rf (a_LKP_BERTH_STAT b) f_LKP_BERTH_STAT_FIRES = (s.rf (a_LKP_BERTH_STAT b) f_LKP_BERTH_STAT_FIRES + 1) % 2 ^ 32 ∧ s'.reg (a_LKP_BERTH_LAST b) = BitVec.ofNat 64 f ∧ b ∉ s'.lkp.disarm ∧
    (s.berthPeriod b = 0 → s'.berthArmed b = false) ∧ (s.berthPeriod b ≠ 0 → s'.reg (a_LKP_BERTH_FIRE b) = BitVec.ofNat 64 (f + s.berthPeriod b) ∧ (b ∉ s.lkp.disarm → s'.berthArmed b = s.berthArmed b)) ∧
    s' = { s with ccs := s'.ccs, lkp := { s.lkp with disarm := s'.lkp.disarm } }) ∧
  (∀ pin, exec (.pulseEnd pin) s = .next (s.updLkp (fun x => { x with pulses := x.pulses.filter (fun p => !(p.1 == pin && decide (p.2 ≤ s.time.refCycles))) }))) ∧
  (s.refOk = true →
    (s.lkp.syncSample = true → exec .syncInRise s = .next (s.updLkp (fun x => { x with syncPin := true }))) ∧
    (s.lkp.syncSample = false → s.rf a_LKP_SYNC_CTL f_LKP_SYNC_CTL_ARMED = 1 ∨ s.lkp.gateWas = true → exec .syncInRise s = .next
      (((((s.updLkp (fun x => { x with syncPin := true, syncSample := true, syncOut := true, gateWas := false, rose := none })).wf a_LKP_SYNC_CTL f_LKP_SYNC_CTL_ARMED 0).setReg a_LKP_SYNC_LAST (BitVec.ofNat 64 s.time.mt)).wf
        a_LKP_SYNC_STAT f_LKP_SYNC_STAT_ARRIVALS ((s.rf a_LKP_SYNC_STAT f_LKP_SYNC_STAT_ARRIVALS + 1) % 2 ^ 32)).raiseIrq 0x0C4 0)) ∧
    (s.lkp.syncSample = false → s.rf a_LKP_SYNC_CTL f_LKP_SYNC_CTL_ARMED ≠ 1 → s.lkp.gateWas = false → exec .syncInRise s = .next
      ((s.updLkp (fun x => { x with syncPin := true, syncSample := true, rose := some (s.reg a_LKP_SYNC_STAT) })).addSat a_LKP_SYNC_STAT f_LKP_SYNC_STAT_UNARMED 1)) ∧
    exec .syncInFall s = .next (s.updLkp (fun x => { x with syncPin := false, syncSample := false, syncOut := false }))) ∧
  (let t := s.rf a_LKP_SYNC_CTL f_LKP_SYNC_CTL_TIMEOUT
   s.rf a_LKP_SYNC_CTL f_LKP_SYNC_CTL_ARMED = 1 → t ≠ 0 → s.lkp.syncTold = false → s.lkp.armMt + t * 1000 ≤ s.time.mt →
    exec .syncTimeout s = .next (((s.updLkp (fun x => { x with syncTold := true })).wf a_LKP_SYNC_STAT f_LKP_SYNC_STAT_TIMED_OUT 1).lkpEvent 0x0406 5 (BitVec.ofNat 64 t) (BitVec.ofNat 64 s.lkp.armMt))) ∧
  (∀ (r : Nat) (c : GalCmd),
    let b := c.par 1 0 6
    let mine := (c.ring = 0 ∨ s.berthSec b = false) ∧ s.berthAlloc b = true
    (Handed s r 0x0401 c → c.par 1 0 16 ≠ 0 → 1 ≤ c.par 1 16 7 → c.par 1 16 7 ≤ 64 → (∀ i, (List.range 64).find? (fun i => bit (s.reg (a_LKP_QUOTA i)) 31 && fld (s.reg (a_LKP_QUOTA i)) 0 16 == c.par 1 0 16) = some i →
      exec (.berthQuotaSet r) s = .next ((s.wf (a_LKP_QUOTA i) f_LKP_QUOTA_QUOTA (c.par 1 16 7)).galProve c gDone))) ∧
    (Handed s r 0x0402 c → (c.ring = 0 ∨ c.par 1 0 16 = 0) → bit (c.word 1) 21 = false → ∀ k, (List.range 64).find? (fun b => !s.berthAlloc b && s.berthSecRange b == (c.ring == 0)) = some k →
      exec (.berthAlloc r) s = .next ((((s.clearFrame k).setReg (a_LKP_BERTH_OWNER k) (BitVec.ofNat 64 (c.par 1 0 16 + (c.ring == 0).toNat * 2 ^ 16 + 2 ^ 17 + c.par 1 16 5 * 2 ^ 18))).countHeld).galProve c ⟨0, BitVec.ofNat 64 k, 0⟩)) ∧
    (Handed s r 0x0403 c → mine → exec (.berthFree r) s = .next ((s.freeBerth b).galProve c gDone)) ∧
    (Handed s r 0x0404 c → mine → bit (c.word 1) 11 = true → s.actionOk b (c.par 1 8 3) = true → targetOk (c.par 1 8 3) (c.par 4 0 16) = true → s.rf (a_LKP_BERTH_OWNER b) f_LKP_BERTH_OWNER_FIXED = 0 →
      (c.par 3 0 48 = 0 ∨ 1000 ≤ c.par 3 0 48) →
      let s2 := (((((s.withdraw b).updLkp (fun x => { x with disarm := x.disarm.filter (fun k => k != b) })).setReg (a_LKP_BERTH_FIRE b) (c.word 2)).setReg (a_LKP_BERTH_PERIOD b) (BitVec.ofNat 64 (c.par 3 0 48))).setReg
        (a_LKP_BERTH_TARGET b) (BitVec.ofNat 64 (c.par 4 0 16))).setReg (a_LKP_BERTH_CFG b) (BitVec.ofNat 64 (1 + c.par 1 8 3 * 2 + c.par 1 16 16 * 2 ^ 16))
      (s2.armedLate b = false → exec (.berthArm r) s = .next (s2.galProve c ⟨0, c.word 2, 0⟩)) ∧
      (s2.armedLate b = true → let s3 := s2.berthMiss b 1 true; exec (.berthArm r) s = .next (s3.galProve c ⟨0x22, s3.reg (a_LKP_BERTH_FIRE b), 0⟩))) ∧
    (Handed s r 0x0405 c → mine → exec (.berthDisarm r) s = .next ((s.disarmBerth b).galProve c ⟨0, s.reg (a_LKP_BERTH_LAST b), 0⟩)) ∧
    (Handed s r 0x0406 c → mine → exec (.berthQuery r) s = .next (s.galProve c ⟨0, s.reg (a_LKP_BERTH_FIRE b), BitVec.ofNat 64 (fld (s.reg (a_LKP_BERTH_OWNER b)) 0 24 + fld (s.reg (a_LKP_BERTH_CFG b)) 0 32 * 2 ^ 24)⟩)) ∧
    (Handed s r 0x0410 c → exec (.timeStatus r) s = .next (s.galProve c ⟨0, s.reg a_LKP_STATUS, s.reg a_LKP_EPOCH⟩)) ∧
    (Handed s r 0x0411 c → exec (.timePtp r) s = .next ((s.wf a_LKP_CTL f_LKP_CTL_PTP_EN (c.par 1 0 1)).galProve c gDone)) ∧
    (Handed s r 0x0420 c → let s1 := s.syncGate (bit (c.word 1) 0); exec (.syncGate r) s = .next (s1.galProve c ⟨0, s1.reg a_LKP_SYNC_STAT, 0⟩)))

/-- MANIFEST_TAKE of a RUNNING channel whose engine serves it, where its memory need not wait, reads the 64 bytes at BASE + 64 × HEAD, checks them, adds the manifest with its code and advances HEAD, after an armed hand-over; MANIFEST_START starts the next manifest that may start, spending a credit for WAIT, and its data may move at once; MANIFEST_END moves the oldest manifest's data and writes its status, and a malformed one puts the channel into ERROR with its event. STATUS_WRITE_ACCEPTED raises the interrupt, DMA_DEADLINE reports manifests whose deadline has come, CHANNEL_STOP_COMPLETE ends a stop, DISABLE_TIMEOUT reports one of 64 us, HAND_OVER copies the shadow registers, and ENGINE_DEP_RELEASE withdraws the engine's vote after 100 us. A line is read and written as a whole at its home, and a release ends HELD or adds a credit. -/
def Obligations.BargeCommands : Prop := ∀ (c : Nat) (s : State),
  let s0 := s.tick
  let qos := fun x => (s.reqCls (brgStream c) x, devRqr (brgStream c) x)
  let takes := fun (s : State) => ((s.brgServed c).brgTake c).brgDep (c / 8)
  (s.brgArmed c = false → s.brgMayTake c = true → s.brgServes c = true → s0.holds takes = [] → exec (.manifestTake c) s = .next (takes s0)) ∧
  (c < 128 → s.brgState c = 1 → s.brgOn c = true → s.brgArmed c = true → (s.brg c).mans.length < 4 →
    let s1 := s0.brgHandOver c
    (s1.brgMayTake c = true → s1.brgServes c = true → s1.holds takes = [] → exec (.manifestTake c) s = .next (takes s1)) ∧
    (s1.brgMayTake c = false → exec (.manifestTake c) s = .next s1)) ∧
  (∀ (x : IotCtx), Untranslated (brgStream c) x s →
    let base := s.rf (a_BRG_CH_BASE (c / 8) (c % 8)) f_BRG_CH_BASE_BASE * 4096
    let a := base + 64 * s.brgHead c
    let b := s.readBytes a 64
    let lim := s.rf (a_BRG_CH_LIMIT (c / 8) (c % 8)) f_BRG_CH_LIMIT_LIMIT
    let m : Man := ⟨s.brgHead c, base, lim, (List.range 7).map (fun k => BitVec.ofNat 64 (leVal ((b.1.drop (8 * k)).take 8))), false, false, 0, 0, 0, false⟩
    DevPlain x a 64 s → b.2 = false → (∀ o ∈ s.port.out, o.kind ≠ 2 ∧ o.kind ≠ 6) → (∀ w ∈ s.port.waits, w.2.1 ≠ 6) →
    s.brgTake c = ((((s.noteTry (.read (a / 64))).countCur 224 (a / 64) (qos x).1 (qos x).2).updBrg c (fun y => { y with mans := y.mans ++ [{ m with code := m.check.getD 0 }] })).wf (brgStat c) f_BRG_CH_STAT_HEAD
      ((s.brgHead c + 1) % (lim + 1)))) ∧
  (∀ i m, s.brgNextStart c = some (i, m) → s.brgMayStart c i m = true → s.brgServes c = true →
    let s1 := if bit (m.word 0) 6 then (s0.brgServed c).wf (brgStat c) f_BRG_CH_STAT_CREDITS (s.rf (brgStat c) f_BRG_CH_STAT_CREDITS - 1) else s0.brgServed c
    let m1 := { m with started := true }
    let s2 := s1.setMan c i m1
    exec (.manifestStart c) s = .next s2 ∨ exec (.manifestStart c) s = .next (s2.unlessHeld (fun s => let r := s.brgMove c m1 none; (r.2.map (r.1.setMan c i)).getD r.1))) ∧
  (∀ m ms, (s.brg c).mans = m :: ms → s.brgState c ≠ 4 → s.brgOn c = true → s.brgServes c = true →
    (0x10 ≤ m.code →
      let s1 := (s0.brgServed c).brgLate c
      let s2 := (s1.brgEvent c 0x0802 0 (c + m.code * 2 ^ 8 + m.index * 2 ^ 16) 0).brgErr c m.code m.index
      exec (.manifestEnd c) s = .next ((((s2.brgStatus c ((s1.brg c).mans.headD m) 3 m.code 0).brgError c).brgHandNow c).brgDep (c / 8))) ∧
    (m.code < 0x10 → m.started = true → s0.holds (fun s => s.brgEndRun c m) = [] → ∀ s1 m1, (if m.moved then (s0.brgServed c, some m) else (s0.brgServed c).brgMove c m none) = (s1, some m1) →
      let s2 := (s1.setMan c 0 m1).brgLate c
      exec (.manifestEnd c) s = .next ((s2.brgFinish c ((s2.brg c).mans.headD m1)).brgDep (c / 8)))) ∧
  (∀ (x : IotCtx) (iova index d : Nat), Untranslated (brgStream c) x s → DevPlain x iova 64 s →
    ((∀ o ∈ s.port.out, o.kind ≠ 2 ∧ o.kind ≠ 6) → let b := s.readBytes iova 64; s.brgRead c index iova = ((s.noteTry (.read (iova / 64))).countCur 224 (iova / 64) (qos x).1 (qos x).2, .data (leVal b.1) b.2)) ∧
    s.brgWrite c iova d false = ((s.writeBytes iova (leBytes 64 d) (qos x).1).drainEvs (qos x).2 .write, none)) ∧
  (∀ (x : IotCtx) (m : Man) (st code n : Nat), let a := m.base + 64 * m.index + 56
    Untranslated (brgStream c) x s → DevPlain x a 8 s →
    let s1 := (s.writeBytes a (leBytes 8 (st + code * 2 ^ 8 + m.late.toNat * 2 ^ 16 + n * 2 ^ 24)) (qos x).1).drainEvs (qos x).2 .write
    let irq := bit (m.word 0) 4 && (st == 1 || st == 2)
    s.brgStatus c m st code n = ((s1.updBrg c (fun y => { y with mans := y.mans.drop 1, acks := y.acks + irq.toNat })).wf (brgStat c) f_BRG_CH_STAT_DONE_IDX
      ((m.index + 1) % (m.limit + 1))).countUnc (a_UNC_CFG_BRG (c / 8) 0) 4 none 0x062 { stream := some (brgStream c) } .none none 1) ∧
  ((s.brg c).acks ≠ 0 → exec (.statusWriteAccepted c) s = .next ((s.updBrg c (fun x => { x with acks := x.acks - 1 })).raiseIrq c 0)) ∧
  (exec (.dmaDeadline c) s = .next (s0.brgLate c) ∧
    ∀ m, (s.brg c).mans = [m] → m.late = false → m.word 6 ≠ 0 → (m.word 6).toNat ≤ s.mtAt (768 + c / 8) →
      s.brgLate c = (s.brgEvent c 0x0803 5 (c + m.index * 2 ^ 16) (m.word 6).toNat).setMan c 0 { m with late := true }) ∧
  (∀ st, (s.brg c).stop = some st → s.brgReading c = false →
    let x := State.brgCancel c 4 (s0.brgLate c) false
    exec (.channelStopComplete c) s = .next ((x.1.brgStopped c st.abort x.2).brgDep (c / 8))) ∧
  (∀ st, (s.brg c).stop = some st → st.told = false → st.start + 64000 ≤ s.time.mt → ∃ k i, k < 256 ∧ i < 65536 ∧
    exec (.disableTimeout c) s = .next (((s0.brgEvent c 0x0804 5 (c + st.abort.toNat * 2 ^ 8 + (s.brg c).mans.length * 2 ^ 16) st.start).brgErr c k i).updBrg c (fun x => { x with stop := some { st with told := true } }))) ∧
  (c < 128 → s.brgArmed c = true → (s.brgState c = 0 ∨ s.brgState c = 3 ∨ s.brgState c = 5 ∨ (s.brgState c = 1 ∧ (s.brg c).mans.length < 4)) →
    exec (.handOver c) s = .next ((s.brgHandOver c).brgDep (c / 8))) ∧
  (∀ m, s.brgBusy c = false → smGet (fun _ => none) s.brgs.idle c = some m → m + 100000 ≤ s.time.mt →
    exec (.engineDepRelease c) s = .next (({ s with brgs := { s.brgs with idle := smSet (fun _ => none) s.brgs.idle c none } } : State).setVote (768 + c) 4 false)) ∧
  (let k := s.rf (brgStat c) f_BRG_CH_STAT_CREDITS;
    (s.brgState c = 2 → s.brgRelease c = (((s.wf (a_BRG_CH_CTL (c / 8) (c % 8)) f_BRG_CH_CTL_HOLD 0).setBrgState c 1).brgDep (c / 8))) ∧
    ((s.brgState c = 1 ∨ s.brgState c = 3) → s.brgRelease c = ((if k < 15 then s.wf (brgStat c) f_BRG_CH_STAT_CREDITS (k + 1) else s.wf (brgStat c) f_BRG_CH_STAT_CREDIT_LOST 1).brgDep (c / 8))) ∧
    ((s.brgState c = 0 ∨ s.brgState c = 4 ∨ s.brgState c = 5) → s.brgRelease c = s.brgDep (c / 8)))

/-- An inbound request of a stream that translates nothing, to one line of memory and with nothing to wait for, writes the bytes, marking the line when it is poisoned, or is completed with them, or with the old value of an AtomicOp, with its payload counted; one with a PASID prefix, of an AtomicOp size not supported or for a function not active is an Unsupported Request; in the endpoint role PF0 reaches the service area and a peer window its target, counting misses. A COMPLETION in time ends its request with the data, all ones or poison, a late one is reported; a COMPLETION_TIMEOUT quarantines the tag for 2 × TIMEOUT until QUARANTINE_END. LINK_DOWN ends every request of the link and reports it, and DPC joins a hot reset; LINK_UP trains a link that DPC does not contain within MAXRATE and the lanes; PORT_HOT_RESET takes the link down. The host's function commands act by R436, R440 and R442 in the endpoint role: FLR, VF_ENABLE, VF_DISABLE, the two BUS_MASTER commands, PF0_ENABLE, HOST_PERST, and FUNC_RESET and FUNC_DISABLE_TIMEOUT end or report a disable. -/
def Obligations.PortCommands : Prop := ∀ s : State,
  let got := fun (p n : Nat) => s.tick.received p n
  let role := fun (p : Nat) => p < 8 ∨ (p = 8 ∧ s.wharfEp = false)
  (∀ (p req addr : Nat) (bs : List Byte) (c : IotCtx), role p → s.portUp p = true → let k := 65536 * p + req % 65536; let s0 := got p bs.length
    Untranslated k c s0 → DevPlain c addr bs.length s0 →
    ∀ ep, s.tick.holds (inRun p req addr (.write bs) ep false bs.length) = [] ∨ s.inLlc (addr / 64) →
      exec (.inboundWrite p req addr bs ep false false) s = .next ((s0.writeBytes addr bs (s0.reqCls k c) ep).drainEvs (devRqr k c) .write)) ∧
  (∀ (p req addr n : Nat) (c : IotCtx), role p → s.portUp p = true → let k := 65536 * p + req % 65536; let s0 := got p 0
    Untranslated k c s0 → DevPlain c addr n s0 → s.tick.holds (inRun p req addr (.read n) false false 0) = [] ∨ s.inLlc (addr / 64) → let x := s0.readBytes addr n
    exec (.inboundRead p req addr n false false) s = .next (((s0.noteTry (.read (addr / 64))).countCur 224 (addr / 64) (s0.reqCls k c) (devRqr k c)).complete (65536 * p) addr (.data x.1 x.2))) ∧
  (∀ (p req addr n : Nat) (op : DevOp) (f : Nat → Nat) (c : IotCtx), devAtom op = some (n, f) → role p → s.portUp p = true →
    let k := 65536 * p + req % 65536; let s0 := got p (match op with | .cas n _ _ => 2 * n | _ => n)
    (atomicOk op = false → exec (.inboundAtomicop p req addr op false false) s = .next (s0.complete (65536 * p) addr .unsupported)) ∧
    (atomicOk op = true → Untranslated k c s0 → DevPlain c addr n s0 →
      s.tick.holds (inRun p req addr op false false (match op with | .cas n _ _ => 2 * n | _ => n)) = [] ∨ s.inLlc (addr / 64) →
      let x := s0.readBytes addr n; let s1 := (s0.noteTry (.read (addr / 64))).countCur 224 (addr / 64) (s0.reqCls k c) (devRqr k c)
      x.2 = false → (s1.isMem (64 * (addr / 64)) = true ∧ (c.sec = true ∨ s1.lineSec (addr / 64) = false) ∧ s1.isMem addr = true) →
      exec (.inboundAtomicop p req addr op false false) s =
        .next (((s1.writeBytes addr (leBytes n (f (leVal x.1))) (s1.reqCls k c)).drainEvs (devRqr k c) .write).complete (65536 * p) addr (.data x.1 false)))) ∧
  (∀ (p req addr n : Nat) (bs : List Byte) (ep tr : Bool), p ≤ 8 → s.portUp p = true →
    exec (.inboundWrite p req addr bs ep tr true) s = .next (got p bs.length) ∧
    exec (.inboundRead p req addr n tr true) s = .next ((got p 0).complete (65536 * p) addr .unsupported)) ∧
  (s.wharfEp = true → s.portUp 8 = true → ∀ (fn addr n : Nat) (bs : List Byte) (ep tr : Bool),
    (s.fnActive fn = false → exec (.inboundWrite 8 fn addr bs ep tr false) s = .next (got 8 bs.length) ∧
      exec (.inboundRead 8 fn addr n tr false) s = .next ((got 8 0).complete (65536 * 8) addr .unsupported)) ∧
    (s.fnActive 0 = true → (s.tick.holds (inRun 8 0 addr (.write bs) ep tr bs.length) = [] → exec (.inboundWrite 8 0 addr bs ep tr false) s = .next ((got 8 bs.length).svcWrite addr bs)) ∧
      exec (.inboundRead 8 0 addr n tr false) s = .next ((got 8 0).complete (65536 * 8) addr ((got 8 0).svcRead addr n)))) ∧
  (∀ (x : Nat) (op : DevOp) (ep : Bool), s.wharfEp = true → s.portUp 8 = true → x < 2 ^ fld (BitVec.ofNat 64 s.boot.cfg1) 48 6 → s.fnActive 1 = true →
    (s.pwOf x = none → exec (.peerWindowAccess x op ep) s = .next ((s.tick.addSat a_WHF_PW_COMMIT f_WHF_PW_COMMIT_MISSES 1).complete 0x80001 x (if isWrite op then .none else .unsupported))) ∧
    (∀ w, s.pwOf x = some w → s.tick.holds (fun s0 => let r := s0.peerAccess x op ep false; r.1.complete 0x80001 x r.2) = [] → let r := s.tick.portDo 0x80001 ((s.rf (a_WHF_PW_TGT w) f_WHF_PW_TGT_TARGET * 2 ^ 20 + (x - s.rf (a_WHF_PW_CFG w) f_WHF_PW_CFG_OFFSET * 2 ^ 20)) % 2 ^ 64) op ep false
      exec (.peerWindowAccess x op ep) s = .next (r.1.complete 0x80001 x r.2))) ∧
  (∀ (p l tag st comp data : Nat) (ep : Bool) (o : OutReq), p ≤ 8 → s.linkUp p l = true → s.port.out.find? (fun o => o.port == p && o.link == l && o.tag == tag && o.res.isNone) = some o →
    let fin := exec (.completion p l tag st comp data ep) s
    (s.overdue o = true → fin = .next ((s.expire o).lateCpl p l tag comp)) ∧ (s.overdue o = false →
    (st = 0 → (o.kind = 0 ∨ o.kind = 2 ∨ o.kind = 4 ∨ o.kind = 6) → fin = .next ((s.received p o.size).outEnd o (if ep then (3, data) else (0, data % 2 ^ (8 * o.size))))) ∧
    (st = 0 → o.kind = 1 → fin = .next ((s.received p 0).endOut o)) ∧
    (st = 0 → o.cxl = true → fin = .next ((s.received p o.size).outEnd o (if ep then (3, 0) else (0, data)))) ∧
    ((st = 1 ∨ st = 2) → o.cxl = false → fin = .next ((s.received p 0).outEnd o (1, 0))) ∧
    (st = 3 → o.cxl = false → fin = .next (((s.received p 0).aerLog p l true).outEnd o (1, 0))) ∧
    (st ≠ 0 → o.cxl = true → fin = .next (((s.received p 0).cxlError (64 * o.owner) 1).outEnd o (3, 0))))) ∧
  (∀ (p l : Nat) (a : Bool), ∃ (cor : Bool) (h : Nat), (cor = true → a = true) ∧
    s.aerLog p l a = (s.updRoot p l (fun x => { x with uncor := x.uncor ||| 2 ^ 20, cor := if cor then x.cor ||| 2 ^ 13 else x.cor, hdr := h })).hostEv 0x0707 (if cor then 1 else 3) (portSource p) 0
      (l + (if cor then 13 else 20) * 2 ^ 8) (h % 2 ^ 32)) ∧
  (∀ (p l tag st comp data : Nat) (ep : Bool), p ≤ 8 → s.linkUp p l = true → s.port.out.find? (fun o => o.port == p && o.link == l && o.tag == tag && o.res.isNone) = none → s.port.quar.any (fun q => q.1 == 4 * p + l && q.2.1 == tag) = true →
    exec (.completion p l tag st comp data ep) s = .next ((((s.received p 0).countUnc (portBase p + 0x200) 8 none 0x053 {} .none none 1).addSat (portBase p + 0x18) f_RPT_CPL_STAT_LATE 1).hostEv
      0x0706 1 (portSource p) 0 (l + tag * 2 ^ 16) comp)) ∧
  (∀ (o : OutReq) (r : Nat × Nat), (o.owner = noOwner → o.kind ≠ 1 → o.kind ≠ 3 → s.outEnd o r = (s.endOut o).invBusy) ∧
    (o.owner ≠ noOwner → (o.kind = 0 ∨ o.kind = 2 ∨ o.kind = 5 ∨ o.kind = 6) → s.outEnd o r = (s.updPort (fun x => { x with out := x.out.map (fun y => if y == o then { y with res := some r } else y) })).invBusy) ∧
    (o.kind = 1 → s.outEnd o r = s.endOut o)) ∧
  (∀ (p l tag : Nat) (o : OutReq), s.port.out.find? (fun o => o.port == p && o.link == l && o.tag == tag && o.res.isNone && decide (o.issued + s.cplTimeout p ≤ s.time.mt)) = some o →
    let told := fun (s1 : State) => ((s1.updPort (fun x => { x with quar := x.quar ++ [(4 * p + l, tag, s.time.mt + 2 * s.cplTimeout p)] })).countQuar p).addSat (portBase p + 0x18) f_RPT_CPL_STAT_TIMEOUTS 1
    (o.cxl = false → exec (.completionTimeout p l tag) s = .next ((told (s.outEnd o (2, 0))).hostEv 0x0705 3 (portSource p) 0 (l + tag * 2 ^ 16 + s.cplKind o.kind * 2 ^ 28) o.addr)) ∧
    (o.cxl = true → exec (.completionTimeout p l tag) s = .next ((told (s.outEnd o (3, 0))).cxlError (64 * o.owner) 2))) ∧
  (∀ p l tag, exec (.quarantineEnd p l tag) s = .next ((s.updPort (fun x => { x with quar := x.quar.filter (fun q => !(q.1 == 4 * p + l && q.2.1 == tag && decide (q.2.2 ≤ s.time.mt))) })).countQuar p)) ∧
  (∀ (p l cause : Nat), s.linkUp p l = true →
    let os := s.lossEnds p l
    let s1 := os.foldl (fun s o => if o.cxl then (s.outEnd o (3, 0)).cxlError (64 * o.owner) 3 else s.outEnd o (1, 0)) s
    let s2 := ((s1.updPort (fun x => { x with quar := x.quar.filter (fun q => q.1 != 4 * p + l), waits := x.waits.filter (fun w => w.1 != 4 * p + l || w.2.1 == 3), loss := x.loss.filter (fun y => y.link != 4 * p + l) ++ [⟨4 * p + l, s.time.ticks, cause, os.length⟩] })).countQuar p).setReg (linkStat p l) (if cause = 2 then 4 else 0)
    let s3 := ((s2.tick.invBelow p l).hostEv 0x0703 (if cause = 1 ∨ cause = 2 then 3 else 0) (portSource p) 0 (l + cause * 2 ^ 8) os.length).portDep p
    (p ≤ 8 → 1 ≤ cause → cause ≤ 5 → exec (.linkDown p l cause) s = .next s3) ∧ (role p → (cause = 2 → exec (.portHotReset p l true) s = .next s3) ∧ (cause = 3 → exec (.portHotReset p l false) s = .next s3)) ∧
    (p = 8 → s.wharfEp = true → cause = 3 → exec (.portHotReset p l false) s = .next ((List.range 18).foldl (fun s fn => s.fnConfig fn) (s3.updPort (fun x => { x with stops := [] }))))) ∧
  (∀ (p l : Nat) (x : LinkLoss), p ≤ 8 → s.linkUp p l = false → s.port.loss.find? (fun x => x.link == 4 * p + l && x.cause == 3) = some x →
    exec (.linkDown p l 2) s = .next (((s.updPort (fun y => { y with loss := y.loss.map (fun z => if z == x then { z with cause := 2 } else z) })).setReg (linkStat p l) 4).hostEv 0x0703 3 (portSource p) 0 (l + 2 * 2 ^ 8) x.done)) ∧
  (∀ (p l rate width : Nat) (cxl : Bool), p ≤ 8 → l < 4 → s.portOn p = true → s.linkExists p l = true → s.linkUp p l = false → bit (s.reg (linkStat p l)) 2 = false → 1 ≤ rate → rate ≤ fld (s.reg (portBase p)) 4 3 → 1 ≤ width → width ≤ s.linkLanes p l →
    let c := cxl && Config.hasCxl s.variant && decide (p < 8) && l == 0
    ∃ declares : Bool, exec (.linkUp p l rate width cxl) s = .next (((((s.updPort (fun x => { x with short := x.short.filter (fun k => k != 4 * p + l) ++ (if declares then [] else [4 * p + l]), loss := x.loss.filter (fun y => y.link != 4 * p + l) })).tick.setReg (linkStat p l)
      (BitVec.ofNat 64 (1 + c.toNat * 2 + rate * 2 ^ 4 + width * 2 ^ 8))).hostEv 0x0704 0 (portSource p) 0 (l + rate * 2 ^ 4 + width * 2 ^ 8 + c.toNat * 2 ^ 13) 0).portDep p))) ∧
  (∀ fn cause, fn < 18 → let s1 := if 2 ≤ fn then s.wf (a_WHF_VF_CTL (fn - 2)) f_WHF_VF_CTL_BUSY 1 else s
    (∀ x ∈ s.port.stops, x.fn ≠ fn) → s.fnStop fn cause = s1.updPort (fun x => { x with stops := x.stops ++ [⟨fn, cause, s.time.mt, false⟩] })) ∧
  (s.wharfEp = true →
    (∀ fn, s.port.perst = true → exec (.flr fn) s = .next (s.fnStop fn 1)) ∧
    (∀ fn, fn < 18 → let bme := fun (b : Bool) => if fn = 0 then s.updPort (fun x => { x with pf0Bme := b }) else if fn = 1 then s.wf a_WHF_ROLE f_WHF_ROLE_PF1_BME b.toNat else s.wf (a_WHF_VF_CTL (fn - 2)) f_WHF_VF_CTL_BME b.toNat
      (s.fnBme fn = true → exec (.busMasterClear fn) s = .next ((bme false).fnStop fn 3)) ∧
      (s.port.perst = true → ((bme true).fnBme fn = true → exec (.busMasterEnable fn) s = .next { (bme true).updPort (fun x => { x with msixPend := x.msixPend.filter (fun m => !(m.1 == fn && (bme true).msixOpen fn m.2)) }) with
          ev := { s.ev with msix := s.ev.msix ++ s.port.msixPend.filter (fun m => m.1 == fn && (bme true).msixOpen fn m.2) } }) ∧
        (∀ all vs, exec (.busMasterEnable fn (some (all, vs))) s = exec (.busMasterEnable fn) (s.updPort (fun x => { x with masked := x.masked.filter (fun (m : Nat × Nat) => m.1 != fn) ++ vs.map (fun v => (fn, v)), maskedFn := x.maskedFn.filter (fun m => m != fn) ++ (if all then [fn] else []) }))) ∧
        ((bme true).fnBme fn = false → exec (.busMasterEnable fn) s = .next (bme true)))) ∧
    (∀ n, s.port.perst = true → n ≤ 16 → s.rf a_WHF_ROLE f_WHF_ROLE_NUMVFS < n → exec (.vfEnable n) s = .next ((List.range n).foldl (fun s v => s.wf (a_WHF_VF_CTL v) f_WHF_VF_CTL_ENABLED 1) (s.wf a_WHF_ROLE f_WHF_ROLE_NUMVFS n))) ∧
    (∀ n, n < s.rf a_WHF_ROLE f_WHF_ROLE_NUMVFS → exec (.vfDisable n) s = .next (((List.range (s.rf a_WHF_ROLE f_WHF_ROLE_NUMVFS)).filter (fun v => decide (n ≤ v))).foldl
      (fun s v => (s.wf (a_WHF_VF_CTL v) f_WHF_VF_CTL_ENABLED 0).fnStop (v + 2) 2) (s.wf a_WHF_ROLE f_WHF_ROLE_NUMVFS n))) ∧
    (s.port.perst = true → s.fnStopping 0 = false → exec .pf0Enable s = .next (((s.updPort (fun x => { x with pf0En := true })).wf (a_GAL_CTL 2) f_GAL_CTL_EN 1).wf (a_EVQ_CTL 2) f_EVQ_CTL_EN 1)) ∧
    exec (.hostPerst false) s = .next (s.updPort (fun x => { x with perst := true })) ∧
    exec (.hostPerst true) s = .next ((List.range 16).foldl (fun s v => s.setReg (a_WHF_VF_CTL v) 0) (((List.range 18).foldl (fun s fn => (s.fnOutEnd fn).fnConfig fn) s).updPort (fun x => { x with perst := false, stops := [] })))) ∧
  (∀ fn x, s.port.stops.find? (fun x => x.fn == fn) = some x →
    let s1 := s.fnOutEnd fn
    let s2 := if x.cause = 1 ∨ x.cause = 4 then s1.fnConfig fn else if x.cause = 2 then s1.wf (a_WHF_VF_CTL (fn - 2)) f_WHF_VF_CTL_BME 0 else s1
    let s3 := if 2 ≤ fn then s2.wf (a_WHF_VF_CTL (fn - 2)) f_WHF_VF_CTL_BUSY 0 else s2
    exec (.funcReset fn) s = .next ((s3.updPort (fun y => { y with stops := y.stops.filter (fun z => z.fn != fn) })).hostEv 0x0709 0 766 (s.fnVmid fn) (fn + x.cause * 2 ^ 8) (s.time.mt - x.start))) ∧
  (∀ fn x, s.port.stops.find? (fun x => x.fn == fn && !x.told && decide (x.start + 1000000 ≤ s.time.mt)) = some x →
    exec (.funcDisableTimeout fn) s = .next ((s.updPort (fun y => { y with stops := y.stops.map (fun z => if z.fn = fn then { z with told := true } else z) })).hostEv 0x070A 5 766 (s.fnVmid fn) fn x.start))

/-- MAILBOX_COMPLETE sets RESULT and clears GO: RANDOM gives four words, SHA384 writes the digest, the two verifications answer 0 or 3, a buffer outside every region answers 2 and any other OP 1; what SEAL encrypts UNSEAL opens. The debug commands of a ring are proved: a challenge gives a fresh nonce, an unlock consumes it and grants the token's enables only when every check passes, DEBUG_LOCK and the grant change the enables, a part of a token is stored; enables lapse at their EXPIRY. The JTAG instructions select their data register, an opcode that is not listed BYPASS, Test-Logic-Reset IDCODE; EXTEST only in reset or with NI, the DEBUG instructions only with an enable, each otherwise as BYPASS. The debug port reads and writes memory, thread state and registers that its enables allow and is else denied; a halt request, a step and a resume act on the named thread. WDOG_WARNING sets WARNED and raises the INTID; WDOG_EXPIRY counts, records and starts the warm reset. -/
def Obligations.TollhouseCommands : Prop := ∀ s : State,
  (∀ m, s.tol.mbx = some m →
    exec .mailboxComplete s = .next (let x := s.tick.mbxRun m; (((x.1.wf a_TOL_MBX_STAT f_TOL_MBX_STAT_RESULT x.2).wf a_TOL_MBX_CMD f_TOL_MBX_CMD_GO 0).updTol (fun y => { y with mbx := none }))) ∧
    let a := fun i => m.args.getD i 0
    (m.op = 1 → (s.mbxRun m).2 = 0 ∧ (s.mbxRun m).1 = { s with ccs := (s.mbxRun m).1.ccs } ∧ ∀ o, (∀ i, i < 4 → o ≠ a_TOL_MBX_ARG i) → (s.mbxRun m).1.reg o = s.reg o) ∧
    (m.op = 2 → s.bufOk (a 0) (a 1) = true → s.bufOk (a 2) 48 = true → s.mbxRun m = (s.writeBytes (a 2) (sha384 (s.tolRead (a 0) (a 1))) 0, 0)) ∧
    (m.op = 3 → s.bufOk (a 0) 48 = true → s.bufOk (a 1) 96 = true → s.bufOk (a 2) 96 = true → (s.mbxRun m).1 = s ∧ ((s.mbxRun m).2 = 0 ∨ (s.mbxRun m).2 = 3)) ∧
    (m.op = 4 → s.bufOk (a 0) (a 1) = true → s.bufOk (a 2) 2592 = true → s.bufOk (a 3) 4627 = true → (s.mbxRun m).1 = s ∧ ((s.mbxRun m).2 = 0 ∨ (s.mbxRun m).2 = 3)) ∧
    (2 ≤ m.op → m.op ≤ 6 → s.bufOk (a 0) (if m.op = 3 then 48 else a 1) = false → s.mbxRun m = (s, 2)) ∧
    (m.op = 6 → s.bufOk (a 0) (a 1) = true → s.bufOk (a 2) (a 1 - 28) = true → (a 1 < 28 ∨ s.lifecycle = 2) → s.mbxRun m = (s, 3)) ∧
    ((m.op = 0 ∨ 6 < m.op) → s.mbxRun m = (s, 1))) ∧
  (∀ (key : BitVec 256) (nonce bs : List Byte), nonce.length = 12 → gcmOpen key (gcmSeal key nonce bs) = some bs) ∧
  (∀ (r : Nat) (c : GalCmd),
    let nonce := smGet (fun _ => none) s.tol.nonce r
    let s1 := s.updTol (fun x => { x with nonce := smSet (fun _ => none) x.nonce r none })
    let bs := s.tokenBytes r (c.par 1 0 16)
    (Handed s r 0x0901 c → ∃ n : BitVec 128, exec (.debugChallenge r) s =
      .next ((s.tick.updTol (fun x => { x with nonce := smSet (fun _ => none) x.nonce r (some n), nonceGen := x.nonceGen + 1 })).galProve c ⟨0, n.setWidth 64, n.extractLsb' 64 64⟩)) ∧
    (Handed s r 0x0902 c →
      (leVal ((s.tokenBytes r 8).drop 4) ≠ c.par 1 0 16 → exec (.debugUnlock r) s = .next (s1.galProve c gBadParam)) ∧
      (leVal ((s.tokenBytes r 8).drop 4) = c.par 1 0 16 → s.tokenOk r bs nonce = false → exec (.debugUnlock r) s = .next (s1.galProve c gDenied)) ∧
      (leVal ((s.tokenBytes r 8).drop 4) = c.par 1 0 16 → s.tokenOk r bs nonce = true → let s2 := s1.grantDbg (leVal (bs.take 2) % 16) (leVal ((bs.drop 24).take 8))
        exec (.debugUnlock r) s = .next (s2.galProve c ⟨0, BitVec.ofNat 64 s2.dbgMask, 0⟩))) ∧
    (Handed s r 0x0903 c → ∃ e, exec (.debugStatus r) s = .next (s.tick.galProve c ⟨0, BitVec.ofNat 64 (s.dbgMask + s.lifecycle * 256), e⟩) ∧
      (s.dbgMask = 0 → e = 0) ∧ ∀ x, (∃ i, i < 4 ∧ s.dbgMask.testBit i = true) → (∀ i, i < 4 → s.dbgMask.testBit i = true → smGet (fun _ => 0) s.tol.expiry i = x) → e = BitVec.ofNat 64 x) ∧
    (Handed s r 0x0904 c → (r ≠ 0 → c.par 1 0 4 % 4 ≠ 0 → exec (.debugLock r) s = .next (s.galProve c gDenied)) ∧
      ((r = 0 ∨ c.par 1 0 4 % 4 = 0) → ∃ m, m < 16 ∧ (∀ i, i < 4 → m.testBit i = (s.dbgMask.testBit i && !(c.par 1 0 4).testBit i)) ∧
        exec (.debugLock r) s = .next ((s.setDbg m).galProve c ⟨0, BitVec.ofNat 64 (s.setDbg m).dbgMask, 0⟩))) ∧
    (Handed s r 0x0905 c → c.par 1 0 16 % 48 = 0 → c.par 1 0 16 < 8192 → exec (.debugTokenPart r) s = .next ((s.updTol (fun x => { x with
      tokens := putBytes x.tokens (r * 65536 + c.par 1 0 16) (((List.range 6).flatMap (fun i => leBytes 8 (c.word (i + 2)).toNat)).take (8192 - c.par 1 0 16)) })).galProve c gDone)) ∧
    (Handed s r 0x0906 c → ((c.word 2).toNat ≤ s.time.mt → exec (.debugGrantNormal r) s = .next (s.galProve c gBadParam)) ∧
      (s.time.mt < (c.word 2).toNat → let s2 := s.grantDbg (c.par 1 2 2 * 4) (c.word 2).toNat; exec (.debugGrantNormal r) s = .next (s2.galProve c ⟨0, BitVec.ofNat 64 s2.dbgMask, 0⟩)))) ∧
  (∃ m, m < 16 ∧ (∀ i, i < 4 → m.testBit i = (s.dbgMask.testBit i && decide (s.time.mt < smGet (fun _ => 0) s.tol.expiry i))) ∧ exec .debugEnableExpiry s = .next (s.setDbg m)) ∧
  (∀ m t, (s.setDbg m).dbgMask = m % 16 ∧ ((s.thr t).halted = true → (s.setDbg m).invasive t = false → ((s.setDbg m).thr t).halted = false)) ∧
  (exec .bypass s = .next (s.jtagIr 0xFF 0) ∧ exec .idcode s = .next (s.jtagIr 0x02 (BitVec.ofNat 64 idcode)) ∧ idcode % 2 ^ 28 = 0x92008B7 ∧ exec .bootstat s = .next (s.jtagIr 0x12 (s.reg a_GAL_BOOT_STAT)) ∧
    ((s.boot.held = true ∨ s.dbgEnabled 2 = true) → exec .extest s = .next (s.jtagIr 0x00 0)) ∧ (s.boot.held = false → s.dbgEnabled 2 = false → exec .extest s = .next (s.jtagIr 0xFF 0)) ∧
    (∀ op : BitVec 8, op ∉ [0x00#8, 0x01#8, 0x02#8, 0x10#8, 0x11#8, 0x12#8] → exec (.bypass op) s = .next (s.jtagIr 0xFF 0)) ∧
    exec (.idcode true) s = .next ((s.jtagIr 0x02 (BitVec.ofNat 64 idcode)).updJtag (fun j => { j with irCapture := s.jtag.irCapture })) ∧
    (∀ cells, (s.boot.held = true ∨ s.dbgEnabled 2 = true) → cells ≠ [] → ∃ captured : List Bool, captured.length = 7545 ∧
      exec (.extest cells) s = .next ((s.tick.jtagIr 0x00 0).updJtag (fun j => { j with bscan := (captured ++ cells).drop cells.length }))) ∧
    (∀ cells, ∃ captured : List Bool, captured.length = 7545 ∧ exec (.samplePreload cells) s = .next ((s.tick.jtagIr 0x01 0).updJtag (fun j => { j with bscan := (captured ++ cells).drop cells.length })))) ∧
  (∀ (a d : BitVec 64) (z : BitVec 2), s.debugOn = false → exec (.debugAddr a) s = .next (s.jtagIr 0xFF 0) ∧ exec (.debugRead z) s = .next (s.jtagIr 0xFF 0) ∧ exec (.debugWrite z d) s = .next (s.jtagIr 0xFF 0) ∧ exec (.debugHaltControl d) s = .next (s.jtagIr 0xFF 0)) ∧
  (s.debugOn = true →
    let ack := fun (s1 : State) (d : Word) k => (s1.jtagIr 0x10 d).updJtag (fun j => { j with data := d, ack := k })
    let s0 := s.tick
    let j := s.jtag
    let t := j.thread
    (∀ a, exec (.debugAddr a) s = .next ((s.jtagIr 0x11 a).updJtag (fun j => { j with addr := a }))) ∧
    (∀ (z : BitVec 2) d, let n := 2 ^ z.toNat
      (j.space < 4 → s.dbgMay s.dbgSec false = false → exec (.debugRead z) s = .next (ack s0 j.data 3)) ∧ (j.space < 4 → s.dbgMay s.dbgSec true = false → exec (.debugWrite z d) s = .next (ack s0 j.data 3)) ∧
      (j.space = 0 → j.at % n = 0 → s.isMem j.at = true → (s.dbgMay s.dbgSec false = true → (s.readBytes j.at n).2 = false → exec (.debugRead z) s = .next (ack s0 (BitVec.ofNat 64 (leVal (s.readBytes j.at n).1)) 0)) ∧
        (s.dbgMay s.dbgSec true = true → exec (.debugWrite z d) s = .next (ack (s0.writeBytes j.at (leBytes n d.toNat) 0) j.data 0))) ∧
      (t < s.nThreads → s.domState (s.stopOf t) = 2 →
        (j.space = 2 → (s.dbgMay s.dbgSec false = true → (sysReadLvl j.num).isSome = true → exec (.debugRead z) s = .next (ack s0 (s0.sysRead t j.num) 0)) ∧
          (s.dbgMay s.dbgSec true = true → (sysWriteLvl j.num).isSome = true → exec (.debugWrite z d) s =
            .next (ack ((s0.sysWrite t j.num d).updThr t (fun th => if j.num = 0 ∨ j.num = 0x460 then { th with loopBuf := none } else th)) j.data 0))) ∧
        (j.space = 3 → 1 ≤ j.num → j.num ≤ 31 → (s.dbgMay s.dbgSec false = true → exec (.debugRead z) s = .next (ack s0 ((s.thr t).rE (BitVec.ofNat 5 j.num)) 0)) ∧
          (s.dbgMay s.dbgSec true = true → exec (.debugWrite z d) s = .next (ack (s0.updThr t (fun th => th.wE (BitVec.ofNat 5 j.num) d)) j.data 0))))) ∧
    (∀ d, (s.dbgEnabled 0 = true ∨ s.dbgEnabled 2 = true) → (j.space = 2 ∨ j.space = 3) → t < s.nThreads →
      (bit d 1 = true → (s.thr t).halted = true → exec (.debugHaltControl d) s = .next (ack (s0.updThr t (fun th => { th with halted := false, stepOne := true })) j.data 0)) ∧
      (bit d 1 = false → bit d 0 = true → (s.thr t).waiting = false → exec (.debugHaltControl d) s = .next (ack (s0.updThr t (fun th => { th with haltReq := !th.halted })) j.data 0)) ∧
      (bit d 1 = false → bit d 0 = false → exec (.debugHaltControl d) s = .next (ack (s0.updThr t (fun th => { th with halted := false, haltReq := false })) j.data 0)))) ∧
  (s.wdogOn = true →
    (s.tol.warned = false → s.wdogTimeout - max 1 (s.wdogTimeout / 8) ≤ s.wdogMs →
      let id := s.rf a_TOL_WDOG_CTL f_TOL_WDOG_CTL_WARN_INTID
      let th := s.rf a_TOL_WDOG_CTL f_TOL_WDOG_CTL_WARN_THREAD
      let s1 := (s.wf a_TOL_WDOG_STAT f_TOL_WDOG_STAT_WARNED 1).updTol (fun x => { x with warned := true })
      (192 ≤ id → exec .wdogWarning s = .next { s1 with rtr := { s.rtr with phys := smSet (fun _ => 0) s.rtr.phys th (s.physOf th ||| (1#256 <<< id)) } }) ∧ (id < 192 → exec .wdogWarning s = .next s1)) ∧
    (s.wdogTimeout ≤ s.wdogMs → s.ev.fatalAt = none → let k := s.tol.kicker.getD 0x3FF
      exec .wdogExpiry s = .next (let s1 := (s.addSat a_TOL_WDOG_STAT f_TOL_WDOG_STAT_EXPIRIES 1).journal ⟨0x0902, 4, 1002, 0, s.time.mt, BitVec.ofNat 64 (k + s.wdogTimeout * 2 ^ 16), BitVec.ofNat 64 s.tol.kickMt⟩ 0 3 k
        { s1 with ev := { s1.ev with fatalAt := some s.time.mt } })))

/-- RAS_REPORT gives a cache, directory or core array's error its outcome and event; CORE_ARRAY_UE records the array and spares the core; CORE_SPARED moves the oldest sparing's core to its spare, SPARING_FLUSH_END ends it, CORE_RETIRE asks for one; WAY_DISABLE_COMPLETE empties, marks and reports a way. LENGTHSMAN_FAULT stops the Lengthsman and LEN_RESTART restarts it; a first broken Towpath ring and a failed clock source are reported. The management port answers ARP and ICMP for its address, announces it, takes a Galley datagram and repeats a stored proof; FW_VERIFY_DONE ends a verification. SAMPLE_RECORD writes waiting samples, BANDWIDTH_WINDOW_END completes a window's entry, LONG_VECTOR_IDLE_TIMEOUT withdraws a vote. The boot commands take the boot through its stages, or halt it, or try the other slot; the resets leave what coldReset and warmReset give; the thermal tick moves each tile's ceiling, and a thermal trip or a rail fault stops the device. -/
def Obligations.RasBootCommands : Prop := ∀ s : State,
  let s0 := s.tick
  (∀ e : RasErr, e.stop < 224 →
    (e.kind ≤ 4 → e.level ≤ 3 → e.way < arrayWays e.level → exec (.rasReport e) s = .next (s0.cacheErr e)) ∧
    (5 ≤ e.kind → e.kind ≤ 7 → e.way < 16 → exec (.rasReport e) s = .next (s0.dirErr e)) ∧
    ((e.kind = 8 ∨ e.kind = 9) → exec (.rasReport e) s = .next (s0.coreErr e)) ∧
    (let src := if e.level < 3 then e.stop else 448 + e.stop
     ∀ line dirty, s.slotOfErr e = some (line, dirty) →
      (e.kind = 0 → s.cacheErr e = (s.hostEv 0x0201 1 src 0 (rasWord2 e dirty false) (64 * line)).wayCe e.level e.stop e.way) ∧
      (e.kind = 1 → dirty = true → s.cacheErr e = (({ s with coh := ((s.coh.settle s.env line).loseCopy e line true).poisonLine ({ s with coh := s.coh.settle s.env line } : State).env line } : State).hostEv 0x0202 3 src 0 (rasWord2 e true false) (64 * line)).startDisable e.level e.stop e.way 2) ∧
      (e.kind = 1 → dirty = false → s.cacheErr e = (({ s with coh := (s.coh.settle s.env line).loseCopy e line false } : State).hostEv 0x0202 2 src 0 (rasWord2 e false false) (64 * line)).startDisable e.level e.stop e.way 2)) ∧
    (e.kind = 7 → s.dirErr e = s.fatal 0x0207 (448 + e.stop) (e.stop + e.way % 16 * 2 ^ 12 + e.set % 4096 * 2 ^ 16) 0) ∧
    (e.kind = 8 → s.coreErr e = s.addSat (a_STP_RAS_STAT e.stop) f_STP_RAS_STAT_CE_COUNT e.count)) ∧
  (∀ stop array masks, stop < 224 → s.mapped stop = true → s.domOn stop = true → s.rf (a_STP_RAS_STAT stop) f_STP_RAS_STAT_FROZEN = 0 → 1 ≤ array → array ≤ 8 →
    exec (.coreArrayUe stop array masks) s = .next (((s0.wf (a_STP_RAS_STAT stop) f_STP_RAS_STAT_UE_ARRAY array).wf (a_STP_RAS_STAT stop) f_STP_RAS_STAT_VALID 1).startSparing stop 1 (if 7 ≤ array then masks.map (· % 128) else []))) ∧
  (∀ stop cause masks, (∀ x ∈ s.ras.sparing, x.old ≠ stop) → s.mapped stop = true → cause ≠ 4 →
    let s1 := s.freeze stop ((List.range 4).filter (fun k => (masks.getD k 0).testBit 5))
    (s.rf a_GAL_RAS_CTL f_GAL_RAS_CTL_SPARE_EN = 0 → s.startSparing stop cause masks = s1.retireCore stop cause 2 s.time.mt) ∧
    (s.rf a_GAL_RAS_CTL f_GAL_RAS_CTL_SPARE_EN = 1 → s.pickSpare stop = none → s.startSparing stop cause masks = s1.retireCore stop cause 1 s.time.mt) ∧
    (s.rf a_GAL_RAS_CTL f_GAL_RAS_CTL_SPARE_EN = 1 → ∀ p, s.pickSpare stop = some p →
      s.startSparing stop cause masks = (((s1.updRas (fun x => { x with sparing := x.sparing ++ [⟨stop, s.lcoreOf stop, cause, s.time.mt, masks, p, false⟩] })).setVote p 3 true).coreDep p).coreDep stop)) ∧
  (∀ x, s.ras.sparing.find? (fun x => !x.moved) = some x → s.domState x.spare = 2 → s.gal.restart = none → (s.mtRuns = false ∨ x.since + 4 < s.time.mt) → exec (.coreSpared x.old) s = .next (s0.moveCore x)) ∧
  (∀ x, x ∈ s.ras.sparing → x.moved = true →
    let s1 := ({ s0 with coh := s0.coh.emptyStop s0.env x.old } : State).drainEvs { core := some x.old } .none
    exec (.sparingFlushEnd x.old) s = .next ((((((if s1.domOn x.old then s1.useSwitch x.old else s1).wf (a_PVC_DOM x.old) f_PVC_DOM_STATE 4).logArea).wf
      (a_STP_RAS_STAT x.old) f_STP_RAS_STAT_FROZEN 0).updRas (fun r => { r with sparing := r.sparing.filter (fun y => y.old != x.old) })))) ∧
  (∀ r c, Handed s r 0x0203 c → let s1 := s0.galTurned c
    (s.coreActive c.target = false → exec (.coreRetire r) s = .next (s1.galProve c gBusy)) ∧
    (s.coreActive c.target = true → s.pickSpare c.target = none → exec (.coreRetire r) s = .next (s1.galProve c gNoRes)) ∧
    (s.coreActive c.target = true → s.pickSpare c.target ≠ none → exec (.coreRetire r) s = .next ((s1.startSparing c.target 3 []).galProve c gAccepted))) ∧
  (∀ level stop way w, s.ras.draining.find? (fun w => w.level == level && w.stop == stop && w.way == way) = some w →
    let s1 := ({ s0 with coh := s0.emptyWay level stop way } : State).drainEvs { core := some stop } .none
    let s2 := (s1.markWay level stop way).logArea.updRas (fun x => { x with draining := x.draining.erase w })
    let s3 := s2.hostEv 0x0204 2 (if level < 3 then stop else 448 + stop) 0 (stop + level * 2 ^ 8 + way * 2 ^ 12 + w.cause * 2 ^ 16 + countBits (s2.waysOff level stop) (arrayWays level) * 2 ^ 20) 0
    exec (.wayDisableComplete level stop way) s = .next (if level < 3 then s3 else s3.sliceCheck stop)) ∧
  (∀ cause, s.gal.restart = none → 1 ≤ cause → cause ≤ 2 → 2 ≤ s.stage → exec (.lengthsmanFault cause) s = .next ((s.updGal (fun g => { g with restart := some (cause, s.time.mt) })).wf a_GAL_HEALTH f_GAL_HEALTH_STATE 2)) ∧
  (∀ cause since, s.gal.restart = some (cause, since) → s.boot.tripRec = none →
    let st := if s.stage = 8 then 1 else if s.pwr.refLost.isSome ∧ s.stage = 2 then 3 else 0
    let s2 := ((s.updGal (fun g => { g with restart := none })).wf a_GAL_HEALTH f_GAL_HEALTH_STATE st).addSat a_GAL_HEALTH f_GAL_HEALTH_RESTARTS 1
    exec .lenRestart s = .next (((s.gal.taken.filter (fun c => executorOf c.op == 0)).foldl (fun s c => s.galProve c gFailed) s2).hostEv 0x0006 2 1001 0 (s2.rf a_GAL_HEALTH f_GAL_HEALTH_RESTARTS + cause * 2 ^ 8) (s.time.mt - since))) ∧
  (∀ ring node, ring ≤ 1 → node < 288 → (∀ b ∈ s.gal.breaks, b.1 = ring ∧ b.2 ≠ node) →
    exec (.towpathBreak ring node) s = .next ((s.updGal (fun g => { g with breaks := g.breaks ++ [(ring, node)] })).hostEv 0x0005 2 1001 0 (node + ring * 2 ^ 9) 0)) ∧
  (∀ k, k ∈ s.gal.clocks → let left := s.gal.clocks.filter (fun x => x != k)
    let s1 := s.updGal (fun g => { g with clocks := left })
    let w2 := left.foldl (fun m x => m ||| 2 ^ x) 0 + k * 2 ^ 4
    exec (.towpathClockSourceFail k) s = .next (if left.length = 2 then s1.hostEv 0x0004 2 1001 0 w2 0 else s1.replaceReq 7 0x0004 1001 w2 0)) ∧
  (s.portServes = true →
    (∀ sender bytes, exec (.arpRequest s.netOf.ipv4 sender) s = .next (s.updGal (fun g => { g with sent := g.sent ++ [.arp sender] })) ∧
      exec (.icmpEcho s.netOf.ipv4 sender bytes) s = .next (s.updGal (fun g => { g with sent := g.sent ++ [.echo sender bytes] }))) ∧
    exec .mgmtLinkUp s = .next (s.updGal (fun g => { g with sent := g.sent ++ [.announce s.netOf.ipv4] })) ∧
    (∀ addr port bytes, s.netOf.galleyEn = true → bytes.length = 64 → let x := galParse bytes 2 s.time.ticks s.time.mt (some ⟨addr, port⟩)
      ((∀ k ∈ s.gal.kept, k.peer = ⟨addr, port⟩ → k.tag ≠ x.tag) → (∀ c ∈ s.gal.taken, c.net = some ⟨addr, port⟩ → c.tag ≠ x.tag) → exec (.galleyDatagram addr port bytes) s = .next (s.galAccept x)) ∧
      (∀ k, s.gal.kept.find? (fun k => k.peer == ⟨addr, port⟩ && k.tag == x.tag && decide (s.time.ticks < k.since + second)) = some k →
        exec (.galleyDatagram addr port bytes) s = .next (s.updGal (fun g => { g with sent := g.sent ++ [.udp addr port k.bytes], kept := g.kept.erase k ++ [{ k with since := s.time.ticks }] }))))) ∧
  (∀ x rest version rbMin, s.gal.verify = x :: rest → let s1 := s.updGal (fun g => { g with verify := rest })
    let done := fun (s : State) st => s.galResult x.ring 0x0803 (x.commit.getD 0) st 0
    exec (.fwVerifyDone version rbMin false) s = .next (done s1 0x20) ∧
    (x.image ≠ 2 → exec (.fwVerifyDone version rbMin true) s = .next (if rbMin < s.tol.rollback then done s1 0x12 else done (s1.writeImage (if x.image = 0 then 2 else 1) (version % 2 ^ 32) (rbMin % 64)) 0)) ∧
    (x.image = 2 → s.tol.ownerKeys = true → exec (.fwVerifyDone version rbMin true) s = .next (done s1 0x12)) ∧
    (x.image = 2 → s.tol.ownerKeys = false → s.halt ≠ 7 → exec (.fwVerifyDone version rbMin true) s =
      .next (done { s1 with tol := { s.tol with ownerKeys := true, ownerHash := ownerHashes ((List.range x.length).map (smGet (fun _ => 0) x.bytes)) } } 0))) ∧
  (∀ t e, (s.core (s.stopOf t)).sample = [e] → e.slot = t % 4 → e.fresh = false →
    exec (.sampleRecord t) s = .next ((s.updCore (s.stopOf t) (fun c => { c with sample := [] })).writeSample (s.stopOf t) e t)) ∧
  (∀ u, let off := bwCtl u
    let l := fld (s.reg off) 8 32
    let w := smGet (fun _ => 0) s.memx.bwWin u
    u < 67 → bit (s.reg off) 0 = true → (w + 1) * l ≤ s.time.mt → ∃ s', exec (.bandwidthWindowEnd u) s = .next s' ∧
      (∀ d, d < 2 → s'.reg (off + 0x100 + 0x80 * d + 8 * (w % 16)) = BitVec.ofNat 64 (smGet (fun _ => 0) s.memx.bwAcc (2 * u + d + 256 * w) % 2 ^ 48 + w % 2 ^ 16 * 2 ^ 48) ∧ smGet (fun _ => 0) s'.memx.bwAcc (2 * u + d + 256 * w) = 0) ∧
      fld (s'.reg off) 40 4 = w % 16 ∧ smGet (fun _ => 0) s'.memx.bwWin u = w + 1 ∧ s' = { s with ccs := s'.ccs, memx := { s.memx with bwAcc := s'.memx.bwAcc, bwWin := s'.memx.bwWin } }) ∧
  (∀ stop m, stop < 224 → (s.core stop).lvLast = some m → m + 1000000 ≤ s.time.mt → exec (.longVectorIdleTimeout stop) s = .next ((s.updCore stop (fun c => { c with lvLast := none })).setVote (224 + stop) 4 false)) ∧
  -- power-up, boot and resets
  exec .resetNAssert s = .next (s.coldReset.updBoot (fun b => { b with held := true, therm := false, first := none, holdUntil := 0 })) ∧
  (∀ straps : BitVec 4, s.boot.held = true → exec (.resetNRelease straps) s = .next ((((s.updBoot (fun b => { b with held := false })).setReg a_GAL_BOOT_STAT (BitVec.ofNat 64 (2 ^ 13 + straps.toNat * 2 ^ 16))).wf a_WHF_ROLE f_WHF_ROLE_ROLE (straps.toNat % 2)).startCold)) ∧
  (∀ m, s.ev.fatalAt = some m → s.notYet m = false →
    (s.boot.warm = true ∨ 6 ≤ s.stage → s.boot.railEn = true → exec .warmChipReset s = .next s.warmReset) ∧
    (s.boot.warm = false → s.stage < 6 → exec .warmChipReset s = .next (s.wearCopy.coldReset.updBoot (fun b => { b with railEn := s.boot.railEn, railGrp := s.boot.railGrp })).startCold)) ∧
  (∀ m, s.boot.coldAt = some m → s.notYet m = false → exec .coldResetCommand s = .next (s.coldReset.updBoot (fun b => { b with holdUntil := s.time.ticks + 100000000 })).startCold) ∧
  (let k := if s.boot.warm then s.boot.tolSlot else s.boot.cur
   s.booting 0 = true → (s.compOf (s.boot.slot k) 1 = none → exec .tollhouseFwVerified s = .next (s.trySlot 1)) ∧
    (∀ c, s.compOf (s.boot.slot k) 1 = some c → exec .tollhouseFwVerified s = .next (((s.updBoot (fun b => { b with tolSlot := k, tolVer := c.version, tolMin := c.rbMin })).wf a_GAL_BOOT_STAT f_GAL_BOOT_STAT_SLOT k).setStage 1))) ∧
  (let k := if s.boot.warm then s.newestSlot.getD s.boot.lenSlot else s.boot.cur
   s.booting 1 = true → (s.compOf (s.boot.slot k) 2 = none → exec .lengthsmanStart s = .next (s.trySlot 2)) ∧
    (∀ c, s.compOf (s.boot.slot k) 2 = some c →
      let s1 := (s.updBoot (fun b => { b with lenSlot := k, lenVer := c.version, lenMin := c.rbMin })).wf a_GAL_HEALTH f_GAL_HEALTH_FW_VERSION c.version
      let s2 := (if s.rf a_GAL_REPLACE f_GAL_REPLACE_CAUSES = 0 then s1 else s1.wf a_GAL_HEALTH f_GAL_HEALTH_REPLACE 1).setStage 2
      exec .lengthsmanStart s = .next (if s.pwr.refLost.isSome then s2.wf a_GAL_HEALTH f_GAL_HEALTH_STATE 3 else if s.boot.warm then s2.startFabric else s2))) ∧
  (s.booting 2 = true →
    let s1 := ((s.updPwr (fun x => { x with refLost := none })).wf a_PVC_STAT f_PVC_STAT_SYSREF_OK 1).wf a_GAL_HEALTH f_GAL_HEALTH_STATE 0
    (s.boot.warm = true → exec .referencePresent s = .next s1.startFabric) ∧
    (s.boot.warm = false → s.lifecycle = 1 → s.tol.ownerKeys = false → exec .referencePresent s = .next (s1.haltBoot 7)) ∧
    (s.boot.warm = false → (s.lifecycle ≠ 1 ∨ s.tol.ownerKeys = true) → ∀ c, s.compOf (s.boot.slot s.boot.cur) 3 = some c →
      let g := cfgOf c.word1 c.word2
      let s2 := ((s1.updBoot (fun b => { b with cfg1 := g.1, cfg2 := g.2.1 })).wf a_GAL_BOOT_STAT f_GAL_BOOT_STAT_CFG_DEFAULTED g.2.2.toNat).wf a_PVC_STAT f_PVC_STAT_LIMIT (natField g.1 32 11)
      (s.boot.railEn = true → s.boot.railGrp = 5 → exec .referencePresent s = .next s2.startFabric) ∧
      (s.boot.railEn = false → s.boot.therm = false → exec .referencePresent s = .next ((s2.setStage 3).updBoot (fun b => { b with railEn := true, railTick := s.time.ticks }))))) ∧
  (s.booting 3 = true → s.boot.railEn = true →
    (∀ g, g = (let n := s.boot.railGrp + 1; if n = 4 ∧ Config.hasHbm s.variant = false then 5 else n) → let s1 := s.updBoot (fun b => { b with railGrp := g, railTick := s.time.ticks })
      exec .railsInTolerance s = .next (if 5 ≤ g then s1.startFabric else s1)) ∧
    (∀ rail mv cause, s.railUsed rail = true → (cause = 2 ∨ (cause = 1 ∧ s.boot.railTick + 10000000 ≤ s.time.ticks)) → exec (.railEnableTimeout rail mv cause) s = .next ((s.railRecord rail cause mv).haltBoot 3))) ∧
  (s.booting 4 = true → (∀ d, d < 788 → s.domState d ≠ 1) →
    let bad := ∃ d, d < 788 ∧ s.domState d = 4 ∧ ((448 ≤ d ∧ d < 672) ∨ 784 ≤ d)
    let s1 := s.wf a_MSH_PROTO_CTL f_MSH_PROTO_CTL_HOLD_WIN (natField s.boot.cfg1 16 10)
    (bad ∨ routable s.meshFaults = false → exec .fabricReady s = .next ((s.wf a_GAL_HEALTH f_GAL_HEALTH_REPLACE 1).haltBoot 4)) ∧
    (¬bad → routable s.meshFaults = true →
      let want := fun i => s.boot.cfg1.testBit i
      let hbm := want 1 && Config.hasHbm s.variant
      let pairs := want 3 && s.variant != .gz144D
      let s2 := (((s1.wf a_MSH_PROTO_CTL f_MSH_PROTO_CTL_MODE (want 0).toNat).setReg a_MSH_MEM_CFG (BitVec.ofNat 64 (hbm.toNat + (want 2).toNat * 2 + pairs.toNat * 4))).setLocks a_MSH_PROTO_CTL 1).setLocks a_MSH_MEM_CFG 7
      let s3 := if want 1 = hbm then s2 else s2.memConfig 1000 1 0 0 0
      exec .fabricReady s = .next ((if want 3 = pairs then s3 else s3.memConfig 1000 2 0 0 0).setStage 5))) ∧
  (s.booting 5 = true → s.boot.clearing = false →
    (∀ dimms hbmBad, s.boot.warm = false → let s1 := hbmBad.foldl (fun s k => s.pcFail (k / 32) (k % 32) 1) (s.buildNodes dimms)
      ((∀ n, n < 8 → s1.rf (a_MSH_NODE n) f_MSH_NODE_VALID = 0) → exec (.memoryTrained dimms hbmBad) s = .next (s1.haltBoot 5)) ∧
      ((∃ n, n < 8 ∧ s1.rf (a_MSH_NODE n) f_MSH_NODE_VALID ≠ 0) → ∀ c, s1.compOf (s1.boot.slot s.boot.cur) 4 = some c →
        exec (.memoryTrained dimms hbmBad) s = .next (if s.boot.cfg1.testBit 4 then (s1.placeImage c).updBoot (fun b => { b with clearing := true }) else (s1.placeImage c).setStage 6))) ∧
    (s.boot.warm = true → ∀ dimms c, (∀ d ∈ dimms, d.1 ≠ 0) → s.compOf (s.boot.slot s.boot.lenSlot) 4 = some c → exec (.memoryTrained dimms []) s = .next ((s.placeImage c).setStage 6))) ∧
  (s.booting 5 = true → s.boot.clearing = true → exec .clearComplete s = .next (({ s with coh := Coh.empty }.updBoot (fun b => { b with clearing := false })).setStage 6)) ∧
  ((s.booting 6 = true ∨ s.booting 7 = true) →
    (s.strap 2 = true → s.lkpState ≠ 1 → s.lkpState ≠ 3 → exec .bootDone s = .next (s.setStage 7)) ∧
    ((s.strap 2 = false ∨ s.lkpState = 1 ∨ s.lkpState = 3) → ∃ s', exec .bootDone s = .next s' ∧ s'.stage = 8 ∧ s'.rf a_GAL_HEALTH f_GAL_HEALTH_STATE = 1 ∧ s'.rf a_GAL_BOOT_STAT f_GAL_BOOT_STAT_DURATION_US = (s.time.mt - s.boot.startMt) / 1000 % 2 ^ 32 ∧
      s'.tol = { s.tol with rollback := max s.tol.rollback (max s.boot.tolMin s.boot.lenMin) } ∧ s' = { s with ccs := s'.ccs, ev := s'.ev, tol := s'.tol, boot := { s.boot with first := none } })) ∧
  (∀ rail mv, 4 ≤ s.stage → s.boot.railEn = true → s.boot.held = false → s.railUsed rail = true → exec (.railFault rail mv) s = .next ((s.railRecord rail 3 mv).haltBoot 3)) ∧
  (∀ (tiles : List Int) io hbm, s.gal.restart = none → 2 ≤ s.stage → s.boot.thermMs ≤ s.time.mt / 1000000 →
    let old := s.reg a_GAL_THERM
    let dies := [tiles.getD 0 0, tiles.getD 1 0, tiles.getD 2 0, tiles.getD 3 0, io]
    let crit := dies.any (fun x => decide (105000 ≤ x)) || (bit old 36 && (s.boot.therm || dies.any (fun x => decide (100000 ≤ x))))
    ∃ s', exec (.thermalControlTick tiles io hbm) s = .next s' ∧ s' = { s with ccs := s'.ccs, boot := { s.boot with thermMs := s.time.mt / 1000000 + 1 } } ∧ bit (s'.reg a_GAL_THERM) 36 = crit ∧ bit (s'.reg a_GAL_THERM) 37 = bit old 37 ∧
      ∀ i, i < 4 → let c := fld old (8 * i) 8
        fld (s'.reg a_GAL_THERM) (8 * i) 8 = (if crit then 32 else if 95000 ≤ tiles.getD i 0 ∨ 95000 ≤ io then max 32 (c - 4) else if tiles.getD i 0 < 92000 ∧ c < 132 then c + 1 else c)) ∧
  (∀ (sensor : Nat) (temp : Int), s.boot.therm = false → s.boot.held = false → s.gal.restart = none → (s.stage < 3 ∨ 5 < s.stage ∨ s.boot.warm = true ∨ s.halt ≠ 0) →
    ((5 ≤ sensor ∧ sensor ≤ 9) ∨ (256 ≤ sensor ∧ sensor < 480)) → 115000 ≤ temp →
    exec (.thermalTrip sensor temp) s = .next (((s.journal ⟨0x0B01, 4, 1000, 0, s.time.mt, BitVec.ofNat 64 sensor, BitVec.ofInt 64 temp⟩ 0 1 0).setReg a_GAL_THERM
      (BitVec.ofNat 64 (0x1F20202020 + (s.reg a_GAL_THERM).toNat / 2 ^ 37 * 2 ^ 37))).updBoot (fun b => { b with therm := true, railEn := false })))

/-- Every instruction whose encoding is allocated decodes from its own word to itself, with every operand, and a word decodes to no other instruction: what a word decodes to has that word as its encoding, and is allocated (R68, R70, R73, R76 to R96). So no bit of a word is dropped, and every word outside the tables decodes to nothing. -/
def Obligations.EncodingRoundTrip : Prop :=
  (∀ (i : Instr) (w : BitVec 32), encodeEltor i = some w → unallocated i = none → ∃ t, decodeEltor t w = some (wholeOf i)) ∧
  (∀ (t : Nat) (w : BitVec 32) (i : Instr), decodeEltor t w = some i → encodeEltor i = some w ∧ unallocated i = none ∧ wholeOf i = i)
end

