-- ==== Sys2Proof/Laws/Bits.lean ====
section
/-! SUPPORT. Laws of bit fields: a field read after a field write. -/
namespace Sys2Proof.Machine

theorem natField_testBit (v lo w i : Nat) : (natField v lo w).testBit i = (decide (i < w) && v.testBit (lo + i)) := by
  simp [natField, Nat.testBit_mod_two_pow, Nat.testBit_shiftRight]

theorem fld_testBit {n : Nat} (v : BitVec n) (lo w i : Nat) : (fld v lo w).testBit i = (decide (i < w) && v.getLsbD (lo + i)) := by
  simp [fld, natField_testBit, BitVec.getLsbD]

theorem fieldMask_getLsbD (lo w i : Nat) (h : lo + w ≤ 64) : (fieldMask lo w).getLsbD i = (decide (lo ≤ i) && decide (i < lo + w)) := by
  simp only [fieldMask, BitVec.getLsbD_ofNat, Nat.testBit_shiftLeft, Nat.testBit_two_pow_sub_one]
  by_cases h1 : lo ≤ i
  · by_cases h2 : i < lo + w
    · simp [h1, h2, show i < 64 by omega, show i - lo < w by omega]
    · simp [h1, h2]; omega
  · simp [h1]

theorem setFld_getLsbD (v : Word) (lo w x i : Nat) (h : lo + w ≤ 64) :
    (setFld v lo w x).getLsbD i = if lo ≤ i ∧ i < lo + w then x.testBit (i - lo) else v.getLsbD i := by
  simp only [setFld, BitVec.getLsbD_or, BitVec.getLsbD_and, BitVec.getLsbD_not, fieldMask_getLsbD _ _ _ h, BitVec.getLsbD_ofNat,
    Nat.testBit_shiftLeft, Nat.testBit_mod_two_pow]
  by_cases h1 : lo ≤ i
  · by_cases h2 : i < lo + w
    · simp [h1, h2, show i < 64 by omega, show i - lo < w by omega]
    · by_cases h3 : i < 64
      · simp [h1, h2, h3, show ¬ (i - lo < w) by omega]
      · simp [h1, h2, h3, BitVec.getLsbD_of_ge v i (by omega)]
  · by_cases h3 : i < 64
    · simp [h1, h3]
    · simp [h1, h3, BitVec.getLsbD_of_ge v i (by omega)]

/-- A field read after it was written: the value modulo the field's width. -/
theorem fld_setFld (v : Word) (lo w x : Nat) (h : lo + w ≤ 64) : fld (setFld v lo w x) lo w = x % 2 ^ w := by
  apply Nat.eq_of_testBit_eq
  intro i
  rw [fld_testBit, setFld_getLsbD _ _ _ _ _ h, Nat.testBit_mod_two_pow]
  by_cases hi : i < w
  · simp [hi, show lo + i < lo + w by omega]
  · simp [hi]

/-- A field read after another field was written. -/
theorem fld_setFld_ne (v : Word) (lo w x lo' w' : Nat) (h : lo + w ≤ 64) (hd : lo' + w' ≤ lo ∨ lo + w ≤ lo') :
    fld (setFld v lo w x) lo' w' = fld v lo' w' := by
  apply Nat.eq_of_testBit_eq
  intro i
  rw [fld_testBit, fld_testBit, setFld_getLsbD _ _ _ _ _ h]
  by_cases hi : i < w'
  · rw [if_neg (by omega)]
  · simp [hi]

theorem fld_lt {n : Nat} (v : BitVec n) (lo w : Nat) : fld v lo w < 2 ^ w := Nat.mod_lt _ (by positivity)

/-- A bit read after a bit was written. -/
theorem bit_setBit (v : Word) (i j : Nat) (b : Bool) (h : i < 64) : bit (setBit v i b) j = if j = i then b else bit v j := by
  unfold bit setBit
  rw [setFld_getLsbD _ _ _ _ _ (by omega)]
  by_cases hj : j = i
  · subst hj; cases b <;> simp
  · rw [if_neg (by omega), if_neg hj]

/-- A bit read after a field was written beside it. -/
theorem bit_setFld_ne (v : Word) (lo w x j : Nat) (h : lo + w ≤ 64) (hj : j < lo ∨ lo + w ≤ j) : bit (setFld v lo w x) j = bit v j := by
  unfold bit
  rw [setFld_getLsbD _ _ _ _ _ h, if_neg (by omega)]

/-- A field read after a bit was written beside it. -/
theorem fld_setBit_ne (v : Word) (i lo w : Nat) (b : Bool) (h : i < 64) (hd : lo + w ≤ i ∨ i < lo) : fld (setBit v i b) lo w = fld v lo w :=
  fld_setFld_ne _ _ _ _ _ _ (by omega) (by omega)

end Sys2Proof.Machine
end

