-- ==== Sys2Proof/Laws/SparseMap.lean ====
section
/-! SUPPORT. Laws of sparse maps: a read after a write, and the canonical form kept by every write. -/
namespace Sys2Proof.Machine

theorem smFind_erase {β : Type} (m : SMap β) (k k' : Nat) :
    smFind (smErase k m) k' = if k' = k then none else smFind m k' := by
  induction m with
  | nil => simp [smErase, smFind]
  | cons e r ih =>
    obtain ⟨a, v⟩ := e
    simp only [smErase, List.filter_cons] at ih ⊢
    by_cases ha : a = k
    · subst ha; simp only [bne_self_eq_false, Bool.false_eq_true, ↓reduceIte, ih, smFind]
      by_cases hk : k' = a
      · simp [hk]
      · simp [hk, Ne.symm hk]
    · have : (a != k) = true := by simpa using ha
      simp only [this, ↓reduceIte, smFind, ih]
      by_cases hk : k' = k
      · subst hk; simp [ha]
      · simp [hk]

theorem smFind_insert {β : Type} (k : Nat) (v : β) (m : SMap β) (k' : Nat) (h : smFind m k = none) :
    smFind (smInsert k v m) k' = if k' = k then some v else smFind m k' := by
  induction m with
  | nil =>
    simp only [smInsert, smFind]
    by_cases hk : k' = k
    · simp [hk]
    · simp [hk, Ne.symm hk]
  | cons e r ih =>
    obtain ⟨a, w⟩ := e
    have hak : a ≠ k := by intro he; simp [smFind, he] at h
    have hr : smFind r k = none := by simpa [smFind, hak] using h
    simp only [smInsert]
    split
    · simp only [smFind]; by_cases hk : k' = k
      · simp [hk]
      · simp [hk, Ne.symm hk]
    · simp only [smFind, ih hr]
      by_cases hk : k' = k
      · subst hk; simp [hak]
      · simp [hk]

/-- A read after a write: the value written under its key, every other key as before. -/
theorem smGet_smSet {β : Type} [DecidableEq β] (d : Nat → β) (m : SMap β) (k : Nat) (v : β) (k' : Nat) :
    smGet d (smSet d m k v) k' = if k' = k then v else smGet d m k' := by
  by_cases hv : v = d k
  · simp only [smSet, hv, ↓reduceIte, smGet]
    rw [smFind_erase]; by_cases hk : k' = k <;> simp [hk]
  · simp only [smSet, hv, ↓reduceIte, smGet]
    rw [smFind_insert _ _ _ _ (by rw [smFind_erase]; simp), smFind_erase]
    by_cases hk : k' = k <;> simp [hk]

@[simp] theorem smGet_smSet_self {β : Type} [DecidableEq β] (d : Nat → β) (m : SMap β) (k : Nat) (v : β) :
    smGet d (smSet d m k v) k = v := by rw [smGet_smSet]; simp

theorem smGet_smSet_ne {β : Type} [DecidableEq β] (d : Nat → β) (m : SMap β) {k k' : Nat} (v : β) (h : k' ≠ k) :
    smGet d (smSet d m k v) k' = smGet d m k' := by rw [smGet_smSet]; simp [h]

@[simp] theorem smGet_nil {β : Type} (d : Nat → β) (k : Nat) : smGet d [] k = d k := rfl

theorem mem_smInsert {β : Type} (k : Nat) (v : β) (m : SMap β) (e : Nat × β) (h : e ∈ smInsert k v m) : e = (k, v) ∨ e ∈ m := by
  induction m with
  | nil => simp [smInsert] at h; exact Or.inl h
  | cons a r ih =>
    obtain ⟨x, w⟩ := a
    simp only [smInsert] at h
    split at h
    · simpa using h
    · rcases List.mem_cons.1 h with h | h
      · exact Or.inr (by simp [h])
      · rcases ih h with h | h
        · exact Or.inl h
        · exact Or.inr (by simp [h])

theorem smInsert_sorted {β : Type} (k : Nat) (v : β) (m : SMap β) (hs : m.Pairwise (fun a b => a.1 < b.1)) (hk : ∀ e ∈ m, e.1 ≠ k) :
    (smInsert k v m).Pairwise (fun a b => a.1 < b.1) := by
  induction m with
  | nil => simp [smInsert]
  | cons a r ih =>
    obtain ⟨x, w⟩ := a
    rw [List.pairwise_cons] at hs
    simp only [smInsert]
    split
    · rename_i hlt
      refine List.pairwise_cons.2 ⟨?_, List.pairwise_cons.2 hs⟩
      intro b hb
      rcases List.mem_cons.1 hb with hb | hb
      · simp [hb, hlt]
      · exact Nat.lt_trans hlt (hs.1 b hb)
    · rename_i hge
      refine List.pairwise_cons.2 ⟨?_, ih hs.2 (fun e he => hk e (by simp [he]))⟩
      intro b hb
      rcases mem_smInsert k v r b hb with hb | hb
      · subst hb; have := hk (x, w) (by simp); simp at this ⊢; omega
      · exact hs.1 b hb

/-- A write keeps the canonical form. -/
theorem smSet_wf {β : Type} [DecidableEq β] (d : Nat → β) (m : SMap β) (k : Nat) (v : β) (h : smWf d m) : smWf d (smSet d m k v) := by
  obtain ⟨hs, hd⟩ := h
  have he : (smErase k m).Pairwise (fun a b => a.1 < b.1) := hs.filter _
  have hm : ∀ e ∈ smErase k m, e.2 ≠ d e.1 := fun e h => hd e (List.mem_of_mem_filter h)
  unfold smSet
  split
  · exact ⟨he, hm⟩
  · rename_i hv
    refine ⟨smInsert_sorted _ _ _ he (fun e h => by simpa [smErase] using (List.mem_filter.1 h).2), ?_⟩
    intro e h
    rcases mem_smInsert _ _ _ _ h with h | h
    · subst h; exact hv
    · exact hm e h

/-- Entries kept by a filter are in canonical form still. -/
theorem smWf_filter {β : Type} (d : Nat → β) (m : SMap β) (p : Nat × β → Bool) (h : smWf d m) : smWf d (m.filter p) :=
  ⟨h.1.filter _, fun e he => h.2 e (List.mem_of_mem_filter he)⟩

theorem smWf_nil {β : Type} (d : Nat → β) : smWf d ([] : SMap β) := ⟨List.Pairwise.nil, by simp⟩

/-- Maps in canonical form that read alike are equal data. -/
theorem smWf_ext {β : Type} (d : Nat → β) : ∀ (m n : SMap β), smWf d m → smWf d n → (∀ k, smGet d m k = smGet d n k) → m = n := by
  have get_cons : ∀ (e : Nat × β) (r : SMap β) (k : Nat), smGet d (e :: r) k = if e.1 = k then e.2 else smGet d r k := by
    intro e r k; obtain ⟨a, v⟩ := e; simp only [smGet, smFind]; by_cases h : a = k <;> simp [h]
  have low : ∀ (r : SMap β) (k : Nat), (∀ e ∈ r, k < e.1) → smGet d r k = d k := by
    intro r; induction r with
    | nil => intro k _; rfl
    | cons e r ih => intro k h; rw [get_cons]; have := h e (by simp); rw [if_neg (by omega)]; exact ih k (fun x hx => h x (by simp [hx]))
  intro m
  induction m with
  | nil =>
    intro n _ hn h
    cases n with
    | nil => rfl
    | cons e r =>
      have := h e.1; rw [get_cons] at this; simp at this
      exact absurd this.symm (hn.2 e (by simp))
  | cons e r ih =>
    intro n hm hn h
    cases n with
    | nil =>
      have := h e.1; rw [get_cons] at this; simp at this
      exact absurd this (hm.2 e (by simp))
    | cons f t =>
      have hme := List.pairwise_cons.1 hm.1
      have hnf := List.pairwise_cons.1 hn.1
      have hef : e.1 = f.1 := by
        rcases Nat.lt_trichotomy e.1 f.1 with hl | hl | hl
        · exfalso
          have h1 := h e.1; rw [get_cons, get_cons] at h1; simp only [if_true] at h1
          rw [if_neg (by omega), low t e.1 (fun x hx => Nat.lt_trans hl (hnf.1 x hx))] at h1
          exact hm.2 e (by simp) h1
        · exact hl
        · exfalso
          have h1 := h f.1; rw [get_cons, get_cons] at h1; simp only [if_true] at h1
          rw [if_neg (by omega), low r f.1 (fun x hx => Nat.lt_trans hl (hme.1 x hx))] at h1
          exact hn.2 f (by simp) h1.symm
      have hv : e.2 = f.2 := by have h1 := h e.1; rw [get_cons, get_cons, hef] at h1; simpa using h1
      have : e = f := Prod.ext hef hv
      subst this
      congr 1
      apply ih t ⟨hme.2, fun x hx => hm.2 x (by simp [hx])⟩ ⟨hnf.2, fun x hx => hn.2 x (by simp [hx])⟩
      intro k
      by_cases hk : e.1 = k
      · subst hk; rw [low r _ hme.1, low t _ hnf.1]
      · have h1 := h k; rw [get_cons, get_cons, if_neg hk, if_neg hk] at h1; exact h1

end Sys2Proof.Machine
end

