-- ==== Sys2Proof/Laws/State.lean ====
section
/-! SUPPORT. What each named update of State leaves in each field: one lemma per field per update, and reads of threads, cores and registers after a write. -/
namespace Sys2Proof.Machine

@[simp] theorem State.setThr_pending (s : State) (t : Nat) (th : Thread) : (s.setThr t th).pending = s.pending := rfl
@[simp] theorem State.setThr_freeCtr (s : State) (t : Nat) (th : Thread) : (s.setThr t th).freeCtr = s.freeCtr := rfl
@[simp] theorem State.setThr_variant (s : State) (t : Nat) (th : Thread) : (s.setThr t th).variant = s.variant := rfl
@[simp] theorem State.setThr_ccs (s : State) (t : Nat) (th : Thread) : (s.setThr t th).ccs = s.ccs := rfl
@[simp] theorem State.setThr_locks (s : State) (t : Nat) (th : Thread) : (s.setThr t th).locks = s.locks := rfl
@[simp] theorem State.setThr_seenPages (s : State) (t : Nat) (th : Thread) : (s.setThr t th).seenPages = s.seenPages := rfl
@[simp] theorem State.setThr_cores (s : State) (t : Nat) (th : Thread) : (s.setThr t th).cores = s.cores := rfl
@[simp] theorem State.setThr_coreMap (s : State) (t : Nat) (th : Thread) : (s.setThr t th).coreMap = s.coreMap := rfl
@[simp] theorem State.setThr_sparingGen (s : State) (t : Nat) (th : Thread) : (s.setThr t th).sparingGen = s.sparingGen := rfl
@[simp] theorem State.setThr_activeCores (s : State) (t : Nat) (th : Thread) : (s.setThr t th).activeCores = s.activeCores := rfl
@[simp] theorem State.setThr_coh (s : State) (t : Nat) (th : Thread) : (s.setThr t th).coh = s.coh := rfl
@[simp] theorem State.setThr_time (s : State) (t : Nat) (th : Thread) : (s.setThr t th).time = s.time := rfl
@[simp] theorem State.setThr_ev (s : State) (t : Nat) (th : Thread) : (s.setThr t th).ev = s.ev := rfl
@[simp] theorem State.setThr_memx (s : State) (t : Nat) (th : Thread) : (s.setThr t th).memx = s.memx := rfl
@[simp] theorem State.setThr_smrKey (s : State) (t : Nat) (th : Thread) : (s.setThr t th).smrKey = s.smrKey := rfl
@[simp] theorem State.setThr_keyGen (s : State) (t : Nat) (th : Thread) : (s.setThr t th).keyGen = s.keyGen := rfl
@[simp] theorem State.setThr_pwr (s : State) (t : Nat) (th : Thread) : (s.setThr t th).pwr = s.pwr := rfl
@[simp] theorem State.setThr_port (s : State) (t : Nat) (th : Thread) : (s.setThr t th).port = s.port := rfl
@[simp] theorem State.setThr_rtr (s : State) (t : Nat) (th : Thread) : (s.setThr t th).rtr = s.rtr := rfl
@[simp] theorem State.setThr_iot (s : State) (t : Nat) (th : Thread) : (s.setThr t th).iot = s.iot := rfl
@[simp] theorem State.setThr_brgs (s : State) (t : Nat) (th : Thread) : (s.setThr t th).brgs = s.brgs := rfl
@[simp] theorem State.setThr_lkp (s : State) (t : Nat) (th : Thread) : (s.setThr t th).lkp = s.lkp := rfl
@[simp] theorem State.setThr_gal (s : State) (t : Nat) (th : Thread) : (s.setThr t th).gal = s.gal := rfl
@[simp] theorem State.setThr_tol (s : State) (t : Nat) (th : Thread) : (s.setThr t th).tol = s.tol := rfl
@[simp] theorem State.setThr_jtag (s : State) (t : Nat) (th : Thread) : (s.setThr t th).jtag = s.jtag := rfl
@[simp] theorem State.setThr_msh (s : State) (t : Nat) (th : Thread) : (s.setThr t th).msh = s.msh := rfl
@[simp] theorem State.setThr_ras (s : State) (t : Nat) (th : Thread) : (s.setThr t th).ras = s.ras := rfl
@[simp] theorem State.setThr_boot (s : State) (t : Nat) (th : Thread) : (s.setThr t th).boot = s.boot := rfl
@[simp] theorem State.setThr_core (s : State) (t : Nat) (th : Thread) (u : Nat) : (s.setThr t th).core u = s.core u := rfl
@[simp] theorem State.setThr_reg (s : State) (t : Nat) (th : Thread) (u : Nat) : (s.setThr t th).reg u = s.reg u := rfl
@[simp] theorem State.setThr_rf (s : State) (t : Nat) (th : Thread) (u : Nat) (g : FieldAt) : (s.setThr t th).rf u g = s.rf u g := rfl

@[simp] theorem State.updThr_pending (s : State) (t : Nat) (f : Thread → Thread) : (s.updThr t f).pending = s.pending := rfl
@[simp] theorem State.updThr_freeCtr (s : State) (t : Nat) (f : Thread → Thread) : (s.updThr t f).freeCtr = s.freeCtr := rfl
@[simp] theorem State.updThr_variant (s : State) (t : Nat) (f : Thread → Thread) : (s.updThr t f).variant = s.variant := rfl
@[simp] theorem State.updThr_ccs (s : State) (t : Nat) (f : Thread → Thread) : (s.updThr t f).ccs = s.ccs := rfl
@[simp] theorem State.updThr_locks (s : State) (t : Nat) (f : Thread → Thread) : (s.updThr t f).locks = s.locks := rfl
@[simp] theorem State.updThr_seenPages (s : State) (t : Nat) (f : Thread → Thread) : (s.updThr t f).seenPages = s.seenPages := rfl
@[simp] theorem State.updThr_cores (s : State) (t : Nat) (f : Thread → Thread) : (s.updThr t f).cores = s.cores := rfl
@[simp] theorem State.updThr_coreMap (s : State) (t : Nat) (f : Thread → Thread) : (s.updThr t f).coreMap = s.coreMap := rfl
@[simp] theorem State.updThr_sparingGen (s : State) (t : Nat) (f : Thread → Thread) : (s.updThr t f).sparingGen = s.sparingGen := rfl
@[simp] theorem State.updThr_activeCores (s : State) (t : Nat) (f : Thread → Thread) : (s.updThr t f).activeCores = s.activeCores := rfl
@[simp] theorem State.updThr_coh (s : State) (t : Nat) (f : Thread → Thread) : (s.updThr t f).coh = s.coh := rfl
@[simp] theorem State.updThr_time (s : State) (t : Nat) (f : Thread → Thread) : (s.updThr t f).time = s.time := rfl
@[simp] theorem State.updThr_ev (s : State) (t : Nat) (f : Thread → Thread) : (s.updThr t f).ev = s.ev := rfl
@[simp] theorem State.updThr_memx (s : State) (t : Nat) (f : Thread → Thread) : (s.updThr t f).memx = s.memx := rfl
@[simp] theorem State.updThr_smrKey (s : State) (t : Nat) (f : Thread → Thread) : (s.updThr t f).smrKey = s.smrKey := rfl
@[simp] theorem State.updThr_keyGen (s : State) (t : Nat) (f : Thread → Thread) : (s.updThr t f).keyGen = s.keyGen := rfl
@[simp] theorem State.updThr_pwr (s : State) (t : Nat) (f : Thread → Thread) : (s.updThr t f).pwr = s.pwr := rfl
@[simp] theorem State.updThr_port (s : State) (t : Nat) (f : Thread → Thread) : (s.updThr t f).port = s.port := rfl
@[simp] theorem State.updThr_rtr (s : State) (t : Nat) (f : Thread → Thread) : (s.updThr t f).rtr = s.rtr := rfl
@[simp] theorem State.updThr_iot (s : State) (t : Nat) (f : Thread → Thread) : (s.updThr t f).iot = s.iot := rfl
@[simp] theorem State.updThr_brgs (s : State) (t : Nat) (f : Thread → Thread) : (s.updThr t f).brgs = s.brgs := rfl
@[simp] theorem State.updThr_lkp (s : State) (t : Nat) (f : Thread → Thread) : (s.updThr t f).lkp = s.lkp := rfl
@[simp] theorem State.updThr_gal (s : State) (t : Nat) (f : Thread → Thread) : (s.updThr t f).gal = s.gal := rfl
@[simp] theorem State.updThr_tol (s : State) (t : Nat) (f : Thread → Thread) : (s.updThr t f).tol = s.tol := rfl
@[simp] theorem State.updThr_jtag (s : State) (t : Nat) (f : Thread → Thread) : (s.updThr t f).jtag = s.jtag := rfl
@[simp] theorem State.updThr_msh (s : State) (t : Nat) (f : Thread → Thread) : (s.updThr t f).msh = s.msh := rfl
@[simp] theorem State.updThr_ras (s : State) (t : Nat) (f : Thread → Thread) : (s.updThr t f).ras = s.ras := rfl
@[simp] theorem State.updThr_boot (s : State) (t : Nat) (f : Thread → Thread) : (s.updThr t f).boot = s.boot := rfl
@[simp] theorem State.updThr_core (s : State) (t : Nat) (f : Thread → Thread) (u : Nat) : (s.updThr t f).core u = s.core u := rfl
@[simp] theorem State.updThr_reg (s : State) (t : Nat) (f : Thread → Thread) (u : Nat) : (s.updThr t f).reg u = s.reg u := rfl
@[simp] theorem State.updThr_rf (s : State) (t : Nat) (f : Thread → Thread) (u : Nat) (g : FieldAt) : (s.updThr t f).rf u g = s.rf u g := rfl

@[simp] theorem State.setCore_pending (s : State) (p : Nat) (c : CoreSt) : (s.setCore p c).pending = s.pending := rfl
@[simp] theorem State.setCore_freeCtr (s : State) (p : Nat) (c : CoreSt) : (s.setCore p c).freeCtr = s.freeCtr := rfl
@[simp] theorem State.setCore_variant (s : State) (p : Nat) (c : CoreSt) : (s.setCore p c).variant = s.variant := rfl
@[simp] theorem State.setCore_ccs (s : State) (p : Nat) (c : CoreSt) : (s.setCore p c).ccs = s.ccs := rfl
@[simp] theorem State.setCore_locks (s : State) (p : Nat) (c : CoreSt) : (s.setCore p c).locks = s.locks := rfl
@[simp] theorem State.setCore_seenPages (s : State) (p : Nat) (c : CoreSt) : (s.setCore p c).seenPages = s.seenPages := rfl
@[simp] theorem State.setCore_threads (s : State) (p : Nat) (c : CoreSt) : (s.setCore p c).threads = s.threads := rfl
@[simp] theorem State.setCore_coreMap (s : State) (p : Nat) (c : CoreSt) : (s.setCore p c).coreMap = s.coreMap := rfl
@[simp] theorem State.setCore_sparingGen (s : State) (p : Nat) (c : CoreSt) : (s.setCore p c).sparingGen = s.sparingGen := rfl
@[simp] theorem State.setCore_activeCores (s : State) (p : Nat) (c : CoreSt) : (s.setCore p c).activeCores = s.activeCores := rfl
@[simp] theorem State.setCore_coh (s : State) (p : Nat) (c : CoreSt) : (s.setCore p c).coh = s.coh := rfl
@[simp] theorem State.setCore_time (s : State) (p : Nat) (c : CoreSt) : (s.setCore p c).time = s.time := rfl
@[simp] theorem State.setCore_ev (s : State) (p : Nat) (c : CoreSt) : (s.setCore p c).ev = s.ev := rfl
@[simp] theorem State.setCore_memx (s : State) (p : Nat) (c : CoreSt) : (s.setCore p c).memx = s.memx := rfl
@[simp] theorem State.setCore_smrKey (s : State) (p : Nat) (c : CoreSt) : (s.setCore p c).smrKey = s.smrKey := rfl
@[simp] theorem State.setCore_keyGen (s : State) (p : Nat) (c : CoreSt) : (s.setCore p c).keyGen = s.keyGen := rfl
@[simp] theorem State.setCore_pwr (s : State) (p : Nat) (c : CoreSt) : (s.setCore p c).pwr = s.pwr := rfl
@[simp] theorem State.setCore_port (s : State) (p : Nat) (c : CoreSt) : (s.setCore p c).port = s.port := rfl
@[simp] theorem State.setCore_rtr (s : State) (p : Nat) (c : CoreSt) : (s.setCore p c).rtr = s.rtr := rfl
@[simp] theorem State.setCore_iot (s : State) (p : Nat) (c : CoreSt) : (s.setCore p c).iot = s.iot := rfl
@[simp] theorem State.setCore_brgs (s : State) (p : Nat) (c : CoreSt) : (s.setCore p c).brgs = s.brgs := rfl
@[simp] theorem State.setCore_lkp (s : State) (p : Nat) (c : CoreSt) : (s.setCore p c).lkp = s.lkp := rfl
@[simp] theorem State.setCore_gal (s : State) (p : Nat) (c : CoreSt) : (s.setCore p c).gal = s.gal := rfl
@[simp] theorem State.setCore_tol (s : State) (p : Nat) (c : CoreSt) : (s.setCore p c).tol = s.tol := rfl
@[simp] theorem State.setCore_jtag (s : State) (p : Nat) (c : CoreSt) : (s.setCore p c).jtag = s.jtag := rfl
@[simp] theorem State.setCore_msh (s : State) (p : Nat) (c : CoreSt) : (s.setCore p c).msh = s.msh := rfl
@[simp] theorem State.setCore_ras (s : State) (p : Nat) (c : CoreSt) : (s.setCore p c).ras = s.ras := rfl
@[simp] theorem State.setCore_boot (s : State) (p : Nat) (c : CoreSt) : (s.setCore p c).boot = s.boot := rfl
@[simp] theorem State.setCore_thr (s : State) (p : Nat) (c : CoreSt) (u : Nat) : (s.setCore p c).thr u = s.thr u := rfl
@[simp] theorem State.setCore_reg (s : State) (p : Nat) (c : CoreSt) (u : Nat) : (s.setCore p c).reg u = s.reg u := rfl
@[simp] theorem State.setCore_rf (s : State) (p : Nat) (c : CoreSt) (u : Nat) (g : FieldAt) : (s.setCore p c).rf u g = s.rf u g := rfl

@[simp] theorem State.updCore_pending (s : State) (p : Nat) (f : CoreSt → CoreSt) : (s.updCore p f).pending = s.pending := rfl
@[simp] theorem State.updCore_freeCtr (s : State) (p : Nat) (f : CoreSt → CoreSt) : (s.updCore p f).freeCtr = s.freeCtr := rfl
@[simp] theorem State.updCore_variant (s : State) (p : Nat) (f : CoreSt → CoreSt) : (s.updCore p f).variant = s.variant := rfl
@[simp] theorem State.updCore_ccs (s : State) (p : Nat) (f : CoreSt → CoreSt) : (s.updCore p f).ccs = s.ccs := rfl
@[simp] theorem State.updCore_locks (s : State) (p : Nat) (f : CoreSt → CoreSt) : (s.updCore p f).locks = s.locks := rfl
@[simp] theorem State.updCore_seenPages (s : State) (p : Nat) (f : CoreSt → CoreSt) : (s.updCore p f).seenPages = s.seenPages := rfl
@[simp] theorem State.updCore_threads (s : State) (p : Nat) (f : CoreSt → CoreSt) : (s.updCore p f).threads = s.threads := rfl
@[simp] theorem State.updCore_coreMap (s : State) (p : Nat) (f : CoreSt → CoreSt) : (s.updCore p f).coreMap = s.coreMap := rfl
@[simp] theorem State.updCore_sparingGen (s : State) (p : Nat) (f : CoreSt → CoreSt) : (s.updCore p f).sparingGen = s.sparingGen := rfl
@[simp] theorem State.updCore_activeCores (s : State) (p : Nat) (f : CoreSt → CoreSt) : (s.updCore p f).activeCores = s.activeCores := rfl
@[simp] theorem State.updCore_coh (s : State) (p : Nat) (f : CoreSt → CoreSt) : (s.updCore p f).coh = s.coh := rfl
@[simp] theorem State.updCore_time (s : State) (p : Nat) (f : CoreSt → CoreSt) : (s.updCore p f).time = s.time := rfl
@[simp] theorem State.updCore_ev (s : State) (p : Nat) (f : CoreSt → CoreSt) : (s.updCore p f).ev = s.ev := rfl
@[simp] theorem State.updCore_memx (s : State) (p : Nat) (f : CoreSt → CoreSt) : (s.updCore p f).memx = s.memx := rfl
@[simp] theorem State.updCore_smrKey (s : State) (p : Nat) (f : CoreSt → CoreSt) : (s.updCore p f).smrKey = s.smrKey := rfl
@[simp] theorem State.updCore_keyGen (s : State) (p : Nat) (f : CoreSt → CoreSt) : (s.updCore p f).keyGen = s.keyGen := rfl
@[simp] theorem State.updCore_pwr (s : State) (p : Nat) (f : CoreSt → CoreSt) : (s.updCore p f).pwr = s.pwr := rfl
@[simp] theorem State.updCore_port (s : State) (p : Nat) (f : CoreSt → CoreSt) : (s.updCore p f).port = s.port := rfl
@[simp] theorem State.updCore_rtr (s : State) (p : Nat) (f : CoreSt → CoreSt) : (s.updCore p f).rtr = s.rtr := rfl
@[simp] theorem State.updCore_iot (s : State) (p : Nat) (f : CoreSt → CoreSt) : (s.updCore p f).iot = s.iot := rfl
@[simp] theorem State.updCore_brgs (s : State) (p : Nat) (f : CoreSt → CoreSt) : (s.updCore p f).brgs = s.brgs := rfl
@[simp] theorem State.updCore_lkp (s : State) (p : Nat) (f : CoreSt → CoreSt) : (s.updCore p f).lkp = s.lkp := rfl
@[simp] theorem State.updCore_gal (s : State) (p : Nat) (f : CoreSt → CoreSt) : (s.updCore p f).gal = s.gal := rfl
@[simp] theorem State.updCore_tol (s : State) (p : Nat) (f : CoreSt → CoreSt) : (s.updCore p f).tol = s.tol := rfl
@[simp] theorem State.updCore_jtag (s : State) (p : Nat) (f : CoreSt → CoreSt) : (s.updCore p f).jtag = s.jtag := rfl
@[simp] theorem State.updCore_msh (s : State) (p : Nat) (f : CoreSt → CoreSt) : (s.updCore p f).msh = s.msh := rfl
@[simp] theorem State.updCore_ras (s : State) (p : Nat) (f : CoreSt → CoreSt) : (s.updCore p f).ras = s.ras := rfl
@[simp] theorem State.updCore_boot (s : State) (p : Nat) (f : CoreSt → CoreSt) : (s.updCore p f).boot = s.boot := rfl
@[simp] theorem State.updCore_thr (s : State) (p : Nat) (f : CoreSt → CoreSt) (u : Nat) : (s.updCore p f).thr u = s.thr u := rfl
@[simp] theorem State.updCore_reg (s : State) (p : Nat) (f : CoreSt → CoreSt) (u : Nat) : (s.updCore p f).reg u = s.reg u := rfl
@[simp] theorem State.updCore_rf (s : State) (p : Nat) (f : CoreSt → CoreSt) (u : Nat) (g : FieldAt) : (s.updCore p f).rf u g = s.rf u g := rfl

@[simp] theorem State.tick_pending (s : State) : (s.tick).pending = s.pending := rfl
@[simp] theorem State.tick_variant (s : State) : (s.tick).variant = s.variant := rfl
@[simp] theorem State.tick_ccs (s : State) : (s.tick).ccs = s.ccs := rfl
@[simp] theorem State.tick_locks (s : State) : (s.tick).locks = s.locks := rfl
@[simp] theorem State.tick_seenPages (s : State) : (s.tick).seenPages = s.seenPages := rfl
@[simp] theorem State.tick_threads (s : State) : (s.tick).threads = s.threads := rfl
@[simp] theorem State.tick_cores (s : State) : (s.tick).cores = s.cores := rfl
@[simp] theorem State.tick_coreMap (s : State) : (s.tick).coreMap = s.coreMap := rfl
@[simp] theorem State.tick_sparingGen (s : State) : (s.tick).sparingGen = s.sparingGen := rfl
@[simp] theorem State.tick_activeCores (s : State) : (s.tick).activeCores = s.activeCores := rfl
@[simp] theorem State.tick_coh (s : State) : (s.tick).coh = s.coh := rfl
@[simp] theorem State.tick_time (s : State) : (s.tick).time = s.time := rfl
@[simp] theorem State.tick_ev (s : State) : (s.tick).ev = s.ev := rfl
@[simp] theorem State.tick_memx (s : State) : (s.tick).memx = s.memx := rfl
@[simp] theorem State.tick_smrKey (s : State) : (s.tick).smrKey = s.smrKey := rfl
@[simp] theorem State.tick_keyGen (s : State) : (s.tick).keyGen = s.keyGen := rfl
@[simp] theorem State.tick_pwr (s : State) : (s.tick).pwr = s.pwr := rfl
@[simp] theorem State.tick_port (s : State) : (s.tick).port = s.port := rfl
@[simp] theorem State.tick_rtr (s : State) : (s.tick).rtr = s.rtr := rfl
@[simp] theorem State.tick_iot (s : State) : (s.tick).iot = s.iot := rfl
@[simp] theorem State.tick_brgs (s : State) : (s.tick).brgs = s.brgs := rfl
@[simp] theorem State.tick_lkp (s : State) : (s.tick).lkp = s.lkp := rfl
@[simp] theorem State.tick_gal (s : State) : (s.tick).gal = s.gal := rfl
@[simp] theorem State.tick_tol (s : State) : (s.tick).tol = s.tol := rfl
@[simp] theorem State.tick_jtag (s : State) : (s.tick).jtag = s.jtag := rfl
@[simp] theorem State.tick_msh (s : State) : (s.tick).msh = s.msh := rfl
@[simp] theorem State.tick_ras (s : State) : (s.tick).ras = s.ras := rfl
@[simp] theorem State.tick_boot (s : State) : (s.tick).boot = s.boot := rfl
@[simp] theorem State.tick_thr (s : State)  (u : Nat) : (s.tick).thr u = s.thr u := rfl
@[simp] theorem State.tick_core (s : State)  (u : Nat) : (s.tick).core u = s.core u := rfl
@[simp] theorem State.tick_reg (s : State)  (u : Nat) : (s.tick).reg u = s.reg u := rfl
@[simp] theorem State.tick_rf (s : State)  (u : Nat) (g : FieldAt) : (s.tick).rf u g = s.rf u g := rfl

@[simp] theorem State.setReg_pending (s : State) (o : Nat) (v : Word) : (s.setReg o v).pending = s.pending := rfl
@[simp] theorem State.setReg_freeCtr (s : State) (o : Nat) (v : Word) : (s.setReg o v).freeCtr = s.freeCtr := rfl
@[simp] theorem State.setReg_variant (s : State) (o : Nat) (v : Word) : (s.setReg o v).variant = s.variant := rfl
@[simp] theorem State.setReg_locks (s : State) (o : Nat) (v : Word) : (s.setReg o v).locks = s.locks := rfl
@[simp] theorem State.setReg_seenPages (s : State) (o : Nat) (v : Word) : (s.setReg o v).seenPages = s.seenPages := rfl
@[simp] theorem State.setReg_threads (s : State) (o : Nat) (v : Word) : (s.setReg o v).threads = s.threads := rfl
@[simp] theorem State.setReg_cores (s : State) (o : Nat) (v : Word) : (s.setReg o v).cores = s.cores := rfl
@[simp] theorem State.setReg_coreMap (s : State) (o : Nat) (v : Word) : (s.setReg o v).coreMap = s.coreMap := rfl
@[simp] theorem State.setReg_sparingGen (s : State) (o : Nat) (v : Word) : (s.setReg o v).sparingGen = s.sparingGen := rfl
@[simp] theorem State.setReg_activeCores (s : State) (o : Nat) (v : Word) : (s.setReg o v).activeCores = s.activeCores := rfl
@[simp] theorem State.setReg_coh (s : State) (o : Nat) (v : Word) : (s.setReg o v).coh = s.coh := rfl
@[simp] theorem State.setReg_time (s : State) (o : Nat) (v : Word) : (s.setReg o v).time = s.time := rfl
@[simp] theorem State.setReg_ev (s : State) (o : Nat) (v : Word) : (s.setReg o v).ev = s.ev := rfl
@[simp] theorem State.setReg_memx (s : State) (o : Nat) (v : Word) : (s.setReg o v).memx = s.memx := rfl
@[simp] theorem State.setReg_smrKey (s : State) (o : Nat) (v : Word) : (s.setReg o v).smrKey = s.smrKey := rfl
@[simp] theorem State.setReg_keyGen (s : State) (o : Nat) (v : Word) : (s.setReg o v).keyGen = s.keyGen := rfl
@[simp] theorem State.setReg_pwr (s : State) (o : Nat) (v : Word) : (s.setReg o v).pwr = s.pwr := rfl
@[simp] theorem State.setReg_port (s : State) (o : Nat) (v : Word) : (s.setReg o v).port = s.port := rfl
@[simp] theorem State.setReg_rtr (s : State) (o : Nat) (v : Word) : (s.setReg o v).rtr = s.rtr := rfl
@[simp] theorem State.setReg_iot (s : State) (o : Nat) (v : Word) : (s.setReg o v).iot = s.iot := rfl
@[simp] theorem State.setReg_brgs (s : State) (o : Nat) (v : Word) : (s.setReg o v).brgs = s.brgs := rfl
@[simp] theorem State.setReg_lkp (s : State) (o : Nat) (v : Word) : (s.setReg o v).lkp = s.lkp := rfl
@[simp] theorem State.setReg_gal (s : State) (o : Nat) (v : Word) : (s.setReg o v).gal = s.gal := rfl
@[simp] theorem State.setReg_tol (s : State) (o : Nat) (v : Word) : (s.setReg o v).tol = s.tol := rfl
@[simp] theorem State.setReg_jtag (s : State) (o : Nat) (v : Word) : (s.setReg o v).jtag = s.jtag := rfl
@[simp] theorem State.setReg_msh (s : State) (o : Nat) (v : Word) : (s.setReg o v).msh = s.msh := rfl
@[simp] theorem State.setReg_ras (s : State) (o : Nat) (v : Word) : (s.setReg o v).ras = s.ras := rfl
@[simp] theorem State.setReg_boot (s : State) (o : Nat) (v : Word) : (s.setReg o v).boot = s.boot := rfl
@[simp] theorem State.setReg_thr (s : State) (o : Nat) (v : Word) (u : Nat) : (s.setReg o v).thr u = s.thr u := rfl
@[simp] theorem State.setReg_core (s : State) (o : Nat) (v : Word) (u : Nat) : (s.setReg o v).core u = s.core u := rfl

@[simp] theorem State.wf_pending (s : State) (o : Nat) (f : FieldAt) (x : Nat) : (s.wf o f x).pending = s.pending := rfl
@[simp] theorem State.wf_freeCtr (s : State) (o : Nat) (f : FieldAt) (x : Nat) : (s.wf o f x).freeCtr = s.freeCtr := rfl
@[simp] theorem State.wf_variant (s : State) (o : Nat) (f : FieldAt) (x : Nat) : (s.wf o f x).variant = s.variant := rfl
@[simp] theorem State.wf_locks (s : State) (o : Nat) (f : FieldAt) (x : Nat) : (s.wf o f x).locks = s.locks := rfl
@[simp] theorem State.wf_seenPages (s : State) (o : Nat) (f : FieldAt) (x : Nat) : (s.wf o f x).seenPages = s.seenPages := rfl
@[simp] theorem State.wf_threads (s : State) (o : Nat) (f : FieldAt) (x : Nat) : (s.wf o f x).threads = s.threads := rfl
@[simp] theorem State.wf_cores (s : State) (o : Nat) (f : FieldAt) (x : Nat) : (s.wf o f x).cores = s.cores := rfl
@[simp] theorem State.wf_coreMap (s : State) (o : Nat) (f : FieldAt) (x : Nat) : (s.wf o f x).coreMap = s.coreMap := rfl
@[simp] theorem State.wf_sparingGen (s : State) (o : Nat) (f : FieldAt) (x : Nat) : (s.wf o f x).sparingGen = s.sparingGen := rfl
@[simp] theorem State.wf_activeCores (s : State) (o : Nat) (f : FieldAt) (x : Nat) : (s.wf o f x).activeCores = s.activeCores := rfl
@[simp] theorem State.wf_coh (s : State) (o : Nat) (f : FieldAt) (x : Nat) : (s.wf o f x).coh = s.coh := rfl
@[simp] theorem State.wf_time (s : State) (o : Nat) (f : FieldAt) (x : Nat) : (s.wf o f x).time = s.time := rfl
@[simp] theorem State.wf_ev (s : State) (o : Nat) (f : FieldAt) (x : Nat) : (s.wf o f x).ev = s.ev := rfl
@[simp] theorem State.wf_memx (s : State) (o : Nat) (f : FieldAt) (x : Nat) : (s.wf o f x).memx = s.memx := rfl
@[simp] theorem State.wf_smrKey (s : State) (o : Nat) (f : FieldAt) (x : Nat) : (s.wf o f x).smrKey = s.smrKey := rfl
@[simp] theorem State.wf_keyGen (s : State) (o : Nat) (f : FieldAt) (x : Nat) : (s.wf o f x).keyGen = s.keyGen := rfl
@[simp] theorem State.wf_pwr (s : State) (o : Nat) (f : FieldAt) (x : Nat) : (s.wf o f x).pwr = s.pwr := rfl
@[simp] theorem State.wf_port (s : State) (o : Nat) (f : FieldAt) (x : Nat) : (s.wf o f x).port = s.port := rfl
@[simp] theorem State.wf_rtr (s : State) (o : Nat) (f : FieldAt) (x : Nat) : (s.wf o f x).rtr = s.rtr := rfl
@[simp] theorem State.wf_iot (s : State) (o : Nat) (f : FieldAt) (x : Nat) : (s.wf o f x).iot = s.iot := rfl
@[simp] theorem State.wf_brgs (s : State) (o : Nat) (f : FieldAt) (x : Nat) : (s.wf o f x).brgs = s.brgs := rfl
@[simp] theorem State.wf_lkp (s : State) (o : Nat) (f : FieldAt) (x : Nat) : (s.wf o f x).lkp = s.lkp := rfl
@[simp] theorem State.wf_gal (s : State) (o : Nat) (f : FieldAt) (x : Nat) : (s.wf o f x).gal = s.gal := rfl
@[simp] theorem State.wf_tol (s : State) (o : Nat) (f : FieldAt) (x : Nat) : (s.wf o f x).tol = s.tol := rfl
@[simp] theorem State.wf_jtag (s : State) (o : Nat) (f : FieldAt) (x : Nat) : (s.wf o f x).jtag = s.jtag := rfl
@[simp] theorem State.wf_msh (s : State) (o : Nat) (f : FieldAt) (x : Nat) : (s.wf o f x).msh = s.msh := rfl
@[simp] theorem State.wf_ras (s : State) (o : Nat) (f : FieldAt) (x : Nat) : (s.wf o f x).ras = s.ras := rfl
@[simp] theorem State.wf_boot (s : State) (o : Nat) (f : FieldAt) (x : Nat) : (s.wf o f x).boot = s.boot := rfl
@[simp] theorem State.wf_thr (s : State) (o : Nat) (f : FieldAt) (x : Nat) (u : Nat) : (s.wf o f x).thr u = s.thr u := rfl
@[simp] theorem State.wf_core (s : State) (o : Nat) (f : FieldAt) (x : Nat) (u : Nat) : (s.wf o f x).core u = s.core u := rfl

@[simp] theorem State.addSat_pending (s : State) (o : Nat) (f : FieldAt) (n : Nat) : (s.addSat o f n).pending = s.pending := rfl
@[simp] theorem State.addSat_freeCtr (s : State) (o : Nat) (f : FieldAt) (n : Nat) : (s.addSat o f n).freeCtr = s.freeCtr := rfl
@[simp] theorem State.addSat_variant (s : State) (o : Nat) (f : FieldAt) (n : Nat) : (s.addSat o f n).variant = s.variant := rfl
@[simp] theorem State.addSat_locks (s : State) (o : Nat) (f : FieldAt) (n : Nat) : (s.addSat o f n).locks = s.locks := rfl
@[simp] theorem State.addSat_seenPages (s : State) (o : Nat) (f : FieldAt) (n : Nat) : (s.addSat o f n).seenPages = s.seenPages := rfl
@[simp] theorem State.addSat_threads (s : State) (o : Nat) (f : FieldAt) (n : Nat) : (s.addSat o f n).threads = s.threads := rfl
@[simp] theorem State.addSat_cores (s : State) (o : Nat) (f : FieldAt) (n : Nat) : (s.addSat o f n).cores = s.cores := rfl
@[simp] theorem State.addSat_coreMap (s : State) (o : Nat) (f : FieldAt) (n : Nat) : (s.addSat o f n).coreMap = s.coreMap := rfl
@[simp] theorem State.addSat_sparingGen (s : State) (o : Nat) (f : FieldAt) (n : Nat) : (s.addSat o f n).sparingGen = s.sparingGen := rfl
@[simp] theorem State.addSat_activeCores (s : State) (o : Nat) (f : FieldAt) (n : Nat) : (s.addSat o f n).activeCores = s.activeCores := rfl
@[simp] theorem State.addSat_coh (s : State) (o : Nat) (f : FieldAt) (n : Nat) : (s.addSat o f n).coh = s.coh := rfl
@[simp] theorem State.addSat_time (s : State) (o : Nat) (f : FieldAt) (n : Nat) : (s.addSat o f n).time = s.time := rfl
@[simp] theorem State.addSat_ev (s : State) (o : Nat) (f : FieldAt) (n : Nat) : (s.addSat o f n).ev = s.ev := rfl
@[simp] theorem State.addSat_memx (s : State) (o : Nat) (f : FieldAt) (n : Nat) : (s.addSat o f n).memx = s.memx := rfl
@[simp] theorem State.addSat_smrKey (s : State) (o : Nat) (f : FieldAt) (n : Nat) : (s.addSat o f n).smrKey = s.smrKey := rfl
@[simp] theorem State.addSat_keyGen (s : State) (o : Nat) (f : FieldAt) (n : Nat) : (s.addSat o f n).keyGen = s.keyGen := rfl
@[simp] theorem State.addSat_pwr (s : State) (o : Nat) (f : FieldAt) (n : Nat) : (s.addSat o f n).pwr = s.pwr := rfl
@[simp] theorem State.addSat_port (s : State) (o : Nat) (f : FieldAt) (n : Nat) : (s.addSat o f n).port = s.port := rfl
@[simp] theorem State.addSat_rtr (s : State) (o : Nat) (f : FieldAt) (n : Nat) : (s.addSat o f n).rtr = s.rtr := rfl
@[simp] theorem State.addSat_iot (s : State) (o : Nat) (f : FieldAt) (n : Nat) : (s.addSat o f n).iot = s.iot := rfl
@[simp] theorem State.addSat_brgs (s : State) (o : Nat) (f : FieldAt) (n : Nat) : (s.addSat o f n).brgs = s.brgs := rfl
@[simp] theorem State.addSat_lkp (s : State) (o : Nat) (f : FieldAt) (n : Nat) : (s.addSat o f n).lkp = s.lkp := rfl
@[simp] theorem State.addSat_gal (s : State) (o : Nat) (f : FieldAt) (n : Nat) : (s.addSat o f n).gal = s.gal := rfl
@[simp] theorem State.addSat_tol (s : State) (o : Nat) (f : FieldAt) (n : Nat) : (s.addSat o f n).tol = s.tol := rfl
@[simp] theorem State.addSat_jtag (s : State) (o : Nat) (f : FieldAt) (n : Nat) : (s.addSat o f n).jtag = s.jtag := rfl
@[simp] theorem State.addSat_msh (s : State) (o : Nat) (f : FieldAt) (n : Nat) : (s.addSat o f n).msh = s.msh := rfl
@[simp] theorem State.addSat_ras (s : State) (o : Nat) (f : FieldAt) (n : Nat) : (s.addSat o f n).ras = s.ras := rfl
@[simp] theorem State.addSat_boot (s : State) (o : Nat) (f : FieldAt) (n : Nat) : (s.addSat o f n).boot = s.boot := rfl
@[simp] theorem State.addSat_thr (s : State) (o : Nat) (f : FieldAt) (n : Nat) (u : Nat) : (s.addSat o f n).thr u = s.thr u := rfl
@[simp] theorem State.addSat_core (s : State) (o : Nat) (f : FieldAt) (n : Nat) (u : Nat) : (s.addSat o f n).core u = s.core u := rfl

@[simp] theorem State.setLocks_pending (s : State) (o : Nat) (l : Word) : (s.setLocks o l).pending = s.pending := rfl
@[simp] theorem State.setLocks_freeCtr (s : State) (o : Nat) (l : Word) : (s.setLocks o l).freeCtr = s.freeCtr := rfl
@[simp] theorem State.setLocks_variant (s : State) (o : Nat) (l : Word) : (s.setLocks o l).variant = s.variant := rfl
@[simp] theorem State.setLocks_ccs (s : State) (o : Nat) (l : Word) : (s.setLocks o l).ccs = s.ccs := rfl
@[simp] theorem State.setLocks_seenPages (s : State) (o : Nat) (l : Word) : (s.setLocks o l).seenPages = s.seenPages := rfl
@[simp] theorem State.setLocks_threads (s : State) (o : Nat) (l : Word) : (s.setLocks o l).threads = s.threads := rfl
@[simp] theorem State.setLocks_cores (s : State) (o : Nat) (l : Word) : (s.setLocks o l).cores = s.cores := rfl
@[simp] theorem State.setLocks_coreMap (s : State) (o : Nat) (l : Word) : (s.setLocks o l).coreMap = s.coreMap := rfl
@[simp] theorem State.setLocks_sparingGen (s : State) (o : Nat) (l : Word) : (s.setLocks o l).sparingGen = s.sparingGen := rfl
@[simp] theorem State.setLocks_activeCores (s : State) (o : Nat) (l : Word) : (s.setLocks o l).activeCores = s.activeCores := rfl
@[simp] theorem State.setLocks_coh (s : State) (o : Nat) (l : Word) : (s.setLocks o l).coh = s.coh := rfl
@[simp] theorem State.setLocks_time (s : State) (o : Nat) (l : Word) : (s.setLocks o l).time = s.time := rfl
@[simp] theorem State.setLocks_ev (s : State) (o : Nat) (l : Word) : (s.setLocks o l).ev = s.ev := rfl
@[simp] theorem State.setLocks_memx (s : State) (o : Nat) (l : Word) : (s.setLocks o l).memx = s.memx := rfl
@[simp] theorem State.setLocks_smrKey (s : State) (o : Nat) (l : Word) : (s.setLocks o l).smrKey = s.smrKey := rfl
@[simp] theorem State.setLocks_keyGen (s : State) (o : Nat) (l : Word) : (s.setLocks o l).keyGen = s.keyGen := rfl
@[simp] theorem State.setLocks_pwr (s : State) (o : Nat) (l : Word) : (s.setLocks o l).pwr = s.pwr := rfl
@[simp] theorem State.setLocks_port (s : State) (o : Nat) (l : Word) : (s.setLocks o l).port = s.port := rfl
@[simp] theorem State.setLocks_rtr (s : State) (o : Nat) (l : Word) : (s.setLocks o l).rtr = s.rtr := rfl
@[simp] theorem State.setLocks_iot (s : State) (o : Nat) (l : Word) : (s.setLocks o l).iot = s.iot := rfl
@[simp] theorem State.setLocks_brgs (s : State) (o : Nat) (l : Word) : (s.setLocks o l).brgs = s.brgs := rfl
@[simp] theorem State.setLocks_lkp (s : State) (o : Nat) (l : Word) : (s.setLocks o l).lkp = s.lkp := rfl
@[simp] theorem State.setLocks_gal (s : State) (o : Nat) (l : Word) : (s.setLocks o l).gal = s.gal := rfl
@[simp] theorem State.setLocks_tol (s : State) (o : Nat) (l : Word) : (s.setLocks o l).tol = s.tol := rfl
@[simp] theorem State.setLocks_jtag (s : State) (o : Nat) (l : Word) : (s.setLocks o l).jtag = s.jtag := rfl
@[simp] theorem State.setLocks_msh (s : State) (o : Nat) (l : Word) : (s.setLocks o l).msh = s.msh := rfl
@[simp] theorem State.setLocks_ras (s : State) (o : Nat) (l : Word) : (s.setLocks o l).ras = s.ras := rfl
@[simp] theorem State.setLocks_boot (s : State) (o : Nat) (l : Word) : (s.setLocks o l).boot = s.boot := rfl
@[simp] theorem State.setLocks_thr (s : State) (o : Nat) (l : Word) (u : Nat) : (s.setLocks o l).thr u = s.thr u := rfl
@[simp] theorem State.setLocks_core (s : State) (o : Nat) (l : Word) (u : Nat) : (s.setLocks o l).core u = s.core u := rfl
@[simp] theorem State.setLocks_reg (s : State) (o : Nat) (l : Word) (u : Nat) : (s.setLocks o l).reg u = s.reg u := rfl
@[simp] theorem State.setLocks_rf (s : State) (o : Nat) (l : Word) (u : Nat) (g : FieldAt) : (s.setLocks o l).rf u g = s.rf u g := rfl

@[simp] theorem State.setEvq_pending (s : State) (q : Nat) (x : EvqSt) : (s.setEvq q x).pending = s.pending := rfl
@[simp] theorem State.setEvq_freeCtr (s : State) (q : Nat) (x : EvqSt) : (s.setEvq q x).freeCtr = s.freeCtr := rfl
@[simp] theorem State.setEvq_variant (s : State) (q : Nat) (x : EvqSt) : (s.setEvq q x).variant = s.variant := rfl
@[simp] theorem State.setEvq_ccs (s : State) (q : Nat) (x : EvqSt) : (s.setEvq q x).ccs = s.ccs := rfl
@[simp] theorem State.setEvq_locks (s : State) (q : Nat) (x : EvqSt) : (s.setEvq q x).locks = s.locks := rfl
@[simp] theorem State.setEvq_seenPages (s : State) (q : Nat) (x : EvqSt) : (s.setEvq q x).seenPages = s.seenPages := rfl
@[simp] theorem State.setEvq_threads (s : State) (q : Nat) (x : EvqSt) : (s.setEvq q x).threads = s.threads := rfl
@[simp] theorem State.setEvq_cores (s : State) (q : Nat) (x : EvqSt) : (s.setEvq q x).cores = s.cores := rfl
@[simp] theorem State.setEvq_coreMap (s : State) (q : Nat) (x : EvqSt) : (s.setEvq q x).coreMap = s.coreMap := rfl
@[simp] theorem State.setEvq_sparingGen (s : State) (q : Nat) (x : EvqSt) : (s.setEvq q x).sparingGen = s.sparingGen := rfl
@[simp] theorem State.setEvq_activeCores (s : State) (q : Nat) (x : EvqSt) : (s.setEvq q x).activeCores = s.activeCores := rfl
@[simp] theorem State.setEvq_coh (s : State) (q : Nat) (x : EvqSt) : (s.setEvq q x).coh = s.coh := rfl
@[simp] theorem State.setEvq_time (s : State) (q : Nat) (x : EvqSt) : (s.setEvq q x).time = s.time := rfl
@[simp] theorem State.setEvq_memx (s : State) (q : Nat) (x : EvqSt) : (s.setEvq q x).memx = s.memx := rfl
@[simp] theorem State.setEvq_smrKey (s : State) (q : Nat) (x : EvqSt) : (s.setEvq q x).smrKey = s.smrKey := rfl
@[simp] theorem State.setEvq_keyGen (s : State) (q : Nat) (x : EvqSt) : (s.setEvq q x).keyGen = s.keyGen := rfl
@[simp] theorem State.setEvq_pwr (s : State) (q : Nat) (x : EvqSt) : (s.setEvq q x).pwr = s.pwr := rfl
@[simp] theorem State.setEvq_port (s : State) (q : Nat) (x : EvqSt) : (s.setEvq q x).port = s.port := rfl
@[simp] theorem State.setEvq_rtr (s : State) (q : Nat) (x : EvqSt) : (s.setEvq q x).rtr = s.rtr := rfl
@[simp] theorem State.setEvq_iot (s : State) (q : Nat) (x : EvqSt) : (s.setEvq q x).iot = s.iot := rfl
@[simp] theorem State.setEvq_brgs (s : State) (q : Nat) (x : EvqSt) : (s.setEvq q x).brgs = s.brgs := rfl
@[simp] theorem State.setEvq_lkp (s : State) (q : Nat) (x : EvqSt) : (s.setEvq q x).lkp = s.lkp := rfl
@[simp] theorem State.setEvq_gal (s : State) (q : Nat) (x : EvqSt) : (s.setEvq q x).gal = s.gal := rfl
@[simp] theorem State.setEvq_tol (s : State) (q : Nat) (x : EvqSt) : (s.setEvq q x).tol = s.tol := rfl
@[simp] theorem State.setEvq_jtag (s : State) (q : Nat) (x : EvqSt) : (s.setEvq q x).jtag = s.jtag := rfl
@[simp] theorem State.setEvq_msh (s : State) (q : Nat) (x : EvqSt) : (s.setEvq q x).msh = s.msh := rfl
@[simp] theorem State.setEvq_ras (s : State) (q : Nat) (x : EvqSt) : (s.setEvq q x).ras = s.ras := rfl
@[simp] theorem State.setEvq_boot (s : State) (q : Nat) (x : EvqSt) : (s.setEvq q x).boot = s.boot := rfl
@[simp] theorem State.setEvq_thr (s : State) (q : Nat) (x : EvqSt) (u : Nat) : (s.setEvq q x).thr u = s.thr u := rfl
@[simp] theorem State.setEvq_core (s : State) (q : Nat) (x : EvqSt) (u : Nat) : (s.setEvq q x).core u = s.core u := rfl
@[simp] theorem State.setEvq_reg (s : State) (q : Nat) (x : EvqSt) (u : Nat) : (s.setEvq q x).reg u = s.reg u := rfl
@[simp] theorem State.setEvq_rf (s : State) (q : Nat) (x : EvqSt) (u : Nat) (g : FieldAt) : (s.setEvq q x).rf u g = s.rf u g := rfl

@[simp] theorem State.raiseIrq_pending (s : State) (a b : Nat) : (s.raiseIrq a b).pending = s.pending := rfl
@[simp] theorem State.raiseIrq_freeCtr (s : State) (a b : Nat) : (s.raiseIrq a b).freeCtr = s.freeCtr := rfl
@[simp] theorem State.raiseIrq_variant (s : State) (a b : Nat) : (s.raiseIrq a b).variant = s.variant := rfl
@[simp] theorem State.raiseIrq_ccs (s : State) (a b : Nat) : (s.raiseIrq a b).ccs = s.ccs := rfl
@[simp] theorem State.raiseIrq_locks (s : State) (a b : Nat) : (s.raiseIrq a b).locks = s.locks := rfl
@[simp] theorem State.raiseIrq_seenPages (s : State) (a b : Nat) : (s.raiseIrq a b).seenPages = s.seenPages := rfl
@[simp] theorem State.raiseIrq_threads (s : State) (a b : Nat) : (s.raiseIrq a b).threads = s.threads := rfl
@[simp] theorem State.raiseIrq_cores (s : State) (a b : Nat) : (s.raiseIrq a b).cores = s.cores := rfl
@[simp] theorem State.raiseIrq_coreMap (s : State) (a b : Nat) : (s.raiseIrq a b).coreMap = s.coreMap := rfl
@[simp] theorem State.raiseIrq_sparingGen (s : State) (a b : Nat) : (s.raiseIrq a b).sparingGen = s.sparingGen := rfl
@[simp] theorem State.raiseIrq_activeCores (s : State) (a b : Nat) : (s.raiseIrq a b).activeCores = s.activeCores := rfl
@[simp] theorem State.raiseIrq_coh (s : State) (a b : Nat) : (s.raiseIrq a b).coh = s.coh := rfl
@[simp] theorem State.raiseIrq_time (s : State) (a b : Nat) : (s.raiseIrq a b).time = s.time := rfl
@[simp] theorem State.raiseIrq_memx (s : State) (a b : Nat) : (s.raiseIrq a b).memx = s.memx := rfl
@[simp] theorem State.raiseIrq_smrKey (s : State) (a b : Nat) : (s.raiseIrq a b).smrKey = s.smrKey := rfl
@[simp] theorem State.raiseIrq_keyGen (s : State) (a b : Nat) : (s.raiseIrq a b).keyGen = s.keyGen := rfl
@[simp] theorem State.raiseIrq_pwr (s : State) (a b : Nat) : (s.raiseIrq a b).pwr = s.pwr := rfl
@[simp] theorem State.raiseIrq_port (s : State) (a b : Nat) : (s.raiseIrq a b).port = s.port := rfl
@[simp] theorem State.raiseIrq_rtr (s : State) (a b : Nat) : (s.raiseIrq a b).rtr = s.rtr := rfl
@[simp] theorem State.raiseIrq_iot (s : State) (a b : Nat) : (s.raiseIrq a b).iot = s.iot := rfl
@[simp] theorem State.raiseIrq_brgs (s : State) (a b : Nat) : (s.raiseIrq a b).brgs = s.brgs := rfl
@[simp] theorem State.raiseIrq_lkp (s : State) (a b : Nat) : (s.raiseIrq a b).lkp = s.lkp := rfl
@[simp] theorem State.raiseIrq_gal (s : State) (a b : Nat) : (s.raiseIrq a b).gal = s.gal := rfl
@[simp] theorem State.raiseIrq_tol (s : State) (a b : Nat) : (s.raiseIrq a b).tol = s.tol := rfl
@[simp] theorem State.raiseIrq_jtag (s : State) (a b : Nat) : (s.raiseIrq a b).jtag = s.jtag := rfl
@[simp] theorem State.raiseIrq_msh (s : State) (a b : Nat) : (s.raiseIrq a b).msh = s.msh := rfl
@[simp] theorem State.raiseIrq_ras (s : State) (a b : Nat) : (s.raiseIrq a b).ras = s.ras := rfl
@[simp] theorem State.raiseIrq_boot (s : State) (a b : Nat) : (s.raiseIrq a b).boot = s.boot := rfl
@[simp] theorem State.raiseIrq_thr (s : State) (a b : Nat) (u : Nat) : (s.raiseIrq a b).thr u = s.thr u := rfl
@[simp] theorem State.raiseIrq_core (s : State) (a b : Nat) (u : Nat) : (s.raiseIrq a b).core u = s.core u := rfl
@[simp] theorem State.raiseIrq_reg (s : State) (a b : Nat) (u : Nat) : (s.raiseIrq a b).reg u = s.reg u := rfl
@[simp] theorem State.raiseIrq_rf (s : State) (a b : Nat) (u : Nat) (g : FieldAt) : (s.raiseIrq a b).rf u g = s.rf u g := rfl

@[simp] theorem State.journal_pending (s : State) (r : EvRec) (a b c : Nat) : (s.journal r a b c).pending = s.pending := rfl
@[simp] theorem State.journal_freeCtr (s : State) (r : EvRec) (a b c : Nat) : (s.journal r a b c).freeCtr = s.freeCtr := rfl
@[simp] theorem State.journal_variant (s : State) (r : EvRec) (a b c : Nat) : (s.journal r a b c).variant = s.variant := rfl
@[simp] theorem State.journal_ccs (s : State) (r : EvRec) (a b c : Nat) : (s.journal r a b c).ccs = s.ccs := rfl
@[simp] theorem State.journal_locks (s : State) (r : EvRec) (a b c : Nat) : (s.journal r a b c).locks = s.locks := rfl
@[simp] theorem State.journal_seenPages (s : State) (r : EvRec) (a b c : Nat) : (s.journal r a b c).seenPages = s.seenPages := rfl
@[simp] theorem State.journal_threads (s : State) (r : EvRec) (a b c : Nat) : (s.journal r a b c).threads = s.threads := rfl
@[simp] theorem State.journal_cores (s : State) (r : EvRec) (a b c : Nat) : (s.journal r a b c).cores = s.cores := rfl
@[simp] theorem State.journal_coreMap (s : State) (r : EvRec) (a b c : Nat) : (s.journal r a b c).coreMap = s.coreMap := rfl
@[simp] theorem State.journal_sparingGen (s : State) (r : EvRec) (a b c : Nat) : (s.journal r a b c).sparingGen = s.sparingGen := rfl
@[simp] theorem State.journal_activeCores (s : State) (r : EvRec) (a b c : Nat) : (s.journal r a b c).activeCores = s.activeCores := rfl
@[simp] theorem State.journal_coh (s : State) (r : EvRec) (a b c : Nat) : (s.journal r a b c).coh = s.coh := rfl
@[simp] theorem State.journal_time (s : State) (r : EvRec) (a b c : Nat) : (s.journal r a b c).time = s.time := rfl
@[simp] theorem State.journal_memx (s : State) (r : EvRec) (a b c : Nat) : (s.journal r a b c).memx = s.memx := rfl
@[simp] theorem State.journal_smrKey (s : State) (r : EvRec) (a b c : Nat) : (s.journal r a b c).smrKey = s.smrKey := rfl
@[simp] theorem State.journal_keyGen (s : State) (r : EvRec) (a b c : Nat) : (s.journal r a b c).keyGen = s.keyGen := rfl
@[simp] theorem State.journal_pwr (s : State) (r : EvRec) (a b c : Nat) : (s.journal r a b c).pwr = s.pwr := rfl
@[simp] theorem State.journal_port (s : State) (r : EvRec) (a b c : Nat) : (s.journal r a b c).port = s.port := rfl
@[simp] theorem State.journal_rtr (s : State) (r : EvRec) (a b c : Nat) : (s.journal r a b c).rtr = s.rtr := rfl
@[simp] theorem State.journal_iot (s : State) (r : EvRec) (a b c : Nat) : (s.journal r a b c).iot = s.iot := rfl
@[simp] theorem State.journal_brgs (s : State) (r : EvRec) (a b c : Nat) : (s.journal r a b c).brgs = s.brgs := rfl
@[simp] theorem State.journal_lkp (s : State) (r : EvRec) (a b c : Nat) : (s.journal r a b c).lkp = s.lkp := rfl
@[simp] theorem State.journal_gal (s : State) (r : EvRec) (a b c : Nat) : (s.journal r a b c).gal = s.gal := rfl
@[simp] theorem State.journal_tol (s : State) (r : EvRec) (a b c : Nat) : (s.journal r a b c).tol = s.tol := rfl
@[simp] theorem State.journal_jtag (s : State) (r : EvRec) (a b c : Nat) : (s.journal r a b c).jtag = s.jtag := rfl
@[simp] theorem State.journal_msh (s : State) (r : EvRec) (a b c : Nat) : (s.journal r a b c).msh = s.msh := rfl
@[simp] theorem State.journal_ras (s : State) (r : EvRec) (a b c : Nat) : (s.journal r a b c).ras = s.ras := rfl
@[simp] theorem State.journal_boot (s : State) (r : EvRec) (a b c : Nat) : (s.journal r a b c).boot = s.boot := rfl
@[simp] theorem State.journal_thr (s : State) (r : EvRec) (a b c : Nat) (u : Nat) : (s.journal r a b c).thr u = s.thr u := rfl
@[simp] theorem State.journal_core (s : State) (r : EvRec) (a b c : Nat) (u : Nat) : (s.journal r a b c).core u = s.core u := rfl
@[simp] theorem State.journal_reg (s : State) (r : EvRec) (a b c : Nat) (u : Nat) : (s.journal r a b c).reg u = s.reg u := rfl
@[simp] theorem State.journal_rf (s : State) (r : EvRec) (a b c : Nat) (u : Nat) (g : FieldAt) : (s.journal r a b c).rf u g = s.rf u g := rfl

@[simp] theorem State.updTol_pending (s : State) (f : TolSt → TolSt) : (s.updTol f).pending = s.pending := rfl
@[simp] theorem State.updTol_freeCtr (s : State) (f : TolSt → TolSt) : (s.updTol f).freeCtr = s.freeCtr := rfl
@[simp] theorem State.updTol_variant (s : State) (f : TolSt → TolSt) : (s.updTol f).variant = s.variant := rfl
@[simp] theorem State.updTol_ccs (s : State) (f : TolSt → TolSt) : (s.updTol f).ccs = s.ccs := rfl
@[simp] theorem State.updTol_locks (s : State) (f : TolSt → TolSt) : (s.updTol f).locks = s.locks := rfl
@[simp] theorem State.updTol_seenPages (s : State) (f : TolSt → TolSt) : (s.updTol f).seenPages = s.seenPages := rfl
@[simp] theorem State.updTol_threads (s : State) (f : TolSt → TolSt) : (s.updTol f).threads = s.threads := rfl
@[simp] theorem State.updTol_cores (s : State) (f : TolSt → TolSt) : (s.updTol f).cores = s.cores := rfl
@[simp] theorem State.updTol_coreMap (s : State) (f : TolSt → TolSt) : (s.updTol f).coreMap = s.coreMap := rfl
@[simp] theorem State.updTol_sparingGen (s : State) (f : TolSt → TolSt) : (s.updTol f).sparingGen = s.sparingGen := rfl
@[simp] theorem State.updTol_activeCores (s : State) (f : TolSt → TolSt) : (s.updTol f).activeCores = s.activeCores := rfl
@[simp] theorem State.updTol_coh (s : State) (f : TolSt → TolSt) : (s.updTol f).coh = s.coh := rfl
@[simp] theorem State.updTol_time (s : State) (f : TolSt → TolSt) : (s.updTol f).time = s.time := rfl
@[simp] theorem State.updTol_ev (s : State) (f : TolSt → TolSt) : (s.updTol f).ev = s.ev := rfl
@[simp] theorem State.updTol_memx (s : State) (f : TolSt → TolSt) : (s.updTol f).memx = s.memx := rfl
@[simp] theorem State.updTol_smrKey (s : State) (f : TolSt → TolSt) : (s.updTol f).smrKey = s.smrKey := rfl
@[simp] theorem State.updTol_keyGen (s : State) (f : TolSt → TolSt) : (s.updTol f).keyGen = s.keyGen := rfl
@[simp] theorem State.updTol_pwr (s : State) (f : TolSt → TolSt) : (s.updTol f).pwr = s.pwr := rfl
@[simp] theorem State.updTol_port (s : State) (f : TolSt → TolSt) : (s.updTol f).port = s.port := rfl
@[simp] theorem State.updTol_rtr (s : State) (f : TolSt → TolSt) : (s.updTol f).rtr = s.rtr := rfl
@[simp] theorem State.updTol_iot (s : State) (f : TolSt → TolSt) : (s.updTol f).iot = s.iot := rfl
@[simp] theorem State.updTol_brgs (s : State) (f : TolSt → TolSt) : (s.updTol f).brgs = s.brgs := rfl
@[simp] theorem State.updTol_lkp (s : State) (f : TolSt → TolSt) : (s.updTol f).lkp = s.lkp := rfl
@[simp] theorem State.updTol_gal (s : State) (f : TolSt → TolSt) : (s.updTol f).gal = s.gal := rfl
@[simp] theorem State.updTol_jtag (s : State) (f : TolSt → TolSt) : (s.updTol f).jtag = s.jtag := rfl
@[simp] theorem State.updTol_msh (s : State) (f : TolSt → TolSt) : (s.updTol f).msh = s.msh := rfl
@[simp] theorem State.updTol_ras (s : State) (f : TolSt → TolSt) : (s.updTol f).ras = s.ras := rfl
@[simp] theorem State.updTol_boot (s : State) (f : TolSt → TolSt) : (s.updTol f).boot = s.boot := rfl
@[simp] theorem State.updTol_tol (s : State) (f : TolSt → TolSt) : (s.updTol f).tol = f s.tol := rfl
@[simp] theorem State.updTol_thr (s : State) (f : TolSt → TolSt) (u : Nat) : (s.updTol f).thr u = s.thr u := rfl
@[simp] theorem State.updTol_core (s : State) (f : TolSt → TolSt) (u : Nat) : (s.updTol f).core u = s.core u := rfl
@[simp] theorem State.updTol_reg (s : State) (f : TolSt → TolSt) (u : Nat) : (s.updTol f).reg u = s.reg u := rfl
@[simp] theorem State.updTol_rf (s : State) (f : TolSt → TolSt) (u : Nat) (g : FieldAt) : (s.updTol f).rf u g = s.rf u g := rfl

@[simp] theorem State.updPort_pending (s : State) (f : PortSt → PortSt) : (s.updPort f).pending = s.pending := rfl
@[simp] theorem State.updPort_freeCtr (s : State) (f : PortSt → PortSt) : (s.updPort f).freeCtr = s.freeCtr := rfl
@[simp] theorem State.updPort_variant (s : State) (f : PortSt → PortSt) : (s.updPort f).variant = s.variant := rfl
@[simp] theorem State.updPort_ccs (s : State) (f : PortSt → PortSt) : (s.updPort f).ccs = s.ccs := rfl
@[simp] theorem State.updPort_locks (s : State) (f : PortSt → PortSt) : (s.updPort f).locks = s.locks := rfl
@[simp] theorem State.updPort_seenPages (s : State) (f : PortSt → PortSt) : (s.updPort f).seenPages = s.seenPages := rfl
@[simp] theorem State.updPort_threads (s : State) (f : PortSt → PortSt) : (s.updPort f).threads = s.threads := rfl
@[simp] theorem State.updPort_cores (s : State) (f : PortSt → PortSt) : (s.updPort f).cores = s.cores := rfl
@[simp] theorem State.updPort_coreMap (s : State) (f : PortSt → PortSt) : (s.updPort f).coreMap = s.coreMap := rfl
@[simp] theorem State.updPort_sparingGen (s : State) (f : PortSt → PortSt) : (s.updPort f).sparingGen = s.sparingGen := rfl
@[simp] theorem State.updPort_activeCores (s : State) (f : PortSt → PortSt) : (s.updPort f).activeCores = s.activeCores := rfl
@[simp] theorem State.updPort_coh (s : State) (f : PortSt → PortSt) : (s.updPort f).coh = s.coh := rfl
@[simp] theorem State.updPort_time (s : State) (f : PortSt → PortSt) : (s.updPort f).time = s.time := rfl
@[simp] theorem State.updPort_ev (s : State) (f : PortSt → PortSt) : (s.updPort f).ev = s.ev := rfl
@[simp] theorem State.updPort_memx (s : State) (f : PortSt → PortSt) : (s.updPort f).memx = s.memx := rfl
@[simp] theorem State.updPort_smrKey (s : State) (f : PortSt → PortSt) : (s.updPort f).smrKey = s.smrKey := rfl
@[simp] theorem State.updPort_keyGen (s : State) (f : PortSt → PortSt) : (s.updPort f).keyGen = s.keyGen := rfl
@[simp] theorem State.updPort_pwr (s : State) (f : PortSt → PortSt) : (s.updPort f).pwr = s.pwr := rfl
@[simp] theorem State.updPort_rtr (s : State) (f : PortSt → PortSt) : (s.updPort f).rtr = s.rtr := rfl
@[simp] theorem State.updPort_iot (s : State) (f : PortSt → PortSt) : (s.updPort f).iot = s.iot := rfl
@[simp] theorem State.updPort_brgs (s : State) (f : PortSt → PortSt) : (s.updPort f).brgs = s.brgs := rfl
@[simp] theorem State.updPort_lkp (s : State) (f : PortSt → PortSt) : (s.updPort f).lkp = s.lkp := rfl
@[simp] theorem State.updPort_gal (s : State) (f : PortSt → PortSt) : (s.updPort f).gal = s.gal := rfl
@[simp] theorem State.updPort_tol (s : State) (f : PortSt → PortSt) : (s.updPort f).tol = s.tol := rfl
@[simp] theorem State.updPort_jtag (s : State) (f : PortSt → PortSt) : (s.updPort f).jtag = s.jtag := rfl
@[simp] theorem State.updPort_msh (s : State) (f : PortSt → PortSt) : (s.updPort f).msh = s.msh := rfl
@[simp] theorem State.updPort_ras (s : State) (f : PortSt → PortSt) : (s.updPort f).ras = s.ras := rfl
@[simp] theorem State.updPort_boot (s : State) (f : PortSt → PortSt) : (s.updPort f).boot = s.boot := rfl
@[simp] theorem State.updPort_port (s : State) (f : PortSt → PortSt) : (s.updPort f).port = f s.port := rfl
@[simp] theorem State.updPort_thr (s : State) (f : PortSt → PortSt) (u : Nat) : (s.updPort f).thr u = s.thr u := rfl
@[simp] theorem State.updPort_core (s : State) (f : PortSt → PortSt) (u : Nat) : (s.updPort f).core u = s.core u := rfl
@[simp] theorem State.updPort_reg (s : State) (f : PortSt → PortSt) (u : Nat) : (s.updPort f).reg u = s.reg u := rfl
@[simp] theorem State.updPort_rf (s : State) (f : PortSt → PortSt) (u : Nat) (g : FieldAt) : (s.updPort f).rf u g = s.rf u g := rfl

@[simp] theorem State.updRas_pending (s : State) (f : RasSt → RasSt) : (s.updRas f).pending = s.pending := rfl
@[simp] theorem State.updRas_freeCtr (s : State) (f : RasSt → RasSt) : (s.updRas f).freeCtr = s.freeCtr := rfl
@[simp] theorem State.updRas_variant (s : State) (f : RasSt → RasSt) : (s.updRas f).variant = s.variant := rfl
@[simp] theorem State.updRas_ccs (s : State) (f : RasSt → RasSt) : (s.updRas f).ccs = s.ccs := rfl
@[simp] theorem State.updRas_locks (s : State) (f : RasSt → RasSt) : (s.updRas f).locks = s.locks := rfl
@[simp] theorem State.updRas_seenPages (s : State) (f : RasSt → RasSt) : (s.updRas f).seenPages = s.seenPages := rfl
@[simp] theorem State.updRas_threads (s : State) (f : RasSt → RasSt) : (s.updRas f).threads = s.threads := rfl
@[simp] theorem State.updRas_cores (s : State) (f : RasSt → RasSt) : (s.updRas f).cores = s.cores := rfl
@[simp] theorem State.updRas_coreMap (s : State) (f : RasSt → RasSt) : (s.updRas f).coreMap = s.coreMap := rfl
@[simp] theorem State.updRas_sparingGen (s : State) (f : RasSt → RasSt) : (s.updRas f).sparingGen = s.sparingGen := rfl
@[simp] theorem State.updRas_activeCores (s : State) (f : RasSt → RasSt) : (s.updRas f).activeCores = s.activeCores := rfl
@[simp] theorem State.updRas_coh (s : State) (f : RasSt → RasSt) : (s.updRas f).coh = s.coh := rfl
@[simp] theorem State.updRas_time (s : State) (f : RasSt → RasSt) : (s.updRas f).time = s.time := rfl
@[simp] theorem State.updRas_ev (s : State) (f : RasSt → RasSt) : (s.updRas f).ev = s.ev := rfl
@[simp] theorem State.updRas_memx (s : State) (f : RasSt → RasSt) : (s.updRas f).memx = s.memx := rfl
@[simp] theorem State.updRas_smrKey (s : State) (f : RasSt → RasSt) : (s.updRas f).smrKey = s.smrKey := rfl
@[simp] theorem State.updRas_keyGen (s : State) (f : RasSt → RasSt) : (s.updRas f).keyGen = s.keyGen := rfl
@[simp] theorem State.updRas_pwr (s : State) (f : RasSt → RasSt) : (s.updRas f).pwr = s.pwr := rfl
@[simp] theorem State.updRas_port (s : State) (f : RasSt → RasSt) : (s.updRas f).port = s.port := rfl
@[simp] theorem State.updRas_rtr (s : State) (f : RasSt → RasSt) : (s.updRas f).rtr = s.rtr := rfl
@[simp] theorem State.updRas_iot (s : State) (f : RasSt → RasSt) : (s.updRas f).iot = s.iot := rfl
@[simp] theorem State.updRas_brgs (s : State) (f : RasSt → RasSt) : (s.updRas f).brgs = s.brgs := rfl
@[simp] theorem State.updRas_lkp (s : State) (f : RasSt → RasSt) : (s.updRas f).lkp = s.lkp := rfl
@[simp] theorem State.updRas_gal (s : State) (f : RasSt → RasSt) : (s.updRas f).gal = s.gal := rfl
@[simp] theorem State.updRas_tol (s : State) (f : RasSt → RasSt) : (s.updRas f).tol = s.tol := rfl
@[simp] theorem State.updRas_jtag (s : State) (f : RasSt → RasSt) : (s.updRas f).jtag = s.jtag := rfl
@[simp] theorem State.updRas_msh (s : State) (f : RasSt → RasSt) : (s.updRas f).msh = s.msh := rfl
@[simp] theorem State.updRas_boot (s : State) (f : RasSt → RasSt) : (s.updRas f).boot = s.boot := rfl
@[simp] theorem State.updRas_ras (s : State) (f : RasSt → RasSt) : (s.updRas f).ras = f s.ras := rfl
@[simp] theorem State.updRas_thr (s : State) (f : RasSt → RasSt) (u : Nat) : (s.updRas f).thr u = s.thr u := rfl
@[simp] theorem State.updRas_core (s : State) (f : RasSt → RasSt) (u : Nat) : (s.updRas f).core u = s.core u := rfl
@[simp] theorem State.updRas_reg (s : State) (f : RasSt → RasSt) (u : Nat) : (s.updRas f).reg u = s.reg u := rfl
@[simp] theorem State.updRas_rf (s : State) (f : RasSt → RasSt) (u : Nat) (g : FieldAt) : (s.updRas f).rf u g = s.rf u g := rfl

@[simp] theorem State.updBoot_pending (s : State) (f : BootSt → BootSt) : (s.updBoot f).pending = s.pending := rfl
@[simp] theorem State.updBoot_freeCtr (s : State) (f : BootSt → BootSt) : (s.updBoot f).freeCtr = s.freeCtr := rfl
@[simp] theorem State.updBoot_variant (s : State) (f : BootSt → BootSt) : (s.updBoot f).variant = s.variant := rfl
@[simp] theorem State.updBoot_ccs (s : State) (f : BootSt → BootSt) : (s.updBoot f).ccs = s.ccs := rfl
@[simp] theorem State.updBoot_locks (s : State) (f : BootSt → BootSt) : (s.updBoot f).locks = s.locks := rfl
@[simp] theorem State.updBoot_seenPages (s : State) (f : BootSt → BootSt) : (s.updBoot f).seenPages = s.seenPages := rfl
@[simp] theorem State.updBoot_threads (s : State) (f : BootSt → BootSt) : (s.updBoot f).threads = s.threads := rfl
@[simp] theorem State.updBoot_cores (s : State) (f : BootSt → BootSt) : (s.updBoot f).cores = s.cores := rfl
@[simp] theorem State.updBoot_coreMap (s : State) (f : BootSt → BootSt) : (s.updBoot f).coreMap = s.coreMap := rfl
@[simp] theorem State.updBoot_sparingGen (s : State) (f : BootSt → BootSt) : (s.updBoot f).sparingGen = s.sparingGen := rfl
@[simp] theorem State.updBoot_activeCores (s : State) (f : BootSt → BootSt) : (s.updBoot f).activeCores = s.activeCores := rfl
@[simp] theorem State.updBoot_coh (s : State) (f : BootSt → BootSt) : (s.updBoot f).coh = s.coh := rfl
@[simp] theorem State.updBoot_time (s : State) (f : BootSt → BootSt) : (s.updBoot f).time = s.time := rfl
@[simp] theorem State.updBoot_ev (s : State) (f : BootSt → BootSt) : (s.updBoot f).ev = s.ev := rfl
@[simp] theorem State.updBoot_memx (s : State) (f : BootSt → BootSt) : (s.updBoot f).memx = s.memx := rfl
@[simp] theorem State.updBoot_smrKey (s : State) (f : BootSt → BootSt) : (s.updBoot f).smrKey = s.smrKey := rfl
@[simp] theorem State.updBoot_keyGen (s : State) (f : BootSt → BootSt) : (s.updBoot f).keyGen = s.keyGen := rfl
@[simp] theorem State.updBoot_pwr (s : State) (f : BootSt → BootSt) : (s.updBoot f).pwr = s.pwr := rfl
@[simp] theorem State.updBoot_port (s : State) (f : BootSt → BootSt) : (s.updBoot f).port = s.port := rfl
@[simp] theorem State.updBoot_rtr (s : State) (f : BootSt → BootSt) : (s.updBoot f).rtr = s.rtr := rfl
@[simp] theorem State.updBoot_iot (s : State) (f : BootSt → BootSt) : (s.updBoot f).iot = s.iot := rfl
@[simp] theorem State.updBoot_brgs (s : State) (f : BootSt → BootSt) : (s.updBoot f).brgs = s.brgs := rfl
@[simp] theorem State.updBoot_lkp (s : State) (f : BootSt → BootSt) : (s.updBoot f).lkp = s.lkp := rfl
@[simp] theorem State.updBoot_gal (s : State) (f : BootSt → BootSt) : (s.updBoot f).gal = s.gal := rfl
@[simp] theorem State.updBoot_tol (s : State) (f : BootSt → BootSt) : (s.updBoot f).tol = s.tol := rfl
@[simp] theorem State.updBoot_jtag (s : State) (f : BootSt → BootSt) : (s.updBoot f).jtag = s.jtag := rfl
@[simp] theorem State.updBoot_msh (s : State) (f : BootSt → BootSt) : (s.updBoot f).msh = s.msh := rfl
@[simp] theorem State.updBoot_ras (s : State) (f : BootSt → BootSt) : (s.updBoot f).ras = s.ras := rfl
@[simp] theorem State.updBoot_boot (s : State) (f : BootSt → BootSt) : (s.updBoot f).boot = f s.boot := rfl
@[simp] theorem State.updBoot_thr (s : State) (f : BootSt → BootSt) (u : Nat) : (s.updBoot f).thr u = s.thr u := rfl
@[simp] theorem State.updBoot_core (s : State) (f : BootSt → BootSt) (u : Nat) : (s.updBoot f).core u = s.core u := rfl
@[simp] theorem State.updBoot_reg (s : State) (f : BootSt → BootSt) (u : Nat) : (s.updBoot f).reg u = s.reg u := rfl
@[simp] theorem State.updBoot_rf (s : State) (f : BootSt → BootSt) (u : Nat) (g : FieldAt) : (s.updBoot f).rf u g = s.rf u g := rfl

@[simp] theorem State.updMem_pending (s : State) (f : MemSt → MemSt) : (s.updMem f).pending = s.pending := rfl
@[simp] theorem State.updMem_freeCtr (s : State) (f : MemSt → MemSt) : (s.updMem f).freeCtr = s.freeCtr := rfl
@[simp] theorem State.updMem_variant (s : State) (f : MemSt → MemSt) : (s.updMem f).variant = s.variant := rfl
@[simp] theorem State.updMem_ccs (s : State) (f : MemSt → MemSt) : (s.updMem f).ccs = s.ccs := rfl
@[simp] theorem State.updMem_locks (s : State) (f : MemSt → MemSt) : (s.updMem f).locks = s.locks := rfl
@[simp] theorem State.updMem_seenPages (s : State) (f : MemSt → MemSt) : (s.updMem f).seenPages = s.seenPages := rfl
@[simp] theorem State.updMem_threads (s : State) (f : MemSt → MemSt) : (s.updMem f).threads = s.threads := rfl
@[simp] theorem State.updMem_cores (s : State) (f : MemSt → MemSt) : (s.updMem f).cores = s.cores := rfl
@[simp] theorem State.updMem_coreMap (s : State) (f : MemSt → MemSt) : (s.updMem f).coreMap = s.coreMap := rfl
@[simp] theorem State.updMem_sparingGen (s : State) (f : MemSt → MemSt) : (s.updMem f).sparingGen = s.sparingGen := rfl
@[simp] theorem State.updMem_activeCores (s : State) (f : MemSt → MemSt) : (s.updMem f).activeCores = s.activeCores := rfl
@[simp] theorem State.updMem_coh (s : State) (f : MemSt → MemSt) : (s.updMem f).coh = s.coh := rfl
@[simp] theorem State.updMem_time (s : State) (f : MemSt → MemSt) : (s.updMem f).time = s.time := rfl
@[simp] theorem State.updMem_ev (s : State) (f : MemSt → MemSt) : (s.updMem f).ev = s.ev := rfl
@[simp] theorem State.updMem_smrKey (s : State) (f : MemSt → MemSt) : (s.updMem f).smrKey = s.smrKey := rfl
@[simp] theorem State.updMem_keyGen (s : State) (f : MemSt → MemSt) : (s.updMem f).keyGen = s.keyGen := rfl
@[simp] theorem State.updMem_pwr (s : State) (f : MemSt → MemSt) : (s.updMem f).pwr = s.pwr := rfl
@[simp] theorem State.updMem_port (s : State) (f : MemSt → MemSt) : (s.updMem f).port = s.port := rfl
@[simp] theorem State.updMem_rtr (s : State) (f : MemSt → MemSt) : (s.updMem f).rtr = s.rtr := rfl
@[simp] theorem State.updMem_iot (s : State) (f : MemSt → MemSt) : (s.updMem f).iot = s.iot := rfl
@[simp] theorem State.updMem_brgs (s : State) (f : MemSt → MemSt) : (s.updMem f).brgs = s.brgs := rfl
@[simp] theorem State.updMem_lkp (s : State) (f : MemSt → MemSt) : (s.updMem f).lkp = s.lkp := rfl
@[simp] theorem State.updMem_gal (s : State) (f : MemSt → MemSt) : (s.updMem f).gal = s.gal := rfl
@[simp] theorem State.updMem_tol (s : State) (f : MemSt → MemSt) : (s.updMem f).tol = s.tol := rfl
@[simp] theorem State.updMem_jtag (s : State) (f : MemSt → MemSt) : (s.updMem f).jtag = s.jtag := rfl
@[simp] theorem State.updMem_msh (s : State) (f : MemSt → MemSt) : (s.updMem f).msh = s.msh := rfl
@[simp] theorem State.updMem_ras (s : State) (f : MemSt → MemSt) : (s.updMem f).ras = s.ras := rfl
@[simp] theorem State.updMem_boot (s : State) (f : MemSt → MemSt) : (s.updMem f).boot = s.boot := rfl
@[simp] theorem State.updMem_memx (s : State) (f : MemSt → MemSt) : (s.updMem f).memx = f s.memx := rfl
@[simp] theorem State.updMem_thr (s : State) (f : MemSt → MemSt) (u : Nat) : (s.updMem f).thr u = s.thr u := rfl
@[simp] theorem State.updMem_core (s : State) (f : MemSt → MemSt) (u : Nat) : (s.updMem f).core u = s.core u := rfl
@[simp] theorem State.updMem_reg (s : State) (f : MemSt → MemSt) (u : Nat) : (s.updMem f).reg u = s.reg u := rfl
@[simp] theorem State.updMem_rf (s : State) (f : MemSt → MemSt) (u : Nat) (g : FieldAt) : (s.updMem f).rf u g = s.rf u g := rfl

@[simp] theorem State.updPwr_pending (s : State) (f : PwrSt → PwrSt) : (s.updPwr f).pending = s.pending := rfl
@[simp] theorem State.updPwr_freeCtr (s : State) (f : PwrSt → PwrSt) : (s.updPwr f).freeCtr = s.freeCtr := rfl
@[simp] theorem State.updPwr_variant (s : State) (f : PwrSt → PwrSt) : (s.updPwr f).variant = s.variant := rfl
@[simp] theorem State.updPwr_ccs (s : State) (f : PwrSt → PwrSt) : (s.updPwr f).ccs = s.ccs := rfl
@[simp] theorem State.updPwr_locks (s : State) (f : PwrSt → PwrSt) : (s.updPwr f).locks = s.locks := rfl
@[simp] theorem State.updPwr_seenPages (s : State) (f : PwrSt → PwrSt) : (s.updPwr f).seenPages = s.seenPages := rfl
@[simp] theorem State.updPwr_threads (s : State) (f : PwrSt → PwrSt) : (s.updPwr f).threads = s.threads := rfl
@[simp] theorem State.updPwr_cores (s : State) (f : PwrSt → PwrSt) : (s.updPwr f).cores = s.cores := rfl
@[simp] theorem State.updPwr_coreMap (s : State) (f : PwrSt → PwrSt) : (s.updPwr f).coreMap = s.coreMap := rfl
@[simp] theorem State.updPwr_sparingGen (s : State) (f : PwrSt → PwrSt) : (s.updPwr f).sparingGen = s.sparingGen := rfl
@[simp] theorem State.updPwr_activeCores (s : State) (f : PwrSt → PwrSt) : (s.updPwr f).activeCores = s.activeCores := rfl
@[simp] theorem State.updPwr_coh (s : State) (f : PwrSt → PwrSt) : (s.updPwr f).coh = s.coh := rfl
@[simp] theorem State.updPwr_time (s : State) (f : PwrSt → PwrSt) : (s.updPwr f).time = s.time := rfl
@[simp] theorem State.updPwr_ev (s : State) (f : PwrSt → PwrSt) : (s.updPwr f).ev = s.ev := rfl
@[simp] theorem State.updPwr_memx (s : State) (f : PwrSt → PwrSt) : (s.updPwr f).memx = s.memx := rfl
@[simp] theorem State.updPwr_smrKey (s : State) (f : PwrSt → PwrSt) : (s.updPwr f).smrKey = s.smrKey := rfl
@[simp] theorem State.updPwr_keyGen (s : State) (f : PwrSt → PwrSt) : (s.updPwr f).keyGen = s.keyGen := rfl
@[simp] theorem State.updPwr_port (s : State) (f : PwrSt → PwrSt) : (s.updPwr f).port = s.port := rfl
@[simp] theorem State.updPwr_rtr (s : State) (f : PwrSt → PwrSt) : (s.updPwr f).rtr = s.rtr := rfl
@[simp] theorem State.updPwr_iot (s : State) (f : PwrSt → PwrSt) : (s.updPwr f).iot = s.iot := rfl
@[simp] theorem State.updPwr_brgs (s : State) (f : PwrSt → PwrSt) : (s.updPwr f).brgs = s.brgs := rfl
@[simp] theorem State.updPwr_lkp (s : State) (f : PwrSt → PwrSt) : (s.updPwr f).lkp = s.lkp := rfl
@[simp] theorem State.updPwr_gal (s : State) (f : PwrSt → PwrSt) : (s.updPwr f).gal = s.gal := rfl
@[simp] theorem State.updPwr_tol (s : State) (f : PwrSt → PwrSt) : (s.updPwr f).tol = s.tol := rfl
@[simp] theorem State.updPwr_jtag (s : State) (f : PwrSt → PwrSt) : (s.updPwr f).jtag = s.jtag := rfl
@[simp] theorem State.updPwr_msh (s : State) (f : PwrSt → PwrSt) : (s.updPwr f).msh = s.msh := rfl
@[simp] theorem State.updPwr_ras (s : State) (f : PwrSt → PwrSt) : (s.updPwr f).ras = s.ras := rfl
@[simp] theorem State.updPwr_boot (s : State) (f : PwrSt → PwrSt) : (s.updPwr f).boot = s.boot := rfl
@[simp] theorem State.updPwr_pwr (s : State) (f : PwrSt → PwrSt) : (s.updPwr f).pwr = f s.pwr := rfl
@[simp] theorem State.updPwr_thr (s : State) (f : PwrSt → PwrSt) (u : Nat) : (s.updPwr f).thr u = s.thr u := rfl
@[simp] theorem State.updPwr_core (s : State) (f : PwrSt → PwrSt) (u : Nat) : (s.updPwr f).core u = s.core u := rfl
@[simp] theorem State.updPwr_reg (s : State) (f : PwrSt → PwrSt) (u : Nat) : (s.updPwr f).reg u = s.reg u := rfl
@[simp] theorem State.updPwr_rf (s : State) (f : PwrSt → PwrSt) (u : Nat) (g : FieldAt) : (s.updPwr f).rf u g = s.rf u g := rfl

@[simp] theorem State.updRtr_pending (s : State) (f : RtrSt → RtrSt) : (s.updRtr f).pending = s.pending := rfl
@[simp] theorem State.updRtr_freeCtr (s : State) (f : RtrSt → RtrSt) : (s.updRtr f).freeCtr = s.freeCtr := rfl
@[simp] theorem State.updRtr_variant (s : State) (f : RtrSt → RtrSt) : (s.updRtr f).variant = s.variant := rfl
@[simp] theorem State.updRtr_ccs (s : State) (f : RtrSt → RtrSt) : (s.updRtr f).ccs = s.ccs := rfl
@[simp] theorem State.updRtr_locks (s : State) (f : RtrSt → RtrSt) : (s.updRtr f).locks = s.locks := rfl
@[simp] theorem State.updRtr_seenPages (s : State) (f : RtrSt → RtrSt) : (s.updRtr f).seenPages = s.seenPages := rfl
@[simp] theorem State.updRtr_threads (s : State) (f : RtrSt → RtrSt) : (s.updRtr f).threads = s.threads := rfl
@[simp] theorem State.updRtr_cores (s : State) (f : RtrSt → RtrSt) : (s.updRtr f).cores = s.cores := rfl
@[simp] theorem State.updRtr_coreMap (s : State) (f : RtrSt → RtrSt) : (s.updRtr f).coreMap = s.coreMap := rfl
@[simp] theorem State.updRtr_sparingGen (s : State) (f : RtrSt → RtrSt) : (s.updRtr f).sparingGen = s.sparingGen := rfl
@[simp] theorem State.updRtr_activeCores (s : State) (f : RtrSt → RtrSt) : (s.updRtr f).activeCores = s.activeCores := rfl
@[simp] theorem State.updRtr_coh (s : State) (f : RtrSt → RtrSt) : (s.updRtr f).coh = s.coh := rfl
@[simp] theorem State.updRtr_time (s : State) (f : RtrSt → RtrSt) : (s.updRtr f).time = s.time := rfl
@[simp] theorem State.updRtr_ev (s : State) (f : RtrSt → RtrSt) : (s.updRtr f).ev = s.ev := rfl
@[simp] theorem State.updRtr_memx (s : State) (f : RtrSt → RtrSt) : (s.updRtr f).memx = s.memx := rfl
@[simp] theorem State.updRtr_smrKey (s : State) (f : RtrSt → RtrSt) : (s.updRtr f).smrKey = s.smrKey := rfl
@[simp] theorem State.updRtr_keyGen (s : State) (f : RtrSt → RtrSt) : (s.updRtr f).keyGen = s.keyGen := rfl
@[simp] theorem State.updRtr_pwr (s : State) (f : RtrSt → RtrSt) : (s.updRtr f).pwr = s.pwr := rfl
@[simp] theorem State.updRtr_port (s : State) (f : RtrSt → RtrSt) : (s.updRtr f).port = s.port := rfl
@[simp] theorem State.updRtr_iot (s : State) (f : RtrSt → RtrSt) : (s.updRtr f).iot = s.iot := rfl
@[simp] theorem State.updRtr_brgs (s : State) (f : RtrSt → RtrSt) : (s.updRtr f).brgs = s.brgs := rfl
@[simp] theorem State.updRtr_lkp (s : State) (f : RtrSt → RtrSt) : (s.updRtr f).lkp = s.lkp := rfl
@[simp] theorem State.updRtr_gal (s : State) (f : RtrSt → RtrSt) : (s.updRtr f).gal = s.gal := rfl
@[simp] theorem State.updRtr_tol (s : State) (f : RtrSt → RtrSt) : (s.updRtr f).tol = s.tol := rfl
@[simp] theorem State.updRtr_jtag (s : State) (f : RtrSt → RtrSt) : (s.updRtr f).jtag = s.jtag := rfl
@[simp] theorem State.updRtr_msh (s : State) (f : RtrSt → RtrSt) : (s.updRtr f).msh = s.msh := rfl
@[simp] theorem State.updRtr_ras (s : State) (f : RtrSt → RtrSt) : (s.updRtr f).ras = s.ras := rfl
@[simp] theorem State.updRtr_boot (s : State) (f : RtrSt → RtrSt) : (s.updRtr f).boot = s.boot := rfl
@[simp] theorem State.updRtr_rtr (s : State) (f : RtrSt → RtrSt) : (s.updRtr f).rtr = f s.rtr := rfl
@[simp] theorem State.updRtr_thr (s : State) (f : RtrSt → RtrSt) (u : Nat) : (s.updRtr f).thr u = s.thr u := rfl
@[simp] theorem State.updRtr_core (s : State) (f : RtrSt → RtrSt) (u : Nat) : (s.updRtr f).core u = s.core u := rfl
@[simp] theorem State.updRtr_reg (s : State) (f : RtrSt → RtrSt) (u : Nat) : (s.updRtr f).reg u = s.reg u := rfl
@[simp] theorem State.updRtr_rf (s : State) (f : RtrSt → RtrSt) (u : Nat) (g : FieldAt) : (s.updRtr f).rf u g = s.rf u g := rfl

@[simp] theorem State.updIot_pending (s : State) (f : IotSt → IotSt) : (s.updIot f).pending = s.pending := rfl
@[simp] theorem State.updIot_freeCtr (s : State) (f : IotSt → IotSt) : (s.updIot f).freeCtr = s.freeCtr := rfl
@[simp] theorem State.updIot_variant (s : State) (f : IotSt → IotSt) : (s.updIot f).variant = s.variant := rfl
@[simp] theorem State.updIot_ccs (s : State) (f : IotSt → IotSt) : (s.updIot f).ccs = s.ccs := rfl
@[simp] theorem State.updIot_locks (s : State) (f : IotSt → IotSt) : (s.updIot f).locks = s.locks := rfl
@[simp] theorem State.updIot_seenPages (s : State) (f : IotSt → IotSt) : (s.updIot f).seenPages = s.seenPages := rfl
@[simp] theorem State.updIot_threads (s : State) (f : IotSt → IotSt) : (s.updIot f).threads = s.threads := rfl
@[simp] theorem State.updIot_cores (s : State) (f : IotSt → IotSt) : (s.updIot f).cores = s.cores := rfl
@[simp] theorem State.updIot_coreMap (s : State) (f : IotSt → IotSt) : (s.updIot f).coreMap = s.coreMap := rfl
@[simp] theorem State.updIot_sparingGen (s : State) (f : IotSt → IotSt) : (s.updIot f).sparingGen = s.sparingGen := rfl
@[simp] theorem State.updIot_activeCores (s : State) (f : IotSt → IotSt) : (s.updIot f).activeCores = s.activeCores := rfl
@[simp] theorem State.updIot_coh (s : State) (f : IotSt → IotSt) : (s.updIot f).coh = s.coh := rfl
@[simp] theorem State.updIot_time (s : State) (f : IotSt → IotSt) : (s.updIot f).time = s.time := rfl
@[simp] theorem State.updIot_ev (s : State) (f : IotSt → IotSt) : (s.updIot f).ev = s.ev := rfl
@[simp] theorem State.updIot_memx (s : State) (f : IotSt → IotSt) : (s.updIot f).memx = s.memx := rfl
@[simp] theorem State.updIot_smrKey (s : State) (f : IotSt → IotSt) : (s.updIot f).smrKey = s.smrKey := rfl
@[simp] theorem State.updIot_keyGen (s : State) (f : IotSt → IotSt) : (s.updIot f).keyGen = s.keyGen := rfl
@[simp] theorem State.updIot_pwr (s : State) (f : IotSt → IotSt) : (s.updIot f).pwr = s.pwr := rfl
@[simp] theorem State.updIot_port (s : State) (f : IotSt → IotSt) : (s.updIot f).port = s.port := rfl
@[simp] theorem State.updIot_rtr (s : State) (f : IotSt → IotSt) : (s.updIot f).rtr = s.rtr := rfl
@[simp] theorem State.updIot_brgs (s : State) (f : IotSt → IotSt) : (s.updIot f).brgs = s.brgs := rfl
@[simp] theorem State.updIot_lkp (s : State) (f : IotSt → IotSt) : (s.updIot f).lkp = s.lkp := rfl
@[simp] theorem State.updIot_gal (s : State) (f : IotSt → IotSt) : (s.updIot f).gal = s.gal := rfl
@[simp] theorem State.updIot_tol (s : State) (f : IotSt → IotSt) : (s.updIot f).tol = s.tol := rfl
@[simp] theorem State.updIot_jtag (s : State) (f : IotSt → IotSt) : (s.updIot f).jtag = s.jtag := rfl
@[simp] theorem State.updIot_msh (s : State) (f : IotSt → IotSt) : (s.updIot f).msh = s.msh := rfl
@[simp] theorem State.updIot_ras (s : State) (f : IotSt → IotSt) : (s.updIot f).ras = s.ras := rfl
@[simp] theorem State.updIot_boot (s : State) (f : IotSt → IotSt) : (s.updIot f).boot = s.boot := rfl
@[simp] theorem State.updIot_iot (s : State) (f : IotSt → IotSt) : (s.updIot f).iot = f s.iot := rfl
@[simp] theorem State.updIot_thr (s : State) (f : IotSt → IotSt) (u : Nat) : (s.updIot f).thr u = s.thr u := rfl
@[simp] theorem State.updIot_core (s : State) (f : IotSt → IotSt) (u : Nat) : (s.updIot f).core u = s.core u := rfl
@[simp] theorem State.updIot_reg (s : State) (f : IotSt → IotSt) (u : Nat) : (s.updIot f).reg u = s.reg u := rfl
@[simp] theorem State.updIot_rf (s : State) (f : IotSt → IotSt) (u : Nat) (g : FieldAt) : (s.updIot f).rf u g = s.rf u g := rfl

@[simp] theorem State.updJtag_pending (s : State) (f : JtagSt → JtagSt) : (s.updJtag f).pending = s.pending := rfl
@[simp] theorem State.updJtag_freeCtr (s : State) (f : JtagSt → JtagSt) : (s.updJtag f).freeCtr = s.freeCtr := rfl
@[simp] theorem State.updJtag_variant (s : State) (f : JtagSt → JtagSt) : (s.updJtag f).variant = s.variant := rfl
@[simp] theorem State.updJtag_ccs (s : State) (f : JtagSt → JtagSt) : (s.updJtag f).ccs = s.ccs := rfl
@[simp] theorem State.updJtag_locks (s : State) (f : JtagSt → JtagSt) : (s.updJtag f).locks = s.locks := rfl
@[simp] theorem State.updJtag_seenPages (s : State) (f : JtagSt → JtagSt) : (s.updJtag f).seenPages = s.seenPages := rfl
@[simp] theorem State.updJtag_threads (s : State) (f : JtagSt → JtagSt) : (s.updJtag f).threads = s.threads := rfl
@[simp] theorem State.updJtag_cores (s : State) (f : JtagSt → JtagSt) : (s.updJtag f).cores = s.cores := rfl
@[simp] theorem State.updJtag_coreMap (s : State) (f : JtagSt → JtagSt) : (s.updJtag f).coreMap = s.coreMap := rfl
@[simp] theorem State.updJtag_sparingGen (s : State) (f : JtagSt → JtagSt) : (s.updJtag f).sparingGen = s.sparingGen := rfl
@[simp] theorem State.updJtag_activeCores (s : State) (f : JtagSt → JtagSt) : (s.updJtag f).activeCores = s.activeCores := rfl
@[simp] theorem State.updJtag_coh (s : State) (f : JtagSt → JtagSt) : (s.updJtag f).coh = s.coh := rfl
@[simp] theorem State.updJtag_time (s : State) (f : JtagSt → JtagSt) : (s.updJtag f).time = s.time := rfl
@[simp] theorem State.updJtag_ev (s : State) (f : JtagSt → JtagSt) : (s.updJtag f).ev = s.ev := rfl
@[simp] theorem State.updJtag_memx (s : State) (f : JtagSt → JtagSt) : (s.updJtag f).memx = s.memx := rfl
@[simp] theorem State.updJtag_smrKey (s : State) (f : JtagSt → JtagSt) : (s.updJtag f).smrKey = s.smrKey := rfl
@[simp] theorem State.updJtag_keyGen (s : State) (f : JtagSt → JtagSt) : (s.updJtag f).keyGen = s.keyGen := rfl
@[simp] theorem State.updJtag_pwr (s : State) (f : JtagSt → JtagSt) : (s.updJtag f).pwr = s.pwr := rfl
@[simp] theorem State.updJtag_port (s : State) (f : JtagSt → JtagSt) : (s.updJtag f).port = s.port := rfl
@[simp] theorem State.updJtag_rtr (s : State) (f : JtagSt → JtagSt) : (s.updJtag f).rtr = s.rtr := rfl
@[simp] theorem State.updJtag_iot (s : State) (f : JtagSt → JtagSt) : (s.updJtag f).iot = s.iot := rfl
@[simp] theorem State.updJtag_brgs (s : State) (f : JtagSt → JtagSt) : (s.updJtag f).brgs = s.brgs := rfl
@[simp] theorem State.updJtag_lkp (s : State) (f : JtagSt → JtagSt) : (s.updJtag f).lkp = s.lkp := rfl
@[simp] theorem State.updJtag_gal (s : State) (f : JtagSt → JtagSt) : (s.updJtag f).gal = s.gal := rfl
@[simp] theorem State.updJtag_tol (s : State) (f : JtagSt → JtagSt) : (s.updJtag f).tol = s.tol := rfl
@[simp] theorem State.updJtag_msh (s : State) (f : JtagSt → JtagSt) : (s.updJtag f).msh = s.msh := rfl
@[simp] theorem State.updJtag_ras (s : State) (f : JtagSt → JtagSt) : (s.updJtag f).ras = s.ras := rfl
@[simp] theorem State.updJtag_boot (s : State) (f : JtagSt → JtagSt) : (s.updJtag f).boot = s.boot := rfl
@[simp] theorem State.updJtag_jtag (s : State) (f : JtagSt → JtagSt) : (s.updJtag f).jtag = f s.jtag := rfl
@[simp] theorem State.updJtag_thr (s : State) (f : JtagSt → JtagSt) (u : Nat) : (s.updJtag f).thr u = s.thr u := rfl
@[simp] theorem State.updJtag_core (s : State) (f : JtagSt → JtagSt) (u : Nat) : (s.updJtag f).core u = s.core u := rfl
@[simp] theorem State.updJtag_reg (s : State) (f : JtagSt → JtagSt) (u : Nat) : (s.updJtag f).reg u = s.reg u := rfl
@[simp] theorem State.updJtag_rf (s : State) (f : JtagSt → JtagSt) (u : Nat) (g : FieldAt) : (s.updJtag f).rf u g = s.rf u g := rfl

@[simp] theorem State.updGal_pending (s : State) (f : GalSt → GalSt) : (s.updGal f).pending = s.pending := rfl
@[simp] theorem State.updGal_freeCtr (s : State) (f : GalSt → GalSt) : (s.updGal f).freeCtr = s.freeCtr := rfl
@[simp] theorem State.updGal_variant (s : State) (f : GalSt → GalSt) : (s.updGal f).variant = s.variant := rfl
@[simp] theorem State.updGal_ccs (s : State) (f : GalSt → GalSt) : (s.updGal f).ccs = s.ccs := rfl
@[simp] theorem State.updGal_locks (s : State) (f : GalSt → GalSt) : (s.updGal f).locks = s.locks := rfl
@[simp] theorem State.updGal_seenPages (s : State) (f : GalSt → GalSt) : (s.updGal f).seenPages = s.seenPages := rfl
@[simp] theorem State.updGal_threads (s : State) (f : GalSt → GalSt) : (s.updGal f).threads = s.threads := rfl
@[simp] theorem State.updGal_cores (s : State) (f : GalSt → GalSt) : (s.updGal f).cores = s.cores := rfl
@[simp] theorem State.updGal_coreMap (s : State) (f : GalSt → GalSt) : (s.updGal f).coreMap = s.coreMap := rfl
@[simp] theorem State.updGal_sparingGen (s : State) (f : GalSt → GalSt) : (s.updGal f).sparingGen = s.sparingGen := rfl
@[simp] theorem State.updGal_activeCores (s : State) (f : GalSt → GalSt) : (s.updGal f).activeCores = s.activeCores := rfl
@[simp] theorem State.updGal_coh (s : State) (f : GalSt → GalSt) : (s.updGal f).coh = s.coh := rfl
@[simp] theorem State.updGal_time (s : State) (f : GalSt → GalSt) : (s.updGal f).time = s.time := rfl
@[simp] theorem State.updGal_ev (s : State) (f : GalSt → GalSt) : (s.updGal f).ev = s.ev := rfl
@[simp] theorem State.updGal_memx (s : State) (f : GalSt → GalSt) : (s.updGal f).memx = s.memx := rfl
@[simp] theorem State.updGal_smrKey (s : State) (f : GalSt → GalSt) : (s.updGal f).smrKey = s.smrKey := rfl
@[simp] theorem State.updGal_keyGen (s : State) (f : GalSt → GalSt) : (s.updGal f).keyGen = s.keyGen := rfl
@[simp] theorem State.updGal_pwr (s : State) (f : GalSt → GalSt) : (s.updGal f).pwr = s.pwr := rfl
@[simp] theorem State.updGal_port (s : State) (f : GalSt → GalSt) : (s.updGal f).port = s.port := rfl
@[simp] theorem State.updGal_rtr (s : State) (f : GalSt → GalSt) : (s.updGal f).rtr = s.rtr := rfl
@[simp] theorem State.updGal_iot (s : State) (f : GalSt → GalSt) : (s.updGal f).iot = s.iot := rfl
@[simp] theorem State.updGal_brgs (s : State) (f : GalSt → GalSt) : (s.updGal f).brgs = s.brgs := rfl
@[simp] theorem State.updGal_lkp (s : State) (f : GalSt → GalSt) : (s.updGal f).lkp = s.lkp := rfl
@[simp] theorem State.updGal_tol (s : State) (f : GalSt → GalSt) : (s.updGal f).tol = s.tol := rfl
@[simp] theorem State.updGal_jtag (s : State) (f : GalSt → GalSt) : (s.updGal f).jtag = s.jtag := rfl
@[simp] theorem State.updGal_msh (s : State) (f : GalSt → GalSt) : (s.updGal f).msh = s.msh := rfl
@[simp] theorem State.updGal_ras (s : State) (f : GalSt → GalSt) : (s.updGal f).ras = s.ras := rfl
@[simp] theorem State.updGal_boot (s : State) (f : GalSt → GalSt) : (s.updGal f).boot = s.boot := rfl
@[simp] theorem State.updGal_gal (s : State) (f : GalSt → GalSt) : (s.updGal f).gal = f s.gal := rfl
@[simp] theorem State.updGal_thr (s : State) (f : GalSt → GalSt) (u : Nat) : (s.updGal f).thr u = s.thr u := rfl
@[simp] theorem State.updGal_core (s : State) (f : GalSt → GalSt) (u : Nat) : (s.updGal f).core u = s.core u := rfl
@[simp] theorem State.updGal_reg (s : State) (f : GalSt → GalSt) (u : Nat) : (s.updGal f).reg u = s.reg u := rfl
@[simp] theorem State.updGal_rf (s : State) (f : GalSt → GalSt) (u : Nat) (g : FieldAt) : (s.updGal f).rf u g = s.rf u g := rfl

@[simp] theorem State.updLkp_pending (s : State) (f : LkpSt → LkpSt) : (s.updLkp f).pending = s.pending := rfl
@[simp] theorem State.updLkp_freeCtr (s : State) (f : LkpSt → LkpSt) : (s.updLkp f).freeCtr = s.freeCtr := rfl
@[simp] theorem State.updLkp_variant (s : State) (f : LkpSt → LkpSt) : (s.updLkp f).variant = s.variant := rfl
@[simp] theorem State.updLkp_ccs (s : State) (f : LkpSt → LkpSt) : (s.updLkp f).ccs = s.ccs := rfl
@[simp] theorem State.updLkp_locks (s : State) (f : LkpSt → LkpSt) : (s.updLkp f).locks = s.locks := rfl
@[simp] theorem State.updLkp_seenPages (s : State) (f : LkpSt → LkpSt) : (s.updLkp f).seenPages = s.seenPages := rfl
@[simp] theorem State.updLkp_threads (s : State) (f : LkpSt → LkpSt) : (s.updLkp f).threads = s.threads := rfl
@[simp] theorem State.updLkp_cores (s : State) (f : LkpSt → LkpSt) : (s.updLkp f).cores = s.cores := rfl
@[simp] theorem State.updLkp_coreMap (s : State) (f : LkpSt → LkpSt) : (s.updLkp f).coreMap = s.coreMap := rfl
@[simp] theorem State.updLkp_sparingGen (s : State) (f : LkpSt → LkpSt) : (s.updLkp f).sparingGen = s.sparingGen := rfl
@[simp] theorem State.updLkp_activeCores (s : State) (f : LkpSt → LkpSt) : (s.updLkp f).activeCores = s.activeCores := rfl
@[simp] theorem State.updLkp_coh (s : State) (f : LkpSt → LkpSt) : (s.updLkp f).coh = s.coh := rfl
@[simp] theorem State.updLkp_time (s : State) (f : LkpSt → LkpSt) : (s.updLkp f).time = s.time := rfl
@[simp] theorem State.updLkp_ev (s : State) (f : LkpSt → LkpSt) : (s.updLkp f).ev = s.ev := rfl
@[simp] theorem State.updLkp_memx (s : State) (f : LkpSt → LkpSt) : (s.updLkp f).memx = s.memx := rfl
@[simp] theorem State.updLkp_smrKey (s : State) (f : LkpSt → LkpSt) : (s.updLkp f).smrKey = s.smrKey := rfl
@[simp] theorem State.updLkp_keyGen (s : State) (f : LkpSt → LkpSt) : (s.updLkp f).keyGen = s.keyGen := rfl
@[simp] theorem State.updLkp_pwr (s : State) (f : LkpSt → LkpSt) : (s.updLkp f).pwr = s.pwr := rfl
@[simp] theorem State.updLkp_port (s : State) (f : LkpSt → LkpSt) : (s.updLkp f).port = s.port := rfl
@[simp] theorem State.updLkp_rtr (s : State) (f : LkpSt → LkpSt) : (s.updLkp f).rtr = s.rtr := rfl
@[simp] theorem State.updLkp_iot (s : State) (f : LkpSt → LkpSt) : (s.updLkp f).iot = s.iot := rfl
@[simp] theorem State.updLkp_brgs (s : State) (f : LkpSt → LkpSt) : (s.updLkp f).brgs = s.brgs := rfl
@[simp] theorem State.updLkp_gal (s : State) (f : LkpSt → LkpSt) : (s.updLkp f).gal = s.gal := rfl
@[simp] theorem State.updLkp_tol (s : State) (f : LkpSt → LkpSt) : (s.updLkp f).tol = s.tol := rfl
@[simp] theorem State.updLkp_jtag (s : State) (f : LkpSt → LkpSt) : (s.updLkp f).jtag = s.jtag := rfl
@[simp] theorem State.updLkp_msh (s : State) (f : LkpSt → LkpSt) : (s.updLkp f).msh = s.msh := rfl
@[simp] theorem State.updLkp_ras (s : State) (f : LkpSt → LkpSt) : (s.updLkp f).ras = s.ras := rfl
@[simp] theorem State.updLkp_boot (s : State) (f : LkpSt → LkpSt) : (s.updLkp f).boot = s.boot := rfl
@[simp] theorem State.updLkp_lkp (s : State) (f : LkpSt → LkpSt) : (s.updLkp f).lkp = f s.lkp := rfl
@[simp] theorem State.updLkp_thr (s : State) (f : LkpSt → LkpSt) (u : Nat) : (s.updLkp f).thr u = s.thr u := rfl
@[simp] theorem State.updLkp_core (s : State) (f : LkpSt → LkpSt) (u : Nat) : (s.updLkp f).core u = s.core u := rfl
@[simp] theorem State.updLkp_reg (s : State) (f : LkpSt → LkpSt) (u : Nat) : (s.updLkp f).reg u = s.reg u := rfl
@[simp] theorem State.updLkp_rf (s : State) (f : LkpSt → LkpSt) (u : Nat) (g : FieldAt) : (s.updLkp f).rf u g = s.rf u g := rfl

@[simp] theorem State.tick_freeCtr (s : State) : s.tick.freeCtr = s.freeCtr + 1 := rfl

/-- A thread read after a write of a thread. -/
theorem State.setThr_thr (s : State) (t : Nat) (th : Thread) (u : Nat) : (s.setThr t th).thr u = if u = t then th else s.thr u := by
  simp only [State.thr, State.setThr]; exact smGet_smSet _ _ _ _ _
@[simp] theorem State.setThr_thr_self (s : State) (t : Nat) (th : Thread) : (s.setThr t th).thr t = th := by simp [State.setThr_thr]
theorem State.setThr_thr_ne (s : State) (t : Nat) (th : Thread) {u : Nat} (h : u ≠ t) : (s.setThr t th).thr u = s.thr u := by
  simp [State.setThr_thr, h]
@[simp] theorem State.updThr_thr_self (s : State) (t : Nat) (f : Thread → Thread) : (s.updThr t f).thr t = f (s.thr t) := by simp [State.updThr]
theorem State.updThr_thr_ne (s : State) (t : Nat) (f : Thread → Thread) {u : Nat} (h : u ≠ t) : (s.updThr t f).thr u = s.thr u := by
  simp [State.updThr, State.setThr_thr_ne _ _ _ h]
theorem State.updThr_thr (s : State) (t : Nat) (f : Thread → Thread) (u : Nat) : (s.updThr t f).thr u = if u = t then f (s.thr t) else s.thr u := by
  simp [State.updThr, State.setThr_thr]

/-- A core read after a write of a core. -/
theorem State.setCore_core (s : State) (p : Nat) (c : CoreSt) (u : Nat) : (s.setCore p c).core u = if u = p then c else s.core u := by
  simp only [State.core, State.setCore]; exact smGet_smSet _ _ _ _ _
@[simp] theorem State.setCore_core_self (s : State) (p : Nat) (c : CoreSt) : (s.setCore p c).core p = c := by simp [State.setCore_core]

/-- A register read after a write of a register. -/
theorem State.setReg_reg (s : State) (o : Nat) (v : Word) (u : Nat) : (s.setReg o v).reg u = if u = o then v else s.reg u := by
  simp only [State.reg, State.setReg]; exact smGet_smSet _ _ _ _ _
@[simp] theorem State.setReg_reg_self (s : State) (o : Nat) (v : Word) : (s.setReg o v).reg o = v := by simp [State.setReg_reg]
theorem State.setReg_reg_ne (s : State) (o : Nat) (v : Word) {u : Nat} (h : u ≠ o) : (s.setReg o v).reg u = s.reg u := by simp [State.setReg_reg, h]
theorem State.wf_reg (s : State) (o : Nat) (f : FieldAt) (x u : Nat) :
    (s.wf o f x).reg u = if u = o then setFld (s.reg o) f.1 f.2 x else s.reg u := by simp [State.wf, State.setReg_reg]
@[simp] theorem State.wf_reg_self (s : State) (o : Nat) (f : FieldAt) (x : Nat) : (s.wf o f x).reg o = setFld (s.reg o) f.1 f.2 x := by simp [State.wf_reg]
theorem State.wf_reg_ne (s : State) (o : Nat) (f : FieldAt) (x : Nat) {u : Nat} (h : u ≠ o) : (s.wf o f x).reg u = s.reg u := by simp [State.wf_reg, h]

end Sys2Proof.Machine
end

