-- ==== Sys2Proof/Laws/Run.lean ====
section
/-! SUPPORT. What counting and retirement leave, and what one instruction does when nothing stops it. -/
namespace Sys2Proof.Machine

theorem Counts.refl (a : State) : Counts a a := ⟨rfl, fun _ _ => rfl, fun _ => rfl⟩

theorem Counts.trans {a b c : State} (h : Counts a b) (k : Counts b c) : Counts a c where
  rest := by rw [k.rest, h.rest]
  regs := fun o ho => (k.regs o ho).trans (h.regs o ho)
  cores := fun p => by rw [k.cores p, h.cores p]

theorem Counts.foldl {α : Type} {g : State → α → State} (h : ∀ s x, Counts s (g s x)) (l : List α) (s : State) : Counts s (l.foldl g s) := by
  induction l generalizing s with
  | nil => exact .refl _
  | cons a r ih => exact (h s a).trans (ih _)

/-- A register of the stop pages is written. -/
theorem Counts.setReg (s : State) (o : Nat) (v : Word) (ho : 0x10000000 ≤ o) : Counts s (s.setReg o v) where
  rest := rfl
  regs := fun u hu => State.setReg_reg_ne _ _ _ (by omega)
  cores := fun _ => rfl

/-- Counters of a core are written. -/
theorem Counts.setCore (s : State) (p : Nat) (c : CoreSt) (h : c = { s.core p with pmc := c.pmc, pmcRet := c.pmcRet, sample := c.sample }) : Counts s (s.setCore p c) where
  rest := rfl
  regs := fun _ _ => rfl
  cores := fun q => by
    rw [State.setCore_core]
    split
    · subst q; exact h
    · rfl

theorem Counts.raiseIrq (s : State) (a b : Nat) : Counts s (s.raiseIrq a b) := ⟨rfl, fun _ _ => rfl, fun _ => rfl⟩


theorem Counts.ite {c : Prop} {hd : Decidable c} {s a b : State} (ha : Counts s a) (hb : Counts s b) : Counts s (if c then a else b) := by split <;> assumption

theorem State.bumpPmc_counts (s : State) (stop n : Nat) (cfg : Word) (th : Option Nat) (pa : Option Nat) (amount : Nat) : Counts s (s.bumpPmc stop n cfg th pa amount) := by
  unfold State.bumpPmc
  extract_lets c v c1 slot c2 s1
  have h2 : Counts s (s.setCore stop c2) := by
    refine .setCore _ _ _ ?_
    simp only [c2, c1]
    split <;> rfl
  refine .ite (.setCore _ _ _ rfl) ?_
  have h1 : Counts s s1 := h2.trans (.setReg _ _ _ (by unfold a_STP_PMU_OVF; omega))
  exact .ite (h1.trans (.raiseIrq ..)) h1

theorem State.countThr_counts (s : State) (t code : Nat) (a : AccCls) (pa : Option Nat) (amount : Nat) : Counts s (s.countThr t code a pa amount) := by
  refine Counts.foldl (fun s n => ?_) _ _
  unfold State.countOne
  extract_lets cfg
  exact .ite (State.bumpPmc_counts ..) (.refl _)

theorem State.countRet_counts (s : State) (t : Nat) : Counts s (s.countRet t) := by
  unfold State.countRet
  extract_lets stop k f h c v s1 s2
  have h1 : Counts s s1 := .setCore _ _ _ rfl
  have h2 : Counts s s2 := h1.trans (.setReg _ _ _ (by unfold a_STP_PMU_OVF; omega))
  exact .ite (.ite h1 (.ite (h2.trans (.raiseIrq ..)) h2)) (.refl _)

theorem State.writeSample_counts (s : State) (stop : Nat) (e : SampleWait) (t : Nat) : Counts s (s.writeSample stop e t) := by
  unfold State.writeSample
  extract_lets k h cfg hide lost info s1 s2 s3
  have h1 : Counts s s1 := .setReg _ _ _ (by unfold a_STP_PMU_SAMPLE_PC; omega)
  have h2 : Counts s s2 := h1.trans (.setReg _ _ _ (by unfold a_STP_PMU_SAMPLE_MT; omega))
  have h3 : Counts s s3 := h2.trans (.setReg _ _ _ (by unfold a_STP_PMU_SAMPLE_INFO; omega))
  exact h3.trans (.setReg _ _ _ (by unfold a_STP_PMU_SAMPLE_ADDR; omega))

theorem State.takeSamples_counts (s : State) (t : Nat) (due : SampleWait → Bool) : Counts s (s.takeSamples t due) := by
  unfold State.takeSamples
  extract_lets stop mine hit s1
  have h1 : Counts s s1 := .setCore _ _ _ rfl
  exact .ite (.refl _) (h1.trans (.foldl (fun s e => State.writeSample_counts ..) _ _))

theorem State.ageSamples_counts (s : State) (t : Nat) (pc : Word) (lv : Bool) : Counts s (s.ageSamples t pc lv) := by
  unfold State.ageSamples
  extract_lets stop s1 s2
  have h1 : Counts s s1 := State.takeSamples_counts ..
  have h2 : Counts s s2 := h1.trans (.setCore _ _ _ rfl)
  exact .ite (h2.trans (State.takeSamples_counts ..)) (.refl _)

/-- Retirement's counting. -/
theorem State.retired_counts (s : State) (t : Nat) (pc : Word) (lv : Bool) : Counts s (s.retired t pc lv) :=
  ((State.countThr_counts ..).trans (State.ageSamples_counts ..)).trans (State.countRet_counts ..)

theorem State.countFlops_counts (s : State) (t : Nat) (d : Bool) (a b : Nat) : Counts s (s.countFlops t d a b) :=
  .ite (State.countThr_counts ..) (.refl _)

/-- Counting leaves every thread. -/
theorem Counts.thr {a b : State} (h : Counts a b) (u : Nat) : b.thr u = a.thr u := by
  have e := h.rest
  simp only [State.thr]
  rw [e]

/-- A single-stepped thread halts where its world's invasive enable is in force (15 R471, R474), and nothing else changes. -/
theorem State.haltStep_thr (s : State) (t u : Nat) :
    (s.haltStep t).thr u = if u = t then { s.thr t with
      halted := (s.thr t).halted || ((s.thr t).stepOne && s.invasive t), stepOne := (s.thr t).stepOne && !s.invasive t } else s.thr u := by
  unfold State.haltStep
  by_cases hu : u = t
  · subst hu
    rw [if_pos rfl]
    split
    · rename_i h
      simp only [Bool.and_eq_true] at h
      rw [State.updThr_thr_self]
      simp [h.1, h.2]
    · rename_i h
      simp only [Bool.and_eq_true, not_and, Bool.not_eq_true] at h
      generalize s.thr u = th at h ⊢
      cases th
      simp_all
  · split <;> simp [hu, State.updThr_thr_ne _ _ _ hu]

/-- Halting a thread changes the threads only. -/
theorem State.haltStep_rest (s : State) (t : Nat) : s.haltStep t = { s with threads := (s.haltStep t).threads } := by
  unfold State.haltStep; split <;> rfl

/-- Retirement with TSTAT.STEP 0: the thread moves on, and only counting besides. -/
theorem State.retire_retires {s1 s3 : State} {t : Nat} {th : Thread} (pc0 pc : Word) (lv : Bool)
    (hth : s3.thr t = th) (ho : ∀ u, u ≠ t → s3.thr u = s1.thr u) (hc : Counts { s1 with threads := s3.threads } s3) :
    Retires t s1 th pc (s3.retire t pc0 pc false lv) := by
  generalize hx : s3.updThr t (fun th => { th with pc := pc, held := none }) = x
  have hr : s3.retire t pc0 pc false lv = (x.retired t pc0 lv).haltStep t := by simp [State.retire, hx]
  rw [hr]
  have hk := State.retired_counts x t pc0 lv
  generalize x.retired t pc0 lv = y at hk ⊢
  have hy := y.haltStep_rest t
  have h1 : y.thr t = { th with pc := pc, held := none } := by rw [hk.thr, ← hx, State.updThr_thr_self, hth]
  refine ⟨?_, fun u hu => ?_, ?_⟩
  · have hd : ∀ n, (y.haltStep t).dbgEnabled n = y.dbgEnabled n := fun n => by rw [hy]; rfl
    rw [y.haltStep_thr, if_pos rfl, h1]
    simp only [Thread.at, hd, State.invasive, h1]
    rfl
  · rw [y.haltStep_thr, if_neg hu, hk.thr, ← hx, State.updThr_thr_ne _ _ _ hu, ho u hu]
  · have e : y = { x with cores := y.cores, ccs := y.ccs, ev := { x.ev with irqs := y.ev.irqs } } := hk.rest
    have e3 := hc.rest
    refine ⟨?_, ?_, ?_⟩
    · rw [hy, e, ← hx]
      simp only [State.updThr, State.setThr] at *
      rw [e3]
    · intro o ho
      rw [hy]
      exact (hk.regs o ho).trans (by rw [← hx]; exact hc.regs o ho)
    · intro p
      rw [hy]
      refine (hk.cores p).trans ?_
      have := hc.cores p
      rw [← hx]
      exact congrArg (fun c : CoreSt => { c with pmc := (y.core p).pmc, pmcRet := (y.core p).pmcRet, sample := (y.core p).sample }) this

/-- b is a but for registers and the power controller's own state. -/
def OnlyPower (a b : State) : Prop := b = { a with ccs := b.ccs, pwr := b.pwr }
theorem OnlyPower.refl (a : State) : OnlyPower a a := rfl
theorem OnlyPower.trans {a b c : State} (h : OnlyPower a b) (k : OnlyPower b c) : OnlyPower a c := by unfold OnlyPower at *; rw [k, h]
theorem OnlyPower.wf (a : State) (o : Nat) (f : FieldAt) (x : Nat) : OnlyPower a (a.wf o f x) := rfl
theorem OnlyPower.ite {c : Prop} {hd : Decidable c} {s a b : State} (ha : OnlyPower s a) (hb : OnlyPower s b) : OnlyPower s (if c then a else b) := by split <;> assumption

theorem State.startWake_power (s : State) (d : Nat) : OnlyPower s (s.startWake d) := .ite rfl (.refl _)
theorem State.startOff_power (s : State) (d : Nat) : OnlyPower s (s.startOff d) :=
  .ite (.ite (.refl _) ((OnlyPower.wf ..).trans (.wf ..))) ((OnlyPower.wf ..).trans (.wf ..))
theorem State.followVotes_power (s : State) (d : Nat) : OnlyPower s (s.followVotes d) :=
  .ite (.refl _) (.ite (.ite (s.startWake_power d) (.ite (.wf ..) (.ite (.wf ..) (.refl _)))) (.ite (s.startOff_power d) (.refl _)))

/-- A vote changes registers and the power controller's own state, and nothing else (16 R492–R497). -/
theorem State.setVote_power (s : State) (d holder : Nat) (on : Bool) : OnlyPower s (s.setVote d holder on) := by
  unfold State.setVote
  extract_lets v v'
  exact .ite (.refl _) ((OnlyPower.wf ..).trans (State.followVotes_power ..))

/-- Asking for the long-vector unit moves no thread between cores. -/
theorem State.lvRequest_stopOf (s : State) (p t : Nat) : (s.lvRequest p).stopOf t = s.stopOf t := by
  have h := (s.updCore p (fun c => { c with lvLast := some s.time.mt })).setVote_power (224 + p) 4 true
  unfold State.lvRequest State.stopOf State.mapEnt
  rw [h]
  rfl

/-- A fetched word that is the instruction's own and allocated, or that the spec does not give, delivers the instruction. -/
theorem Executes.deliver {i : Instr} {t : Nat} {s s1 : State} {w : Option (BitVec 32)} {e : BitVec 32} (h : Executes i t s s1 w) (he : encodeEltor i = some e) :
    Machine.deliver e w = .here := by
  have ha := h.allocated
  rcases h.word with hw | hw
  · subst hw; rfl
  · rw [he] at hw
    subst hw
    have := ha e rfl
    simp only [Machine.deliver, Option.isSome_iff_ne_none, Option.isNone_iff_eq_none] at *
    simp [this]

/-- One instruction that nothing stops before its effect: decoding hands the state to the effect, and a breakpoint does not match. -/
theorem runInstr_eff {i : Instr} {t : Nat} {s s1 : State} {w : Option (BitVec 32)} {d : State → Dec} {eff : State → Eff} (h : Executes i t s s1 w)
    (hi : encodeEltor i = some (d s1).enc) (ha : (d s1).alloc = true)
    (hl : (d s1).lv = true → s1.lvAbsent (s1.stopOf t) = false ∧ (s1.lvRequest (s1.stopOf t)).lvReady (s1.stopOf t) = true) (hp : (d s1).priv = true) :
    runInstr t d eff s = (match eff (s1.begun t (d s1).ends w (d s1).lv) with
      | .trap s3 e tr => s3.raise t e tr
      | .wait s3 => s3.updThr t (fun th => { th with held := some ((s1.thr t).pc, w) })
      | .stop s3 => s3.updThr t (fun th => { th with held := some ((s1.thr t).pc, w) })
      | .next s3 => s3.retire t (s1.thr t).pc ((s1.thr t).pc + 4) false (d s1).lv
      | .goto s3 tgt => s3.retire t (s1.thr t).pc tgt false (d s1).lv) := by
  have hd := h.deliver hi
  obtain ⟨⟨h1, h2, h3, -, h4, h5⟩, -⟩ := h
  have hb := h4 (d s1).ends (d s1).lv
  unfold State.begun at hb ⊢
  cases hlv : (d s1).lv
  · simp only [hlv, if_false, Bool.false_eq_true] at hb ⊢
    simp only [runInstr, h1, h2, h3, hd, ha, hp, hb, h5, hlv, Bool.not_true, Option.isSome_none, if_false, Bool.false_eq_true, Bool.false_and]
    split <;> rename_i heq <;> simp [heq]
  · obtain ⟨l1, l2⟩ := hl hlv
    have hst := s1.lvRequest_stopOf (s1.stopOf t) t
    simp only [hlv, if_true] at hb ⊢
    simp only [runInstr, h1, h2, h3, hd, ha, hp, hb, h5, hlv, l1, hst, l2, Bool.not_true, Option.isSome_none, if_false, if_true, Bool.false_eq_true, Bool.and_false, Bool.false_and]
    split <;> rename_i heq <;> simp [heq]

/-- An instruction that only changes its thread. -/
theorem compute_retires {i : Instr} {t : Nat} {s s1 : State} {w : Option (BitVec 32)} {enc : BitVec 32} (f : Thread → Thread) (h : Executes i t s s1 w)
    (hi : encodeEltor i = some enc) : Retires t s1 (f ((s1.thr t).decoded false w)) ((s1.thr t).pc + 4) (compute t enc true f s) := by
  unfold compute
  rw [runInstr_eff h hi rfl (by simp) rfl]
  refine State.retire_retires _ _ _ ?_ (fun u hu => ?_) ?_
  · simp [State.begun]
  · simp [State.begun, State.updThr_thr_ne _ _ _ hu]
  · exact .refl _

end Sys2Proof.Machine
end

