-- ==== Sys2Proof/WellFormed.lean ====
section
/-! DEFINITION. Well-formed commands: every operand names something the spec gives the block. A command that is not well-formed names nothing, and its meaning leaves the state as it is or reads it as the nearest field would. -/
namespace Sys2Proof

/-- A logical thread: 0–831 (01 R14). -/
def threadOk (t : Nat) : Bool := decide (t < 832)
/-- A stop: 0–223 (01 R15). -/
def stopOk (p : Nat) : Bool := decide (p < 224)
/-- A line number: physical address bits [51:6] (01 R24). -/
def lineOk (x : Nat) : Bool := decide (x < 2 ^ 46)
/-- A Galley ring (17 R522). -/
def ringOk (r : Nat) : Bool := decide (r < 4)
/-- An Event Queue (17 R536). -/
def queueOk (q : Nat) : Bool := decide (q < 3)
/-- A switchable power domain (16 R489). -/
def domainOk (d : Nat) : Bool := decide (d < 788)
/-- A berth (12 R362). -/
def berthOk (b : Nat) : Bool := decide (b < 64)
/-- A Barge channel (13 R388). -/
def channelOk (c : Nat) : Bool := decide (c < 128)
/-- A Barge engine (13 R388). -/
def engineOk (e : Nat) : Bool := decide (e < 16)
/-- A DDR5 channel (09 R242). -/
def ddrOk (c : Nat) : Bool := decide (c < 16)
/-- A memory unit: DDR5 channels 0–15, HBM stacks 16–19 (09 R242). -/
def unitOk (u : Nat) : Bool := decide (u < 20)
/-- An HBM stack (09 R242). -/
def stackOk (k : Nat) : Bool := decide (k < 4)
/-- A rank, or a pseudo-channel of a stack (09 R243). -/
def pcOk (k : Nat) : Bool := decide (k < 32)
/-- A unit with bandwidth windows (19 R588). -/
def bwOk (u : Nat) : Bool := decide (u < 67)
/-- A root port, or the Wharf as 8 (14 R420). -/
def portOk (p : Nat) : Bool := decide (p ≤ 8)
/-- A root port (14 R420). -/
def rootPortOk (p : Nat) : Bool := decide (p < 8)
/-- A link of a port (14 R421). -/
def linkOk (l : Nat) : Bool := decide (l < 4)
/-- An outstanding tag (14 R420). -/
def tagOk (k : Nat) : Bool := decide (k < 768)
/-- A Wharf function: PF0, PF1, VF0–VF15 (14 R436). -/
def fnOk (k : Nat) : Bool := decide (k < 18)
/-- A VF (14 R436). -/
def vfOk (k : Nat) : Bool := decide (k < 16)
/-- A number of VFs (14 R450). -/
def vfCountOk (k : Nat) : Bool := decide (k ≤ 16)
/-- A tenant-reset slot (11 R339). -/
def slotOk (k : Nat) : Bool := decide (k < 8)
/-- A QoS class (11 R334). -/
def classOk (k : Nat) : Bool := decide (k < 64)
/-- A stream ID (10 R298). -/
def streamOk (k : Nat) : Bool := decide (k < 2 ^ 20)
/-- A device address (10 R299). -/
def iovaOk (k : Nat) : Bool := decide (k < 2 ^ 64)
/-- An event ID (11 R317). -/
def eventOk (k : Nat) : Bool := decide (k < 2 ^ 16)
/-- A source number (11 R317). -/
def sourceOk (k : Nat) : Bool := decide (k < 2 ^ 20)
/-- A requester number (08 R216). -/
def ioAgentOk (k : Nat) : Bool := decide (k < 256)
/-- POSTREC (11 R347). -/
def recordOk (k : Nat) : Bool := decide (k < 2 ^ 45)
/-- A VMID (02 R48). -/
def vmidOk (k : Nat) : Bool := decide (k < 2 ^ 16)
/-- A 16-bit field. -/
def halfOk (k : Nat) : Bool := decide (k < 2 ^ 16)
/-- An 8-bit field. -/
def byteOk (k : Nat) : Bool := decide (k < 256)
/-- A secure memory region (15 R462). -/
def smrOk (k : Nat) : Bool := decide (k < 64)
/-- An HDM decoder (14 R427). -/
def hdmOk (k : Nat) : Bool := decide (k < 8)
/-- An aqueduct (01 R16). -/
def aqueductOk (k : Nat) : Bool := decide (k < 38)
/-- A kind of mesh element (08 R239). -/
def elementOk (k : Nat) : Bool := decide (k < 8)
/-- A cache array: L1D, L1I, L2, LLC, directory (07 R178). -/
def levelOk (k : Nat) : Bool := decide (k < 5)
/-- A way (07 R170, 08 R219). -/
def wayOk (k : Nat) : Bool := decide (k < 20)
/-- A core array (18 R577). -/
def arrayOk (k : Nat) : Bool := decide (1 ≤ k) && decide (k ≤ 8)
/-- An atomic operation (03 R83). -/
def atopOk (k : Nat) : Bool := decide (k ≤ 10)
/-- A size code. -/
def sizeOk (k : Nat) : Bool := decide (k < 4)
/-- Clean, invalidate or both (07 R181). -/
def cmoOk (k : Nat) : Bool := decide (k < 3)
/-- An output pin of a PULSE (12 R366). -/
def pinOk (k : Nat) : Bool := decide (k < 2)
/-- A sensor (17 R533). -/
def sensorOk (k : Nat) : Bool := decide (k < 2 ^ 16)
/-- A package rail (21 R605). -/
def railOk (k : Nat) : Bool := decide (k < 16)
/-- A WARN_THREAD field (15 R484). -/
def threadFieldOk (k : Nat) : Bool := decide (k < 1024)
/-- An IPv4 address (17 R519). -/
def ipOk (k : Nat) : Bool := decide (k < 2 ^ 32)
/-- A UDP port (17 R518). -/
def udpOk (k : Nat) : Bool := decide (k < 2 ^ 16)
/-- A Towpath clock source (01 R18). -/
def clockOk (k : Nat) : Bool := decide (k < 3)
/-- A Towpath ring (17 R521). -/
def towpathOk (k : Nat) : Bool := decide (k < 2)
/-- A TLP payload or read size (14 R420). -/
def payloadOk (n : Nat) : Bool := decide (1 ≤ n) && decide (n ≤ 4096)
/-- One value for each tile or stack. -/
def tilesOk (n : Nat) : Bool := decide (n = 4)
/-- One value for each channel. -/
def dimmsOk (n : Nat) : Bool := decide (n = 16)
/-- At most 16 elements (06 R159). -/
def lanesOk (n : Nat) : Bool := decide (n ≤ 16)
/-- A requester as violation records name it (15 R480). -/
def agentOk (a : Agent) : Bool := decide (a.kind < 3) && decide (a.num < 2 ^ 20) && decide (a.vmid < 2 ^ 16)
/-- A register access, naturally aligned in Chip Control Space (00 R11, 01 R26). -/
def regOffOk (off : Nat) (half : Bool) : Bool := decide (off < 2 ^ 33) && off % (if half then 4 else 8) == 0
/-- A device operation with a payload (14 R424). -/
def devOpOk : DevOp → Bool
  | .read n => payloadOk n
  | .write bs => payloadOk bs.length
  | .fetchAdd n v => payloadOk n && decide (v < 2 ^ 128)
  | .swap n v => payloadOk n && decide (v < 2 ^ 128)
  | .cas n cmp v => payloadOk n && decide (cmp < 2 ^ 128) && decide (v < 2 ^ 128)
/-- What a DRAM access finds (09 R260). -/
def memErrOk (e : MemErr) : Bool := decide (e.kind < 8) && decide (e.rank < 32)
/-- A reported error (18 R548). -/
def rasErrOk (e : RasErr) : Bool := decide (e.kind < 10) && decide (e.stop < 224)

/-- Does every operand of a command name something the spec gives the block? -/
def Instr.wf : Instr → Bool
  | .registerWrite a off half _ => agentOk a && regOffOk off half
  | .towpathClockSourceFail k => clockOk k
  | .add t _ _ _ => threadOk t
  | .sub t _ _ _ => threadOk t
  | .iand t _ _ _ => threadOk t
  | .ior t _ _ _ => threadOk t
  | .ixor t _ _ _ => threadOk t
  | .andn t _ _ _ => threadOk t
  | .sll t _ _ _ => threadOk t
  | .srl t _ _ _ => threadOk t
  | .sra t _ _ _ => threadOk t
  | .ror t _ _ _ => threadOk t
  | .addw t _ _ _ => threadOk t
  | .subw t _ _ _ => threadOk t
  | .seq t _ _ _ => threadOk t
  | .sne t _ _ _ => threadOk t
  | .slt t _ _ _ => threadOk t
  | .sltu t _ _ _ => threadOk t
  | .sge t _ _ _ => threadOk t
  | .sgeu t _ _ _ => threadOk t
  | .imin t _ _ _ => threadOk t
  | .imax t _ _ _ => threadOk t
  | .minu t _ _ _ => threadOk t
  | .maxu t _ _ _ => threadOk t
  | .addc t _ _ _ => threadOk t
  | .subb t _ _ _ => threadOk t
  | .selnz t _ _ _ => threadOk t
  | .clz t _ _ => threadOk t
  | .ctz t _ _ => threadOk t
  | .pop t _ _ => threadOk t
  | .bswap t _ _ => threadOk t
  | .sextB t _ _ => threadOk t
  | .sextH t _ _ => threadOk t
  | .sextW t _ _ => threadOk t
  | .zextW t _ _ => threadOk t
  | .mul t _ _ _ => threadOk t
  | .mulh t _ _ _ => threadOk t
  | .mulhu t _ _ _ => threadOk t
  | .mulhsu t _ _ _ => threadOk t
  | .mulwu t _ _ _ => threadOk t
  | .mulws t _ _ _ => threadOk t
  | .div t _ _ _ => threadOk t
  | .divu t _ _ _ => threadOk t
  | .rem t _ _ _ => threadOk t
  | .remu t _ _ _ => threadOk t
  | .divw t _ _ _ => threadOk t
  | .divwu t _ _ _ => threadOk t
  | .addi t _ _ _ => threadOk t
  | .andi t _ _ _ => threadOk t
  | .ori t _ _ _ => threadOk t
  | .xori t _ _ _ => threadOk t
  | .slti t _ _ _ => threadOk t
  | .sltiu t _ _ _ => threadOk t
  | .lui t _ _ => threadOk t
  | .insi t _ _ _ => threadOk t
  | .addpc t _ _ => threadOk t
  | .slli t _ _ _ => threadOk t
  | .srli t _ _ _ => threadOk t
  | .srai t _ _ _ => threadOk t
  | .rori t _ _ _ => threadOk t
  | .lb t _ _ _ => threadOk t
  | .lbu t _ _ _ => threadOk t
  | .lh t _ _ _ => threadOk t
  | .lhu t _ _ _ => threadOk t
  | .lw t _ _ _ => threadOk t
  | .lwu t _ _ _ => threadOk t
  | .ld t _ _ _ => threadOk t
  | .lq t _ _ _ => threadOk t
  | .sb t _ _ _ => threadOk t
  | .sh t _ _ _ => threadOk t
  | .sw t _ _ _ => threadOk t
  | .sd t _ _ _ => threadOk t
  | .sq t _ _ _ => threadOk t
  | .memx t _ _ _ _ _ _ => threadOk t
  | .flh t _ _ _ => threadOk t
  | .flw t _ _ _ => threadOk t
  | .fld t _ _ _ => threadOk t
  | .svl t _ _ _ => threadOk t
  | .fsh t _ _ _ => threadOk t
  | .fsw t _ _ _ => threadOk t
  | .fsd t _ _ _ => threadOk t
  | .svs t _ _ _ => threadOk t
  | .atomAdd t _ _ _ _ _ _ => threadOk t
  | .atomAnd t _ _ _ _ _ _ => threadOk t
  | .atomOr t _ _ _ _ _ _ => threadOk t
  | .atomXor t _ _ _ _ _ _ => threadOk t
  | .atomSmin t _ _ _ _ _ _ => threadOk t
  | .atomSmax t _ _ _ _ _ _ => threadOk t
  | .atomUmin t _ _ _ _ _ _ => threadOk t
  | .atomUmax t _ _ _ _ _ _ => threadOk t
  | .atomSwap t _ _ _ _ _ _ => threadOk t
  | .atomCas t _ _ _ _ _ _ => threadOk t
  | .atomFadd t _ _ _ _ _ _ => threadOk t
  | .beq t _ _ _ => threadOk t
  | .bne t _ _ _ => threadOk t
  | .blt t _ _ _ => threadOk t
  | .bge t _ _ _ => threadOk t
  | .bltu t _ _ _ => threadOk t
  | .bgeu t _ _ _ => threadOk t
  | .loop t _ _ => threadOk t
  | .jmp t _ => threadOk t
  | .jal t _ => threadOk t
  | .jalr t _ _ _ => threadOk t
  | .mfs t _ _ => threadOk t
  | .mts t _ _ => threadOk t
  | .syncs t => threadOk t
  | .xret t => threadOk t
  | .wait t => threadOk t
  | .waitWake t => threadOk t
  | .fenceLl t => threadOk t
  | .fenceLs t => threadOk t
  | .fenceSl t => threadOk t
  | .fenceSs t => threadOk t
  | .fenceFull t => threadOk t
  | .fenceIo t => threadOk t
  | .fenceFetch t => threadOk t
  | .isend t _ _ => threadOk t
  | .syscall t _ => threadOk t
  | .hypcall t _ => threadOk t
  | .moncall t _ => threadOk t
  | .ibreak t _ => threadOk t
  | .cmoC t _ => threadOk t
  | .cmoI t _ => threadOk t
  | .cmoCi t _ => threadOk t
  | .cmoRangeC t _ _ _ => threadOk t
  | .cmoRangeI t _ _ _ => threadOk t
  | .cmoRangeCi t _ _ _ => threadOk t
  | .cmoSwC t _ => threadOk t
  | .cmoSwI t _ => threadOk t
  | .cmoSwCi t _ => threadOk t
  | .tlbiVa t _ _ => threadOk t
  | .tlbiAsid t _ => threadOk t
  | .tlbiVmid t _ => threadOk t
  | .tlbiAll t => threadOk t
  | .fadd t _ _ _ _ => threadOk t
  | .fsub t _ _ _ _ => threadOk t
  | .fmul t _ _ _ _ => threadOk t
  | .fdiv t _ _ _ _ => threadOk t
  | .fsqrt t _ _ _ => threadOk t
  | .fmadd t _ _ _ _ => threadOk t
  | .fmsub t _ _ _ _ => threadOk t
  | .fmin t _ _ _ _ => threadOk t
  | .fmax t _ _ _ _ => threadOk t
  | .fabs t _ _ _ => threadOk t
  | .fneg t _ _ _ => threadOk t
  | .fcmpeq t _ _ _ _ => threadOk t
  | .fcmplt t _ _ _ _ => threadOk t
  | .fcmple t _ _ _ _ => threadOk t
  | .fclass t _ _ _ => threadOk t
  | .fcvt t _ _ _ _ => threadOk t
  | .fcvti t _ _ _ => threadOk t
  | .fcvtiu t _ _ _ => threadOk t
  | .fcvtf t _ _ _ => threadOk t
  | .fcvtfu t _ _ _ => threadOk t
  | .fmve t _ _ _ => threadOk t
  | .fmvs t _ _ _ => threadOk t
  | .vadd t _ _ _ _ _ _ => threadOk t
  | .vsub t _ _ _ _ _ _ => threadOk t
  | .vmul t _ _ _ _ _ _ => threadOk t
  | .vmulh t _ _ _ _ _ _ => threadOk t
  | .vmin t _ _ _ _ _ _ => threadOk t
  | .vmax t _ _ _ _ _ _ => threadOk t
  | .vminu t _ _ _ _ _ _ => threadOk t
  | .vmaxu t _ _ _ _ _ _ => threadOk t
  | .vand t _ _ _ _ _ _ => threadOk t
  | .vor t _ _ _ _ _ _ => threadOk t
  | .vxor t _ _ _ _ _ _ => threadOk t
  | .vsll t _ _ _ _ _ _ => threadOk t
  | .vsrl t _ _ _ _ _ _ => threadOk t
  | .vsra t _ _ _ _ _ _ => threadOk t
  | .vfma t _ _ _ _ _ _ => threadOk t
  | .vfms t _ _ _ _ _ _ => threadOk t
  | .vdiv t _ _ _ _ _ _ => threadOk t
  | .vsqrt t _ _ _ _ _ => threadOk t
  | .vcmpeq t _ _ _ _ _ _ => threadOk t
  | .vcmplt t _ _ _ _ _ _ => threadOk t
  | .vcmple t _ _ _ _ _ _ => threadOk t
  | .vcmpltu t _ _ _ _ _ _ => threadOk t
  | .vredsum t _ _ _ _ _ => threadOk t
  | .vredmin t _ _ _ _ _ => threadOk t
  | .vredmax t _ _ _ _ _ => threadOk t
  | .vsad t _ _ _ _ _ _ => threadOk t
  | .vsada t _ _ _ _ _ _ => threadOk t
  | .vcvt t _ _ _ _ _ _ => threadOk t
  | .vbcast t _ _ _ _ _ => threadOk t
  | .vsel t _ _ _ _ _ _ => threadOk t
  | .vperm t _ _ _ _ _ _ => threadOk t
  | .vext t _ _ _ _ _ _ => threadOk t
  | .mand t _ _ _ => threadOk t
  | .mor t _ _ _ => threadOk t
  | .mxor t _ _ _ => threadOk t
  | .mandn t _ _ _ => threadOk t
  | .mnot t _ _ => threadOk t
  | .mpop t _ _ => threadOk t
  | .mfirst t _ _ => threadOk t
  | .mget t _ _ _ => threadOk t
  | .mset t _ _ _ => threadOk t
  | .vlsLoad t _ _ _ _ _ _ _ => threadOk t
  | .vlsStore t _ _ _ _ _ _ _ => threadOk t
  | .vgather t _ _ _ _ _ _ _ _ _ _ => threadOk t
  | .vscatter t _ _ _ _ _ _ _ _ _ _ => threadOk t
  | .irqPhys t => threadOk t
  | .irqVirt t => threadOk t
  | .loopCountWait t _ _ => threadOk t
  | .stagingRead t _ => threadOk t
  | .storeBufferDrain t => threadOk t
  | .lineFill stop line level cls => stopOk stop && lineOk line && levelOk level && classOk cls
  | .wayDisableComplete level stop way => levelOk level && stopOk stop && wayOk way
  | .rdshared t line _ _ => threadOk t && lineOk line
  | .rdcode t line _ => threadOk t && lineOk line
  | .rdown t line _ => threadOk t && lineOk line
  | .upgrade t line _ => threadOk t && lineOk line
  | .rdcur agent line _ cls stream => ioAgentOk agent && lineOk line && classOk cls && streamOk stream
  | .gatherreq t _ _ _ esz elems => threadOk t && sizeOk esz && lanesOk elems.length
  | .wrline agent line _ cls stream _ _ => ioAgentOk agent && lineOk line && classOk cls && streamOk stream
  | .wrpart agent line _ cls stream _ _ _ => ioAgentOk agent && lineOk line && classOk cls && streamOk stream
  | .atomfar t line _ _ _ atop size _ _ _ => threadOk t && lineOk line && atopOk atop && sizeOk size
  | .wbreq stop line => stopOk stop && lineOk line
  | .evictclean stop line => stopOk stop && lineOk line
  | .cmoreq t line _ op => threadOk t && lineOk line && cmoOk op
  | .snpshared stop line => stopOk stop && lineOk line
  | .snpown stop line => stopOk stop && lineOk line
  | .snpinv stop line => stopOk stop && lineOk line
  | .snpcur stop line => stopOk stop && lineOk line
  | .snprecall stop line => stopOk stop && lineOk line
  | .wbpull stop line => stopOk stop && lineOk line
  | .snpresp stop line => stopOk stop && lineOk line
  | .cmp stop line => stopOk stop && lineOk line
  | .compack stop line => stopOk stop && lineOk line
  | .wbcancel stop line => stopOk stop && lineOk line
  | .atomresp t line => threadOk t && lineOk line
  | .cmodone t line => threadOk t && lineOk line
  | .data stop line => stopOk stop && lineOk line
  | .fwddata stop line => stopOk stop && lineOk line
  | .snpdata stop line => stopOk stop && lineOk line
  | .wbdata stop line => stopOk stop && lineOk line
  | .gatherdata t line => threadOk t && lineOk line
  | .holdWindowEnd stop line => stopOk stop && lineOk line
  | .flitCrcError kind stop _ _ => elementOk kind && stopOk stop
  | .linkRetrainEnd kind stop _ _ _ => elementOk kind && stopOk stop
  | .meshLinkFailed kind stop => elementOk kind && stopOk stop
  | .aqueductIdleTimeout n => aqueductOk n
  | .memoryRequest line _ cls _ => lineOk line && classOk cls
  | .dramAccessComplete _ e => memErrOk e
  | .refreshDue u r _ => unitOk u && pcOk r
  | .selfRefreshEntry u => unitOk u
  | .selfRefreshExit u pc _ => unitOk u && pcOk pc
  | .periodicRetrain u pc _ => unitOk u && pcOk pc
  | .substWalkEnd c r => ddrOk c && pcOk r
  | .channelFailure c cause => ddrOk c && byteOk cause
  | .ddrFailover c => ddrOk c
  | .patrolScrub u e => unitOk u && memErrOk e
  | .hbmRowRepair st pc _ _ => stackOk st && pcOk pc
  | .deviceRequest stream iova op _ _ => streamOk stream && iovaOk iova && devOpOk op
  | .msiWrite stream iova _ => streamOk stream && iovaOk iova
  | .atsTranslationRequest stream iova _ => streamOk stream && iovaOk iova
  | .atsInvTimeout stream => streamOk stream
  | .iotInvStream a stream _ => agentOk a && streamOk stream
  | .iotInvAll a stream _ => agentOk a && streamOk stream
  | .internalInterrupt src ev => sourceOk src && eventOk ev
  | .doorbell t => threadOk t
  | .take t => threadOk t
  | .takeReply t => threadOk t
  | .recordLoad a n rec => agentOk a && threadOk n && recordOk rec
  | .recordUnload a n => agentOk a && threadOk n
  | .irtTcmdInvalidateSource a _ src => agentOk a && sourceOk src
  | .irtTcmdInvalidateAll a => agentOk a
  | .irtTcmdPin a _ src ev => agentOk a && sourceOk src && eventOk ev
  | .irtTcmdUnpin a _ src ev => agentOk a && sourceOk src && eventOk ev
  | .irtAckN a n => agentOk a && threadOk n
  | .irtAckS a n => agentOk a && threadOk n
  | .irqDeadline _ => true
  | .bandwidthWindow => true
  | .tenantReset r => ringOk r
  | .tenantResetDone slot => slotOk slot
  | .resetTimeout slot => slotOk slot
  | .tenantRelease r => ringOk r
  | .qosTrstReset a vmid cls => agentOk a && vmidOk vmid && classOk cls
  | .qosTrstRelease a vmid cls => agentOk a && vmidOk vmid && classOk cls
  | .mtCodeFrame _ _ => true
  | .mtEpoch => true
  | .referenceLost => true
  | .ptpWaitExpiry => true
  | .ptpSync _ _ => true
  | .slewEnd => true
  | .passagePresent b => berthOk b
  | .raise b => berthOk b
  | .release b => berthOk b
  | .snapshot b => (match b with | some x => berthOk x | none => true)
  | .pulse b => berthOk b
  | .pulseEnd pin => pinOk pin
  | .vote b => berthOk b
  | .snapshotComplete => true
  | .berthQuotaSet r => ringOk r
  | .berthAlloc r => ringOk r
  | .berthFree r => ringOk r
  | .berthArm r => ringOk r
  | .berthDisarm r => ringOk r
  | .berthQuery r => ringOk r
  | .timeStatus r => ringOk r
  | .timePtp r => ringOk r
  | .syncGate r => ringOk r
  | .lkpBerthCfgWrite a b _ => agentOk a && berthOk b
  | .lkpSecResWrite a _ => agentOk a
  | .lkpSyncCtlArm a timeout => agentOk a && halfOk timeout
  | .lkpSyncCtlDisarm a timeout => agentOk a && halfOk timeout
  | .syncInRise => true
  | .syncInFall => true
  | .syncTimeout => true
  | .brgChTail a c tail => agentOk a && channelOk c && halfOk tail
  | .manifestTake c => channelOk c
  | .manifestStart c => channelOk c
  | .manifestEnd c => channelOk c
  | .statusWriteAccepted c => channelOk c
  | .dmaDeadline c => channelOk c
  | .brgChEnable a c _ => agentOk a && channelOk c
  | .brgChDisable a c => agentOk a && channelOk c
  | .brgChRestart a c => agentOk a && channelOk c
  | .brgChAbort a c => agentOk a && channelOk c
  | .channelStopComplete c => channelOk c
  | .disableTimeout c => channelOk c
  | .shadowArm a c => agentOk a && channelOk c
  | .handOver c => channelOk c
  | .engineDepRelease e => engineOk e
  | .inboundWrite p req addr bs _ _ _ => portOk p && streamOk req && iovaOk addr && payloadOk bs.length
  | .inboundRead p req addr n _ _ => portOk p && streamOk req && iovaOk addr && payloadOk n
  | .inboundAtomicop p req addr op _ _ => portOk p && streamOk req && iovaOk addr && devOpOk op
  | .completion p l tag status completer _ _ => portOk p && linkOk l && tagOk tag && byteOk status && halfOk completer
  | .completionTimeout p l tag => portOk p && linkOk l && tagOk tag
  | .quarantineEnd p l tag => portOk p && linkOk l && tagOk tag
  | .linkDown p l cause => portOk p && linkOk l && byteOk cause
  | .linkUp p l rate width _ => portOk p && linkOk l && byteOk rate && byteOk width
  | .portHotReset p l _ => portOk p && linkOk l
  | .rptHdmWrite a p n _ => agentOk a && rootPortOk p && hdmOk n
  | .peerWindowAccess x op _ => iovaOk x && devOpOk op
  | .whfPwCommit a mask => agentOk a && byteOk mask
  | .flr fn => fnOk fn
  | .busMasterClear fn => fnOk fn
  | .vfDisable n => vfCountOk n
  | .whfVfCtlReset a v => agentOk a && vfOk v
  | .funcReset fn => fnOk fn
  | .funcDisableTimeout fn => fnOk fn
  | .whfIrqGo a fn vec => agentOk a && fnOk fn && byteOk vec
  | .hostPerst _ => true
  | .tolSmrWrite a n _ => agentOk a && smrOk n
  | .mapLock a => agentOk a
  | .random a => agentOk a
  | .sha384 a _ _ _ => agentOk a
  | .ecdsaVerify a _ _ _ => agentOk a
  | .mldsaVerify a _ _ _ _ => agentOk a
  | .seal a _ _ _ => agentOk a
  | .unseal a _ _ _ => agentOk a
  | .mailboxComplete => true
  | .debugChallenge r => ringOk r
  | .debugUnlock r => ringOk r
  | .debugStatus r => ringOk r
  | .debugLock r => ringOk r
  | .debugTokenPart r => ringOk r
  | .debugGrantNormal r => ringOk r
  | .debugEnableExpiry => true
  | .extest cells => decide (cells.length ≤ 7545)
  | .samplePreload _ => true
  | .idcode _ => true
  | .bypass opcode => !([0x00, 0x01, 0x02, 0x10, 0x11, 0x12].contains opcode.toNat)
  | .bootstat => true
  | .debugAddr _ => true
  | .debugRead _ => true
  | .debugWrite _ _ => true
  | .debugHaltControl _ => true
  | .watchdogStart a timeout intid thread => agentOk a && halfOk timeout && byteOk intid && threadFieldOk thread
  | .tolWdogKick a v => agentOk a && halfOk v
  | .wdogWarning => true
  | .wdogExpiry => true
  | .pvcHypVote a d _ => agentOk a && domainOk d
  | .pvcSecVote a d _ => agentOk a && domainOk d
  | .pvcClk a d _ => agentOk a && domainOk d
  | .domainDrained d => domainOk d
  | .powerGood d => domainOk d
  | .wakeTimeout d => domainOk d
  | .pllLock d => domainOk d
  | .pllLockFailed d => domainOk d
  | .clockRefLost => true
  | .clockRefRestored => true
  | .switchToken => true
  | .wearCopy => true
  | .powerStatus r => ringOk r
  | .hostDirectEnter r => ringOk r
  | .hostDirectExit r => ringOk r
  | .domainSet r => ringOk r
  | .powerCapSet r => ringOk r
  | .powerCapStatus r => ringOk r
  | .frequencyRecompute => true
  | .powerCapLoop _ => true
  | .galTail a r tail => agentOk a && ringOk r && halfOk tail
  | .galleyTake r => ringOk r
  | .galStatErrClear a r => agentOk a && ringOk r
  | .nop r => ringOk r
  | .netConfig r => ringOk r
  | .coreStatus r => ringOk r
  | .coreReset r => ringOk r
  | .coreRetire r => ringOk r
  | .chipReset r => ringOk r
  | .memStatus r => ringOk r
  | .memRetrain r pc _ => ringOk r && pcOk pc
  | .errInject r => ringOk r
  | .telemetryRead r _ _ => ringOk r
  | .logbookInfo r => ringOk r
  | .logbookRead r => ringOk r
  | .fwStageBegin r => ringOk r
  | .fwStageData r => ringOk r
  | .fwStageCommit r => ringOk r
  | .fwVerifyDone _ _ _ => true
  | .fwStatus r => ringOk r
  | .snapshotNow r => ringOk r
  | .counterRead r => ringOk r
  | .galleyDatagram addr port _ => ipOk addr && udpOk port
  | .arpRequest target sender => ipOk target && ipOk sender
  | .icmpEcho target sender _ => ipOk target && ipOk sender
  | .mgmtLinkUp => true
  | .lengthsmanFault cause => byteOk cause
  | .lenRestart => true
  | .towpathBreak ring node => towpathOk ring && halfOk node
  | .evqCons a q cons => agentOk a && queueOk q && halfOk cons
  | .evqCtlWrite a q _ => agentOk a && queueOk q
  | .rasReport e => rasErrOk e
  | .coreArrayUe stop array masks => stopOk stop && arrayOk array && tilesOk masks.length
  | .coreSpared stop => stopOk stop
  | .sparingFlushEnd stop => stopOk stop
  | .sampleRecord t => threadOk t
  | .bandwidthWindowEnd u => bwOk u
  | .uncBwCtlWrite a u _ => agentOk a && bwOk u
  | .resetNRelease _ => true
  | .resetNAssert => true
  | .tollhouseFwVerified => true
  | .lengthsmanStart => true
  | .referencePresent => true
  | .railsInTolerance => true
  | .railEnableTimeout rail mv cause => railOk rail && halfOk mv && byteOk cause
  | .fabricReady => true
  | .memoryTrained dimms _ => dimmsOk dimms.length
  | .clearComplete => true
  | .bootDone => true
  | .warmChipReset => true
  | .coldResetCommand => true
  | .railFault rail mv => railOk rail && halfOk mv
  | .thermalControlTick tiles _ hbm => tilesOk tiles.length && tilesOk hbm.length
  | .thermalTrip sensor _ => sensorOk sensor
  | .mtRefclkReturn => true
  | .epochMissing => true
  | .longVectorIdleTimeout stop => stopOk stop
  | .atsInvCompletion stream => streamOk stream
  | .vfEnable n => vfCountOk n
  | .busMasterEnable fn masks => fnOk fn && masks.all (fun m => m.2.all (fun v => decide (v < 64)))
  | .pf0Enable => true

end Sys2Proof
end

