-- ==== Sys2Proof/Tests/Slice0.lean ====
section
/-! SUPPORT. Tests: the well-formedness checks, words of encodings written out by hand, single steps with results from the spec, and for each statement states and operands that meet its hypotheses. -/
namespace Sys2Proof.Tests
open Sys2Proof.Machine
set_option Elab.async false

/-! ### Helpers -/

/-- The state after reset with thread 0 changed. -/
def at0 (f : Thread → Thread) : State := State.reset.updThr 0 f
/-- The state that thread 0's fetch leaves, and the word it gives. -/
def fetched (s : State) : Option (State × Option (BitVec 32)) :=
  match (s.tick.dropGiven 0).fetchNow 0 with | .ok s1 w => some (s1, w) | _ => none
/-- The state after the fetch (s itself where the fetch fails). -/
def post (s : State) : State := ((fetched s).map (·.1)).getD s
/-- The word the fetch gives. -/
def word (s : State) : Option (BitVec 32) := (fetched s).bind (·.2)
/-- Can thread 0 execute instruction i in s? -/
def runs (i : Instr) (s : State) : Bool :=
  s.canRun 0 && !((s.thr 0).haltReq && !(s.thr 0).midVec && bit (s.view 0 0x460) 2 && s.invasive 0) && (fetched s).isSome &&
  (word s == none || word s == encodeEltor i) && decide (∀ ends lv, ((post s).begun 0 ends (word s) lv).breakAt 0 ((post s).thr 0).pc = none) &&
  !((post s).thr 0).step && (match word s with | none => true | some e => (decodeEltor 0 e).isSome)
theorem executes_of_runs {i : Instr} {s : State} (h : runs i s = true) : Executes i 0 s (post s) (word s) := by
  simp only [runs, Bool.and_eq_true, Bool.not_eq_true', decide_eq_true_eq, Bool.or_eq_true, beq_iff_eq] at h
  obtain ⟨⟨⟨⟨⟨⟨h1, h2⟩, h3⟩, h4⟩, h5⟩, h6⟩, h7⟩ := h
  refine { run := h1, halt := by simpa using h2, fetch := ?_, word := h4, brk := h5, step := h6, allocated := ?_ }
  · revert h3; unfold post word fetched; split <;> simp_all
  · intro e he; rw [he] at h7; exact h7

/-- A thread is legal when its level, its world and what waits pass the check. -/
theorem legal_of {th : Thread} (h : ((th.pl = 2 → th.secure = false) ∧ (th.pl = 3 → th.secure = true)) ∧ smWf (fun _ => []) th.pend ∧ ∀ e ∈ th.pend, syncReq e.1 = true) : th.Legal :=
  ⟨h.1, h.2.1, h.2.2⟩
/-- An access that completes with bytes that pass p. -/
theorem acc_of {r : AccR} {p : List Byte → Bool} (h : (match r with | .ok _ bs => p bs | _ => false) = true) : ∃ s bs, r = .ok s bs ∧ p bs = true := by
  cases r <;> simp_all
/-- A check that passes with one piece that passes p. -/
def passes (p : State → Piece → Bool) : ChkR → Bool
  | .ok s [q] => p s q
  | _ => false
theorem chk_of {r : ChkR} {p : State → Piece → Bool} (h : passes p r = true) : ∃ s q, r = .ok s [q] ∧ p s q = true := by
  unfold passes at h; split at h <;> simp_all
/-- A drain that completes. -/
theorem drain_of {r : DrainR} (h : (match r with | .ok _ => true | _ => false) = true) : ∃ s, r = .ok s := by
  cases r <;> simp_all

/-! ### Witnesses: steps and instructions -/

theorem witness_StepRunsFront : ({ State.reset with pending := [.pulseEnd 0, .mtEpoch] } : State).pending = .pulseEnd 0 :: [.mtEpoch] := rfl
theorem witness_StepIdles : State.reset.pending = [] := rfl
theorem witness_QueueAndVariantKept : ∃ s', exec (.evqCons ⟨true, 0, 0, 0⟩ 0 0) State.reset = .next s' := by
  have h : isNext (exec (.evqCons ⟨true, 0, 0, 0⟩ 0 0) State.reset) = true := by decide +kernel
  revert h; cases exec (.evqCons ⟨true, 0, 0, 0⟩ 0 0) State.reset <;> simp [isNext]
theorem witness_FetchKeepsThreads : ∃ s1 w, State.reset.fetch 0 = .ok s1 w := by
  have h : (match State.reset.fetch 0 with | .ok _ _ => true | _ => false) = true := by decide +kernel
  revert h; split <;> simp_all
theorem witness_IntegerResults : ∃ f s1 w, intEffect (.addc 0 0 31 1) = some (0, true, f) ∧ Executes (.addc 0 0 31 1) 0 (at0 (·.wE 31 (-1))) s1 w :=
  ⟨_, _, _, rfl, executes_of_runs (by decide +kernel)⟩
theorem witness_IntegerResults_pair : ∃ f s1 w, intEffect (.mulwu 0 30 1 2) = some (0, true, f) ∧ Executes (.mulwu 0 30 1 2) 0 (at0 (·.wE 1 (-1))) s1 w :=
  ⟨_, _, _, rfl, executes_of_runs (by decide +kernel)⟩
theorem witness_MaskResults : ∃ f s1 w, maskEffect (.mset 0 7 1 3) = some (0, true, f) ∧ Executes (.mset 0 7 1 3) 0 State.reset s1 w :=
  ⟨_, _, _, rfl, executes_of_runs (by decide +kernel)⟩
/-- A thread whose divides trap. -/
def divTraps : State := at0 (fun th => { th with tstat := th.tstat ||| 2 })
theorem witness_DivideResults : ∃ tr f s1 w, divEffect (.div 0 1 2 3) = some (0, 1, tr, f) ∧ Executes (.div 0 1 2 3) 0 State.reset s1 w ∧
    (if (s1.thr 0).divtrap then tr (s1.thr 0) else none) = none :=
  ⟨_, _, _, _, rfl, executes_of_runs (by decide +kernel), by decide +kernel⟩
theorem witness_DivideResults_trap : ∃ tr f s1 w, divEffect (.div 0 1 2 3) = some (0, 1, tr, f) ∧ Executes (.div 0 1 2 3) 0 divTraps s1 w ∧
    (s1.thr 0).Legal ∧ (s1.thr 0).divtrap = true ∧ tr (s1.thr 0) = some 0x38 :=
  ⟨_, _, _, _, rfl, executes_of_runs (by decide +kernel), legal_of (by decide +kernel), by decide +kernel, by decide +kernel⟩
theorem witness_DivisionIdentity : ((-(2 ^ 63) : Int) = (0x8000000000000000#64).toInt ∧ (1 : Word) ≠ 0 ∧ ¬((0x8000000000000000#64).toInt = -(2 ^ 63) ∧ (1 : Word).toInt = -1)) ∧
    (0x80000001#64).setWidth 32 = (0xFFFFFFFF80000001#64).setWidth 32 ∧ (0xFFFFFFFF#32) ≠ 0 ∧ ¬((0x80000001#32).toInt = -(2 ^ 31) ∧ (0xFFFFFFFF#32).toInt = -1) := by decide
theorem witness_FpResults : ∃ f s1 w, fpEffect (.fadd 0 2 31 0 1) = some (0, true, f) ∧ Executes (.fadd 0 2 31 0 1) 0 State.reset s1 w :=
  ⟨_, _, _, rfl, executes_of_runs (by decide +kernel)⟩
/-- The long-vector unit of stop 0 is on. -/
def lvOn : State := State.reset.wf (a_PVC_DOM 224) f_PVC_DOM_STATE 2
theorem witness_VectorResults : (∃ f s1 w, vecEffect (.vredsum 0 false 31 0 7 6) = some (0, false, true, f) ∧ Executes (.vredsum 0 false 31 0 7 6) 0 State.reset s1 w) ∧
    ∃ f s1 w, vecEffect (.vadd 0 true 15 0 1 0 3) = some (0, true, true, f) ∧ Executes (.vadd 0 true 15 0 1 0 3) 0 lvOn s1 w ∧
      s1.lvAbsent (s1.stopOf 0) = false ∧ s1.lvReady (s1.stopOf 0) = true :=
  ⟨⟨_, _, _, rfl, executes_of_runs (by decide +kernel)⟩, _, _, _, rfl, executes_of_runs (by decide +kernel), by decide +kernel, by decide +kernel⟩
theorem witness_UnallocatedTraps : (unallocated (.loop 0 0 4) = some 0 ∧ ∃ s1 w, Meets (.loop 0 0 4) 0 State.reset s1 w ∧ (s1.thr 0).Legal) ∧
    unallocated (.memx 0 1 2 3 13 0 false) = some 0 ∧ ∃ s1 w, Meets (.memx 0 1 2 3 13 0 false) 0 State.reset s1 w ∧ (s1.thr 0).Legal :=
  ⟨⟨by decide, _, _, (executes_of_runs (by decide +kernel)).toMeets, legal_of (by decide +kernel)⟩, by decide, _, _, (executes_of_runs (by decide +kernel)).toMeets, legal_of (by decide +kernel)⟩
/-- A line number of memory, and a line that a core's L1D holds in M. -/
def heldLine : PLine := ⟨.m, 0x1122334455667788, false, true, some 1, none, some 2, false, none, false, 0, none, false⟩
/-- L1D of stop 0 holds line 256 in M. -/
def holds256 : State := { at0 (·.wE 1 0x4000) with coh := Coh.empty.setPl 0 256 (some heldLine) }
theorem witness_LoadResults : ∃ ea s1 w s3 bs, loadForm (.lq 0 30 1 0x30) = some (0, true, 16, .pair 30, ea) ∧ Executes (.lq 0 30 1 0x30) 0 holds256 s1 w ∧
    (s1.begun 0 false w).load ⟨0, ea (s1.thr 0), 16, .load, (LdDst.pair 30).num, false, decide (8 < 16)⟩ = .ok s3 bs ∧ bs.length = 16 := by
  obtain ⟨s3, bs, h, hl⟩ := acc_of (p := fun bs => decide (bs.length = 16)) (r := ((post holds256).begun 0 false (word holds256)).load ⟨0, ((post holds256).thr 0).rE 1 + (0x30#16).signExtend 64, 16, .load, 30, false, true⟩) (by decide +kernel)
  exact ⟨_, _, _, s3, bs, rfl, executes_of_runs (by decide +kernel), h, of_decide_eq_true hl⟩
theorem witness_LoadLength : ∃ s' bs, (⟨0, 0x403E, 4, .load, 1, false, false⟩ : Acc).n ≤ 64 ∧ holds256.load ⟨0, 0x403E, 4, .load, 1, false, false⟩ = .ok s' bs := by
  obtain ⟨s', bs, h, -⟩ := acc_of (p := fun _ => true) (r := holds256.load ⟨0, 0x403E, 4, .load, 1, false, false⟩) (by decide +kernel)
  exact ⟨s', bs, by decide, h⟩
theorem witness_StoreResults : ∃ ea s1 w s3 bs, storeForm (.sd 0 31 1 0x3C) = some (0, true, 8, .eU 31, false, ea) ∧ Executes (.sd 0 31 1 0x3C) 0 holds256 s1 w ∧
    (s1.begun 0 false w).store ⟨0, ea (s1.thr 0), 8, .store, (LdDst.eU 31).num, false, decide (8 < 8)⟩ (leBytes 8 ((s1.thr 0).give (.eU 31))) false = .ok s3 bs := by
  obtain ⟨s3, bs, h, -⟩ := acc_of (p := fun _ => true) (r := ((post holds256).begun 0 false (word holds256)).store ⟨0, ((post holds256).thr 0).rE 1 + (0x3C#16).signExtend 64, 8, .store, 31, false, false⟩
    (leBytes 8 (((post holds256).thr 0).give (.eU 31))) false) (by decide +kernel)
  exact ⟨_, _, _, s3, bs, rfl, executes_of_runs (by decide +kernel), h⟩
theorem witness_StoreBuffered : ∃ s1 p s2, holds256.check ⟨0, 0x4038, 8, .store, 1, false, false⟩ = .ok s1 [p] ∧ p.kind = .mem ∧ p.ty ≠ 2 ∧ s1.devOrder 0 (p.ty == 2) = .ok s2 ∧ (leBytes 8 5).length = p.n ∧ p.x.pa % 64 + p.n ≤ 64 := by
  obtain ⟨s1, p, h, hp⟩ := chk_of (p := fun s p => decide (p.kind = .mem ∧ p.ty ≠ 2 ∧ (leBytes 8 5).length = p.n ∧ p.x.pa % 64 + p.n ≤ 64) && (match s.devOrder 0 (p.ty == 2) with | .ok _ => true | _ => false))
    (r := holds256.check ⟨0, 0x4038, 8, .store, 1, false, false⟩) (by decide +kernel)
  rw [Bool.and_eq_true] at hp
  obtain ⟨s2, h2⟩ := drain_of hp.2
  have h3 := of_decide_eq_true hp.1
  exact ⟨s1, p, s2, h, h3.1, h3.2.1, h2, h3.2.2⟩
theorem witness_VectorOffsets : (State.reset.thr 0).Legal ∧ 0xC00 ∈ [0x400, 0x800, 0xC00] ∧ 831 < 832 := ⟨legal_of (by decide +kernel), by decide, by decide⟩
theorem witness_ReductionIdentity : 256 ≤ 256 ∧ EType.i8 ≠ EType.bf16 ∧ (∀ k, k < 256 → (0#256).getLsbD k = false) ∧ EType.i8.isInt = true := ⟨by decide, by decide, by simp, rfl⟩

/-! ### Witnesses: atomics, control transfer, system instructions -/

/-- An access that is performed. -/
def served : AccR → Bool
  | .ok _ _ => true
  | _ => false
theorem served_of {r : AccR} (h : served r = true) : ∃ s bs, r = .ok s bs := by cases r <;> simp_all [served]
/-- A drain that ends. -/
def drained : DrainR → Bool
  | .ok _ => true
  | _ => false
theorem drained_of {r : DrainR} (h : drained r = true) : ∃ s, r = .ok s := by cases r <;> simp_all [drained]
theorem some_of {α : Type} {o : Option α} (h : o.isSome = true) : ∃ x, o = some x := Option.isSome_iff_exists.mp h

theorem witness_AtomicResults : ∃ s1 w s3 p s4 bs, atomForm (.atomCas 0 2 1 3 0 1 1) = some (0, 2, 1, 3, 1, 1, 9, true) ∧ Executes (.atomCas 0 2 1 3 0 1 1) 0 holds256 s1 w ∧
    ((s1.thr 0).rE 1).toNat % atomWidth 1 = 0 ∧ (s1.begun 0 false w).check (atomAcc 0 2 ((s1.thr 0).rE 1) 1) = .ok s3 [p] ∧
    s3.atomRun (atomAcc 0 2 ((s1.thr 0).rE 1) 1) p 1 9 ((s1.thr 0).atomVal 3 1) ((s1.thr 0).atomVal 2 1) = .ok s4 bs := by
  obtain ⟨s3, p, h, hp⟩ := chk_of (p := fun s p => served (s.atomRun (atomAcc 0 2 (((post holds256).thr 0).rE 1) 1) p 1 9 (((post holds256).thr 0).atomVal 3 1) (((post holds256).thr 0).atomVal 2 1)))
    (r := ((post holds256).begun 0 false (word holds256)).check (atomAcc 0 2 (((post holds256).thr 0).rE 1) 1)) (by decide +kernel)
  obtain ⟨s4, bs, ha⟩ := served_of hp
  exact ⟨_, _, s3, p, s4, bs, rfl, executes_of_runs (by decide +kernel), by decide +kernel, h, ha⟩
theorem witness_AtomicAligned : ∃ s1 w, atomForm (.atomSwap 0 2 1 4 0 0 2) = some (0, 2, 1, 4, 0, 2, 8, true) ∧ Executes (.atomSwap 0 2 1 4 0 0 2) 0 (at0 (·.wE 1 8)) s1 w ∧
    (s1.thr 0).Legal ∧ ((s1.thr 0).rE 1).toNat % atomWidth 2 ≠ 0 :=
  ⟨_, _, rfl, executes_of_runs (by decide +kernel), legal_of (by decide +kernel), by decide +kernel⟩
/-- A piece of a plain access to bytes 56 to 63 of line 256. -/
def lastPiece : Piece := ⟨0x4038, 8, ⟨0x4038, 0, true, [], none, true, false⟩, 0, .mem, 256, false⟩
/-- The memory system after stop 0 has taken the line it holds. -/
def owned256 : Coh × OwnHow := ((holds256.coh.acquireOwn holds256.env 0 256 0).getD (Coh.empty, .other))
theorem witness_AtomicMemory : ∃ c how q, 8 ∈ [4, 8, 16] ∧ lastPiece.x.pa % 64 + 8 ≤ 64 ∧ lastPiece.x.sec = true ∧ (holds256.thr 0).stores = [] ∧ holds256.ownEntry (holds256.stopOf 0) lastPiece.line ∧
    holds256.coh.acquireOwn holds256.env (holds256.stopOf 0) lastPiece.line (holds256.clsOf 0) = some (c, how) ∧ holds256.canDo c ∧ holds256.quiet c ∧
    c.pl (holds256.stopOf 0) lastPiece.line = some q ∧ q.poison = false ∧ (q.hold = true ∨ q.fresh = none) ∧ 5 < 2 ^ (8 * 8) :=
  ⟨owned256.1, owned256.2, (owned256.1.pl 0 256).getD heldLine, by decide, by decide, rfl, by decide +kernel, .inl ⟨heldLine, by decide +kernel⟩, by decide +kernel, by unfold State.canDo; decide +kernel, .inl (by decide +kernel),
    by decide +kernel, by decide +kernel, by decide +kernel, by decide⟩
theorem witness_BranchResults : ∃ c s1 w, branchForm (.bgeu 0 1 2 0x8000) = some (0, 1, 2, 0x8000, c) ∧ Executes (.bgeu 0 1 2 0x8000) 0 State.reset s1 w :=
  ⟨_, _, _, rfl, executes_of_runs (by decide +kernel)⟩
theorem witness_JumpResults : ∃ f s1 w, jumpForm (.jalr 0 0 1 0xFFFF) = some (0, some 0, true, f) ∧ Executes (.jalr 0 0 1 0xFFFF) 0 State.reset s1 w :=
  ⟨_, _, _, rfl, executes_of_runs (by decide +kernel)⟩
theorem witness_LoopResults : (31 : Reg) ≠ 0 ∧ (0xFFFF : BitVec 16) ≠ 0 ∧ ∃ s1 w, Executes (.loop 0 31 0xFFFF) 0 (at0 (·.wE 31 1)) s1 w :=
  ⟨by decide, by decide, _, _, executes_of_runs (by decide +kernel)⟩

/-- Thread 0 at a level of the Normal world, its saved status and its entry registers as at reset. -/
def normalAt (pl : Nat) : State := at0 (fun th => { th with tstat := BitVec.ofNat 64 (16 * pl) })
/-- Stop 0 holds lines 256 and 257 in M, thread 0 has an older store of byte 0 of line 256, and the branch-target buffer names block 128. -/
def stored : State := { holds256 with
  coh := (holds256.coh.setPl 0 257 (some heldLine)), threads := smSet (fun _ => Thread.reset (vcfgReset State.reset.variant)) holds256.threads 0
    { holds256.thr 0 with stores := [⟨[⟨256, 0xAB, 1, true, false⟩], 0⟩] } }
theorem witness_FrontEnd_loop : State.reset.canRun 0 = true ∧ (31 : Reg) ≠ 0 ∧ (State.reset.thr 0).tripValid 31 = false := ⟨by decide +kernel, by decide, by decide +kernel⟩
/-- Thread 0 at level 1 of the Normal world, in memory, whose next block is held, has an ITLB entry and is named by its branch-target buffer. -/
def staging : State := { stored with
  threads := smSet (fun _ => Thread.reset (vcfgReset State.reset.variant)) [] 0 { (stored.thr 0).setCommitted 0x410 1 with tstat := 0x10, pc := 0x4000, btbKey := some 0 },
  cores := smSet (fun _ => CoreSt.reset) [] 0 { CoreSt.reset with btb := [⟨0, 0, 8, false, 0, 0, 0, 128, 0⟩], itlb := [⟨4, 12, false, 0, 0, 0, false, 0x4000, 0x4000, true, false, false, true, false, true, false, true, 0, false, false⟩] } }
theorem witness_FrontEnd_staging : staging.canRun 0 = true ∧ staging.btbLookup 0 (staging.thr 0).pc = some 128 ∧ staging.stageable 0 (128 * 128) = some (256, false) := by decide +kernel
/-- The memory system after stop 0 has taken line 256 for a store. -/
def ownedForStore : Coh × OwnHow := (stored.coh.acquireOwn stored.tick.env 0 256 0).getD (Coh.empty, .other)
theorem witness_FrontEnd_drain : ∃ p e c how q, (stored.thr 0).stores = e :: [] ∧ e.parts = p :: [] ∧ p.unc = false ∧ stored.isMem (64 * p.line) = true ∧ p.sec = true ∧ stored.ownEntry (stored.stopOf 0) p.line ∧
    stored.coh.acquireOwn stored.tick.env (stored.stopOf 0) p.line e.cls = some (c, how) ∧ stored.tick.canDo c ∧ stored.quiet c ∧ c.pl (stored.stopOf 0) p.line = some q ∧ (q.hold = true ∨ q.fresh = none) :=
  ⟨⟨256, 0xAB, 1, true, false⟩, _, ownedForStore.1, ownedForStore.2, (ownedForStore.1.pl 0 256).getD heldLine, rfl, rfl, rfl, by decide +kernel, rfl, .inl ⟨heldLine, by decide +kernel⟩, by decide +kernel, by unfold State.canDo; decide +kernel,
    .inl (by decide +kernel), by decide +kernel, by decide +kernel⟩
theorem witness_FrontEnd_held : stored.coh.evs = [] ∧ heldLine.l1d.isSome ∧ heldLine.victim = false ∧ heldLine.st = .m ∧ heldLine.fresh = none ∧
    (stored.coh.useWay 0 0 256 (heldLine.l1d.getD 0)).pl (stored.stopOf 0) 256 = some heldLine := by decide +kernel
theorem witness_SystemReads : ∃ s1 w, Executes (.mfs 0 31 0x040) 0 State.reset s1 w ∧ (s1.begun 0 false w).sysCheck 0 0x040 false = .ok :=
  ⟨_, _, executes_of_runs (by decide +kernel), by decide +kernel⟩
theorem witness_SystemReads_refused : (∃ s1 w, Executes (.mfs 0 31 0xFFF) 0 State.reset s1 w ∧ (s1.thr 0).Legal ∧ (s1.begun 0 false w).sysCheck 0 0xFFF false ≠ .ok) ∧
    ∃ s1 w, Executes (.mts 0 0x040 31) 0 State.reset s1 w ∧ (s1.thr 0).Legal ∧ (s1.begun 0 true w).sysCheck 0 0x040 true ≠ .ok :=
  ⟨⟨_, _, executes_of_runs (by decide +kernel), legal_of (by decide +kernel), by decide +kernel⟩, _, _, executes_of_runs (by decide +kernel), legal_of (by decide +kernel), by decide +kernel⟩
theorem witness_SystemWrites : ∃ s1 w, Executes (.mts 0 0x003 31) 0 (at0 (·.wE 31 0x20)) s1 w ∧ (s1.thr 0).Legal ∧ (s1.begun 0 true w).sysCheck 0 0x003 true = .ok :=
  ⟨_, _, executes_of_runs (by decide +kernel), legal_of (by decide +kernel), by decide +kernel⟩
theorem witness_SyncResults : ∃ s1 w, Executes (.syncs 0) 0 (at0 (fun th => { th with pend := [(0x420, [1])] })) s1 w ∧ (s1.thr 0).Legal ∧ coreSync 0x420 = false :=
  ⟨_, _, executes_of_runs (by decide +kernel), legal_of (by decide +kernel), by decide⟩
theorem witness_ReturnResults : ∃ s1 w, Executes (.xret 0) 0 State.reset s1 w ∧ (s1.thr 0).Legal ∧ 1 ≤ (s1.thr 0).pl ∧ (s1.thr 0).committed (excRegs (s1.thr 0).pl + 2) = 0 :=
  ⟨_, _, executes_of_runs (by decide +kernel), legal_of (by decide +kernel), by decide +kernel, by decide +kernel⟩
theorem witness_ReturnResults_illegal : ∃ s1 w, Executes (.xret 0) 0 (at0 (·.setCommitted 0xC02 0x60)) s1 w ∧ (s1.thr 0).Legal ∧ 1 ≤ (s1.thr 0).pl ∧
    (let x := (s1.thr 0).committed (excRegs (s1.thr 0).pl + 2); fld x 4 2 = 2 ∧ bit x 6 = true) :=
  ⟨_, _, executes_of_runs (by decide +kernel), legal_of (by decide +kernel), by decide +kernel, by decide +kernel⟩
theorem witness_FenceResults : (∃ s1 w, fenceOf (.fenceLs 0) = some (0, false) ∧ Executes (.fenceLs 0) 0 State.reset s1 w) ∧
    (∃ s1 s3 w, fenceOf (.fenceFull 0) = some (0, true) ∧ Executes (.fenceFull 0) 0 stored s1 w ∧ (s1.begun 0 false w).drainAll 0 = .ok s3) ∧
    ∃ s1 s3 w, Executes (.fenceFetch 0) 0 stored s1 w ∧ (s1.begun 0 true w).drainAll 0 = .ok s3 := by
  refine ⟨⟨_, _, rfl, executes_of_runs (by decide +kernel)⟩, ?_, ?_⟩
  · obtain ⟨s3, h⟩ := drained_of (r := ((post stored).begun 0 false (word stored)).drainAll 0) (by decide +kernel)
    exact ⟨_, s3, _, rfl, executes_of_runs (by decide +kernel), h⟩
  · obtain ⟨s3, h⟩ := drained_of (r := ((post stored).begun 0 true (word stored)).drainAll 0) (by decide +kernel)
    exact ⟨_, s3, _, executes_of_runs (by decide +kernel), h⟩
/-- Physical interrupt n is pending for thread 0. -/
def irqOn (n : Nat) (s : State) : State := { s with rtr := { s.rtr with phys := smSet (fun _ => 0) s.rtr.phys 0 (1#256 <<< n) } }
theorem witness_WaitResults : (∃ s1 w, Executes (.wait 0) 0 (irqOn 255 State.reset) s1 w ∧ 1 ≤ (s1.thr 0).pl ∧ (s1.begun 0 true w).irqPending 0 = true) ∧
    (∃ s1 w, Executes (.wait 0) 0 State.reset s1 w ∧ 1 ≤ (s1.thr 0).pl ∧ (s1.begun 0 true w).irqPending 0 = false) :=
  ⟨⟨_, _, executes_of_runs (by decide +kernel), by decide +kernel, by decide +kernel⟩, _, _, executes_of_runs (by decide +kernel), by decide +kernel, by decide +kernel⟩
/-- Thread 0 waits, with a step due, and interrupt 0 pending. -/
def waits : State := irqOn 0 (at0 (fun th => { th with waiting := true, waitStep := true }))
theorem witness_WaitResults_wake : (waits.thr 0).waiting = true ∧ waits.irqPending 0 = true ∧ waits.running = true ∧ 0 / 4 < waits.activeCores ∧ waits.clocked (waits.stopOf 0) = true ∧
    waits.rf (a_STP_RAS_STAT (waits.stopOf 0)) f_STP_RAS_STAT_FROZEN = 0 ∧ (waits.thr 0).waitStep = true ∧ (waits.thr 0).Legal :=
  ⟨by decide +kernel, by decide +kernel, by decide +kernel, by decide +kernel, by decide +kernel, by decide +kernel, by decide +kernel, legal_of (by decide +kernel)⟩
theorem witness_SendResults : (∃ s1 s3 w, Executes (.isend 0 1 2) 0 State.reset s1 w ∧ 1 ≤ (s1.thr 0).pl ∧ (s1.begun 0 false w).drainAll 0 = .ok s3) ∧
    (831 < State.reset.nThreads ∧ 255 < 256 ∧ (255 < 192 ∨ true = true)) ∧ (State.reset.nThreads ≤ 832 ∨ (192 ≤ 192 ∧ false = false)) := by
  obtain ⟨s3, h⟩ := drained_of (r := ((post State.reset).begun 0 false (word State.reset)).drainAll 0) (by decide +kernel)
  exact ⟨⟨_, s3, _, executes_of_runs (by decide +kernel), by decide +kernel, h⟩, by decide +kernel, by decide +kernel⟩
theorem witness_TrapResults : ∃ ok lvl s1 w, trapForm (.moncall 0 0xFFFF) = some (0, ok, 0x0A, 0xFFFF, true, lvl) ∧ Executes (.moncall 0 0xFFFF) 0 State.reset s1 w ∧ (s1.thr 0).Legal ∧ ok s1 = true :=
  ⟨_, _, _, _, rfl, executes_of_runs (by decide +kernel), legal_of (by decide +kernel), by decide +kernel⟩
theorem witness_PrivilegeTraps : ∃ ok s1 w, privForm (.hypcall 0 1) = some (0, ok) ∧ Executes (.hypcall 0 1) 0 State.reset s1 w ∧ (s1.thr 0).Legal ∧ ok s1 = false :=
  ⟨_, _, _, rfl, executes_of_runs (by decide +kernel), legal_of (by decide +kernel), by decide +kernel⟩
/-- The long-vector unit of stop 0 has failed. -/
def lvGone : State := State.reset.wf (a_PVC_DOM 224) f_PVC_DOM_STATE 4
theorem witness_PrivilegeTraps_lv : (∃ f s1 w, vecEffect (.vadd 0 true 15 0 1 0 3) = some (0, true, true, f) ∧ Executes (.vadd 0 true 15 0 1 0 3) 0 lvGone s1 w ∧ (s1.thr 0).Legal ∧ s1.lvAbsent (s1.stopOf 0) = true) ∧
    ∃ k v s1 w, vmemForm (.vlsLoad 0 true 15 1 0 0 3 none) = some (0, true, true, k, v) ∧ Executes (.vlsLoad 0 true 15 1 0 0 3 none) 0 lvGone s1 w ∧ (s1.thr 0).Legal ∧ s1.lvAbsent (s1.stopOf 0) = true :=
  ⟨⟨_, _, _, rfl, executes_of_runs (by decide +kernel), legal_of (by decide +kernel), by decide +kernel⟩, _, _, _, _, rfl, executes_of_runs (by decide +kernel), legal_of (by decide +kernel), by decide +kernel⟩

/-! ### Witnesses: maintenance, TLB invalidation, vector memory, interrupts -/

/-- Does maintenance of one address pass, drain and serve its line? -/
def cmoPasses (k : CmoKind) (s : State) (va : Word) : Bool :=
  match s.cmoXl 0 k 1 va with
  | .ok (s3, x) => match s3.drainAll 0 with | .ok s4 => (s4.cmoLine 0 k x.sec x.pa).isSome | .wait _ => false
  | .error _ => false
theorem cmo_of {k : CmoKind} {s : State} {va : Word} (h : cmoPasses k s va = true) :
    ∃ s3 x s4 s5, s.cmoXl 0 k 1 va = .ok (s3, x) ∧ s3.drainAll 0 = .ok s4 ∧ s4.cmoLine 0 k x.sec x.pa = some s5 := by
  unfold cmoPasses at h
  split at h
  · next s3 x h3 =>
    split at h
    · next s4 h4 => obtain ⟨s5, h5⟩ := some_of h; exact ⟨s3, x, s4, s5, h3, h4, h5⟩
    · cases h
  · cases h
theorem witness_MaintenanceResults : ∃ s1 w s3 x s4 s5, cmoOf (.cmoI 0 1) = some (0, 1, .i) ∧ Executes (.cmoI 0 1) 0 stored s1 w ∧ 1 ≤ (s1.thr 0).pl ∧
    (s1.begun 0 true w).cmoXl 0 .i 1 ((s1.thr 0).rE 1) = .ok (s3, x) ∧ s3.drainAll 0 = .ok s4 ∧ s4.cmoLine 0 .i x.sec x.pa = some s5 := by
  obtain ⟨s3, x, s4, s5, h⟩ := cmo_of (k := .i) (s := (post stored).begun 0 true (word stored)) (va := ((post stored).thr 0).rE 1) (by decide +kernel)
  exact ⟨_, _, s3, x, s4, s5, rfl, executes_of_runs (by decide +kernel), by decide +kernel, h⟩
theorem witness_MaintenanceResults_plain : ∃ s1 w, Executes (.cmoC 0 1) 0 holds256 s1 w ∧ (s1.thr 0).pl = 3 ∧ (s1.thr 0).secure = true ∧ (s1.thr 0).stores = [] ∧
    s1.isMem ((s1.thr 0).rE 1).toNat = true ∧ s1.coh.blocked (((s1.thr 0).rE 1).toNat / 64) = false ∧
    (s1.begun 0 true w).canDo ((s1.begun 0 true w).cmoCoh 0 .c (((s1.thr 0).rE 1).toNat / 64)) :=
  ⟨_, _, executes_of_runs (by decide +kernel), by decide +kernel, by decide +kernel, by decide +kernel, by decide +kernel, by decide +kernel, by unfold State.canDo; decide +kernel⟩
/-- Thread 0 names a range of `len` bytes from 0x4FC0. -/
def ranged (len : Word) : State := at0 (fun th => (th.wE 1 0x4FC0).wE 2 len)
theorem witness_MaintenanceResults_range : (∃ s1 w s3, cmoRangeOf (.cmoRangeC 0 1 2 none) = some (0, 1, 2, .c, none) ∧ Executes (.cmoRangeC 0 1 2 none) 0 (ranged 0) s1 w ∧
      (s1.begun 0 true w).drainAll 0 = .ok s3 ∧ (s1.thr 0).rE 2 = 0) ∧
    ∃ s1 w, Executes (.cmoRangeCi 0 1 2 none) 0 (ranged 64) s1 w ∧ (s1.thr 0).pl = 3 ∧ (s1.thr 0).secure = true ∧ (s1.thr 0).stores = [] ∧
      let a := ((s1.thr 0).rE 1).toNat; let n := ((s1.thr 0).rE 2).toNat
      0 < n ∧ a % 64 + n ≤ 64 ∧ s1.isMem a = true ∧ s1.coh.blocked (a / 64) = false ∧ (s1.begun 0 true w).canDo ((s1.begun 0 true w).cmoCoh 0 .ci (a / 64)) := by
  constructor
  · obtain ⟨s3, h⟩ := drained_of (r := ((post (ranged 0)).begun 0 true (word (ranged 0))).drainAll 0) (by decide +kernel)
    exact ⟨_, _, s3, rfl, executes_of_runs (by decide +kernel), h, by decide +kernel⟩
  · exact ⟨_, _, executes_of_runs (by decide +kernel), by decide +kernel, by decide +kernel, by decide +kernel, by decide +kernel, by decide +kernel, by decide +kernel, by decide +kernel, by unfold State.canDo; decide +kernel⟩
/-- Does the first step of a range pass and serve its lines? -/
def rangePasses (k : CmoKind) (s : State) (va : Word) (n : Nat) : Bool :=
  match s.drainAll 0 with
  | .ok s3 => match s3.cmoXl 0 k 1 va with | .ok (s4, x) => (cmoStep 0 k x.sec (linesIn x.pa n) s4).toBool | .error _ => false
  | .wait _ => false
theorem range_of {k : CmoKind} {s : State} {va : Word} {n : Nat} (h : rangePasses k s va n = true) :
    ∃ s3 s4 s5 x, s.drainAll 0 = .ok s3 ∧ s3.cmoXl 0 k 1 va = .ok (s4, x) ∧ cmoStep 0 k x.sec (linesIn x.pa n) s4 = .ok s5 := by
  unfold rangePasses at h
  split at h
  · next s3 h3 =>
    split at h
    · next s4 x h4 =>
      cases h5 : cmoStep 0 k x.sec (linesIn x.pa n) s4 with
      | ok s5 => exact ⟨s3, s4, s5, x, h3, h4, h5⟩
      | error e => rw [h5] at h; cases h
    · cases h
  · cases h
theorem witness_MaintenanceResults_steps : (∃ s1 w s3 s4 s5 x, Executes (.cmoRangeC 0 1 2 none) 0 (ranged 64) s1 w ∧ (s1.begun 0 true w).drainAll 0 = .ok s3 ∧
      s3.cmoXl 0 .c 1 ((s1.thr 0).rE 1) = .ok (s4, x) ∧ cmoStep 0 .c x.sec (linesIn x.pa ((s1.thr 0).rE 2).toNat) s4 = .ok s5 ∧
      0 < ((s1.thr 0).rE 2).toNat ∧ ((s1.thr 0).rE 2).toNat ≤ 4096 - ((s1.thr 0).rE 1).toNat % 4096) ∧
    ∃ s1 w s3 s4 s5 x, Executes (.cmoRangeC 0 1 2 (some 1)) 0 (ranged 65) s1 w ∧ (s1.begun 0 true w).drainAll 0 = .ok s3 ∧
      s3.cmoXl 0 .c 1 ((s1.thr 0).rE 1) = .ok (s4, x) ∧ cmoStep 0 .c x.sec (linesIn x.pa (4096 - ((s1.thr 0).rE 1).toNat % 4096)) s4 = .ok s5 ∧
      4096 - ((s1.thr 0).rE 1).toNat % 4096 < ((s1.thr 0).rE 2).toNat := by
  constructor
  · obtain ⟨s3, s4, s5, x, h3, h4, h5⟩ := range_of (k := .c) (s := (post (ranged 64)).begun 0 true (word (ranged 64))) (va := ((post (ranged 64)).thr 0).rE 1) (n := (((post (ranged 64)).thr 0).rE 2).toNat) (by decide +kernel)
    exact ⟨_, _, s3, s4, s5, x, executes_of_runs (by decide +kernel), h3, h4, h5, by decide +kernel, by decide +kernel⟩
  · obtain ⟨s3, s4, s5, x, h3, h4, h5⟩ := range_of (k := .c) (s := (post (ranged 65)).begun 0 true (word (ranged 65))) (va := ((post (ranged 65)).thr 0).rE 1) (n := 4096 - (((post (ranged 65)).thr 0).rE 1).toNat % 4096) (by decide +kernel)
    exact ⟨_, _, s3, s4, s5, x, executes_of_runs (by decide +kernel), h3, h4, h5, by decide +kernel⟩
/-- Thread 0 names way 1 of set 0 of L1D (a slot in use) or, with `level`, of another array. -/
def slotted (level : Word) : State := { holds256 with threads := smSet (fun _ => Thread.reset (vcfgReset State.reset.variant)) [] 0 ((holds256.thr 0).wE 1 (0x10 + level)) }
theorem witness_MaintenanceResults_slot : (∃ s1 w, cmoSwOf (.cmoSwCi 0 1) = some (0, 1, .ci) ∧ Executes (.cmoSwCi 0 1) 0 (slotted 3) s1 w ∧ s1.swOk 0 = true ∧ (s1.thr 0).stores = [] ∧ fld ((s1.thr 0).rE 1) 0 2 = 3) ∧
    (∃ s1 w, Executes (.cmoSwCi 0 1) 0 (slotted 1) s1 w ∧ s1.swOk 0 = true ∧ (s1.thr 0).stores = [] ∧ fld ((s1.thr 0).rE 1) 0 2 = 1 ∧ s1.coh.slotLine (s1.stopOf 0) 1 0 1 = none) ∧
    ∃ s1 w s3 s4, Executes (.cmoSwCi 0 1) 0 (slotted 0) s1 w ∧ (s1.begun 0 true w).drainAll 0 = .ok s3 ∧ fld ((s1.thr 0).rE 1) 0 2 = 0 ∧
      s3.swPrivate 0 (fld ((s1.thr 0).rE 1) 0 2) (fld ((s1.thr 0).rE 1) 8 11) (fld ((s1.thr 0).rE 1) 4 4) .ci = some s4 := by
  refine ⟨⟨_, _, rfl, executes_of_runs (by decide +kernel), by decide +kernel, by decide +kernel, by decide +kernel⟩,
    ⟨_, _, executes_of_runs (by decide +kernel), by decide +kernel, by decide +kernel, by decide +kernel, by decide +kernel⟩, ?_⟩
  have h : ((post (slotted 0)).begun 0 true (word (slotted 0))).drainAll 0 = .ok ((post (slotted 0)).begun 0 true (word (slotted 0))) := by
    unfold State.drainAll Thread.storeFuel; rfl
  obtain ⟨s4, h4⟩ := some_of (o := ((post (slotted 0)).begun 0 true (word (slotted 0))).swPrivate 0 (fld (((post (slotted 0)).thr 0).rE 1) 0 2) (fld (((post (slotted 0)).thr 0).rE 1) 8 11)
    (fld (((post (slotted 0)).thr 0).rE 1) 4 4) .ci) (by decide +kernel)
  exact ⟨_, _, _, s4, executes_of_runs (by decide +kernel), h, by decide +kernel, h4⟩
/-- An LLC block that holds line 256 dirty in its sector 0. -/
def dirtyBlk : LlcBlk := ⟨26, 0, 3, 1, 0, 2, 1, 1, 0, 0xCAFE⟩
/-- The LLC holds line 256 dirty. -/
def dirty256 : Coh := Coh.empty.setBlk 64 (some dirtyBlk)
theorem witness_MaintenanceResults_home : dirty256.de 256 = none ∧ dirty256.sectorOf 256 = some (0xCAFE, true, false) ∧ State.reset.env.badMem 256 = false ∧ State.reset.env.lostMem 256 = false ∧
    State.reset.env.inj 256 = false := by decide +kernel
theorem witness_TlbiResults : ∃ f s1 w, tlbiOf (.tlbiAll 0) = some (0, 2, f) ∧ Executes (.tlbiAll 0) 0 State.reset s1 w ∧ 2 ≤ (s1.thr 0).pl ∧ s1.iot.tlbis.find? (fun x => x.thread == 0) = none ∧
    (∀ u, (s1.thr u).stores = []) ∧ s1.iot.given = [] ∧ s1.iot.inv = [] ∧ (s1.begun 0 true w).readsOut = [] := by
  refine ⟨_, _, _, rfl, executes_of_runs (by decide +kernel), by decide +kernel, by decide +kernel, ?_, by decide +kernel, by decide +kernel, by decide +kernel⟩
  have h : (post State.reset).threads = [] := by decide +kernel
  intro u; simp only [State.thr, h]; rfl
/-- A port read of thread 0's TLBI that has ended is all that it waited for. -/
def tlbiEnds : State := { State.reset with iot := { State.reset.iot with tlbis := [⟨0, [⟨0, 0, 767, 5⟩]⟩] } }
theorem witness_TlbiResults_waited : ∃ s1 w, Executes (.tlbiVa 0 1 2) 0 tlbiEnds s1 w ∧ 1 ≤ (s1.thr 0).pl ∧ s1.iot.tlbis.find? (fun x => x.thread == 0) = some ⟨0, [⟨0, 0, 767, 5⟩]⟩ ∧
    (s1.begun 0 true w).tlbiWaits ⟨0, [⟨0, 0, 767, 5⟩]⟩ = false :=
  ⟨_, _, executes_of_runs (by decide +kernel), by decide +kernel, by decide +kernel, by decide +kernel⟩
/-- Does a run over elements end complete, at a boundary, with an exception of a code above 5, or waiting? -/
def ended : VRun → Nat
  | .done _ => 0
  | .stop _ _ => 1
  | .exc _ _ e => if 5 < e.code then 2 else 4
  | .wait _ => 3
theorem done_of {r : VRun} (h : ended r = 0) : ∃ s, r = .done s := by
  cases r with | done s => exact ⟨s, rfl⟩ | stop => simp [ended] at h | wait => simp [ended] at h | exc s k e => simp only [ended] at h; split at h <;> simp at h
theorem stop_of {r : VRun} (h : ended r = 1) : ∃ s k, r = .stop s k := by
  cases r with | stop s k => exact ⟨s, k, rfl⟩ | done => simp [ended] at h | wait => simp [ended] at h | exc s k e => simp only [ended] at h; split at h <;> simp at h
theorem exc_of {r : VRun} (h : ended r = 2) : ∃ s k e, r = .exc s k e ∧ 5 < e.code := by
  cases r with | exc s k e => (refine ⟨s, k, e, rfl, ?_⟩; by_contra h'; simp [ended, h'] at h) | done => simp [ended] at h | wait => simp [ended] at h | stop => simp [ended] at h
/-- A VLS load of thread 0 from Ea = E1, all elements active, unit stride. -/
def vls (upto : Option Nat) : Instr := .vlsLoad 0 false 31 1 0 0 3 upto
/-- Its elements in the state its effect starts in. -/
def vlsRun (s : State) (upto : Option Nat) : VRun :=
  let s2 := (post s).begun 0 false (word s) false
  (VmKind.vls false).run (vlsMem 0 false 31 1 0 0 3 upto s2) s2
theorem witness_VectorMemoryResults : ∃ f s1 w s3, vmemForm (vls none) = some (0, false, true, .vls false, f) ∧ Executes (vls none) 0 holds256 s1 w ∧
    (VmKind.vls false).run (f (s1.begun 0 false w false)) (s1.begun 0 false w false) = .done s3 := by
  obtain ⟨s3, h⟩ := done_of (r := vlsRun holds256 none) (by decide +kernel)
  exact ⟨_, _, _, s3, rfl, executes_of_runs (by decide +kernel), h⟩
theorem witness_VectorMemoryResults_stop : ∃ f s1 w s3 n, vmemForm (.vscatter 0 false 30 1 29 0 3 0 3 true (some 1)) = some (0, false, true, .scatter, f) ∧
    Executes (.vscatter 0 false 30 1 29 0 3 0 3 true (some 1)) 0 holds256 s1 w ∧ VmKind.scatter.run (f (s1.begun 0 false w false)) (s1.begun 0 false w false) = .stop s3 n := by
  obtain ⟨s3, n, h⟩ := stop_of (r := VmKind.scatter.run (vgMem 0 false 30 1 29 0 3 3 true (some 1) ((post holds256).begun 0 false (word holds256) false)) ((post holds256).begun 0 false (word holds256) false)) (by decide +kernel)
  exact ⟨_, _, _, s3, n, rfl, executes_of_runs (by decide +kernel), h⟩
/-- Thread 0 addresses memory that does not exist. -/
def unmapped : State := at0 (·.wE 1 0x000A000000000000)
theorem witness_VectorMemoryResults_exc : ∃ f s1 w s3 n e, vmemForm (vls none) = some (0, false, true, .vls false, f) ∧ Executes (vls none) 0 unmapped s1 w ∧
    (VmKind.vls false).run (f (s1.begun 0 false w false)) (s1.begun 0 false w false) = .exc s3 n e ∧ 5 < e.code := by
  obtain ⟨s3, n, e, h, hc⟩ := exc_of (r := vlsRun unmapped none) (by decide +kernel)
  exact ⟨_, _, _, s3, n, e, rfl, executes_of_runs (by decide +kernel), h, hc⟩
theorem witness_InterruptEntry : let s := irqOn 192 (at0 (fun th => { th with tstat := 0x74 }));
    s.canRun 0 = true ∧ s.midInstr 0 = false ∧ (s.thr 0).Legal ∧ (s.physOf 0).toNat / 2 ^ 192 ≠ 0 ∧ (s.thr 0).ie = true :=
  ⟨by decide +kernel, by decide +kernel, legal_of (by decide +kernel), by decide +kernel, by decide +kernel⟩
theorem witness_InterruptEntry_normal : (let s := irqOn 191 (normalAt 0);
      s.canRun 0 = true ∧ s.midInstr 0 = false ∧ (s.thr 0).Legal ∧ (s.physOf 0).toNat / 2 ^ 192 = 0 ∧ (s.physOf 0).toNat ≠ 0 ∧ (s.thr 0).secure = false ∧ (s.thr 0).pl < (if s.tick.vmen 0 then 2 else 1)) ∧
    (let s := irqOn 0 (normalAt 1);
      s.canRun 0 = true ∧ (s.thr 0).Legal ∧ (s.physOf 0).toNat / 2 ^ 192 = 0 ∧ (s.physOf 0).toNat ≠ 0 ∧ (s.thr 0).secure = false ∧ ¬((s.thr 0).pl < 1) ∧ ¬((s.thr 0).pl = 1 ∧ (s.thr 0).ie = true) ∧ s.tick.vmen 0 = false) :=
  ⟨⟨by decide +kernel, by decide +kernel, legal_of (by decide +kernel), by decide +kernel, by decide +kernel, by decide +kernel, by decide +kernel⟩,
    by decide +kernel, legal_of (by decide +kernel), by decide +kernel, by decide +kernel, by decide +kernel, by decide +kernel, by decide +kernel, by decide +kernel⟩
/-- Thread 0 runs a guest of VMID 7 at level 1 with IE, its record is loaded, and TAKE has returned vINTID 1023. -/
def virtual : State :=
  let s := at0 (fun th => ({ th with tstat := 0x14, vint := some 1023 } : Thread).setCommitted 0x810 0x70001)
  { s with rtr := { s.rtr with recs := [(0, some ⟨0x80, 7, 0, 0, 0⟩)], takes := [(0, some ⟨0x80, 7, some 1023⟩)] } }
theorem witness_InterruptEntry_virtual : virtual.canRun 0 = true ∧ virtual.midInstr 0 = false ∧ (virtual.thr 0).Legal ∧ (virtual.thr 0).vint = some 1023 ∧ virtual.takeOf 0 = some ⟨0x80, 7, some 1023⟩ ∧
    1023 < 2 ^ 32 ∧ virtual.loadedOn 0 = some ⟨0x80, 7, 0, 0, 0⟩ ∧ (virtual.thr 0).secure = false ∧ virtual.tick.vmen 0 = true ∧ virtual.tick.vmid 0 = 7 ∧ (virtual.thr 0).pl = 1 ∧ (virtual.thr 0).ie = true :=
  ⟨by decide +kernel, by decide +kernel, legal_of (by decide +kernel), by decide +kernel, by decide +kernel, by decide, by decide +kernel, by decide +kernel, by decide +kernel, by decide +kernel, by decide +kernel, by decide +kernel⟩

/-! ### Witnesses: the homes and their messages -/

/-- The home of line 256 at reset. -/
def home256 : HomeLoc := (State.reset.env.home 256).getD ⟨0, 0, 0⟩
/-- A directory entry of line 256. -/
def entry (st : DirState) (owner : Option Nat) (sharers : List Nat) : DirEntry := ⟨home256.slice, home256.dirSet, 11, true, st, false, owner, sharers, 0, false, 0⟩
/-- Nothing cached; sharers 0 and 5; owner 0 with sharer 5. -/
def shared256 : Coh := Coh.empty.setDe 256 (some (entry .s none [0, 5]))
def owned0 : Coh := holds256.coh.setDe 256 (some (entry .o (some 0) [5]))
/-- A request of stop 1, thread 4, for line 256. -/
def from1 (k : ReqKind) : HomeReq := mkReq k 1 256 true 0 4
theorem witness_HomeSupplies : owned0.de 256 = some (entry .o (some 0) [5]) ∧ (entry .o (some 0) [5]).owner = some 0 ∧ 0 ≠ (from1 .rdOwn).req ∧ (from1 .rdOwn).kind ∈ [.rdShared, .rdCode, .rdOwn, .upgrade, .rdCur] ∧
    owned0.pl 0 256 = some heldLine := by decide +kernel
theorem witness_HomeSupplies_data : State.reset.env.home (from1 .rdCode).line = some home256 ∧ shared256.de 256 = some (entry .s none [0, 5]) ∧ (entry .s none [0, 5]).owner = none ∧
    (from1 .rdCode).kind ∈ [.rdShared, .rdCode, .rdOwn, .rdCur] := by decide +kernel
theorem witness_HomeServes : State.reset.env.home 256 = some home256 ∧ dirty256.de 256 = none ∧ (dirty256.setDe 256 none).dirFree State.reset.env home256 = some 0 ∧
    (from1 .rdOwn).kind ∈ [.rdShared, .rdCode, .rdOwn, .upgrade] ∧ shared256.de 256 = some (entry .s none [0, 5]) ∧ owned0.de 256 = some (entry .o (some 0) [5]) ∧ (0 : Nat) ≠ (from1 .upgrade).req ∧
    (from1 .wrLine).kind = .wrLine ∧ dirty256.sectorOf 256 ≠ none ∧ Coh.empty.sectorOf 256 = none ∧ State.reset.env.lostMem 256 = false ∧ State.reset.env.badMem 256 = false ∧ State.reset.env.inj 256 = false := by decide +kernel
/-- The memory system after thread 0 has asked for line 256. -/
def asked (s : State) (k : ReqKind) (pf : Bool) : Coh :=
  ((s.coh.setMiss (s.stopOf 0) 256 (some ⟨k, s.clsOf 0, false, none, false, false, 0, (s.thr 0).pc, [], pf⟩)).hop (s.stopOf 0) (s.homeOf 256) 1).homeArrive s.tick.env
    { mkReq k (s.stopOf 0) 256 true (s.clsOf 0) 0 with pc := (s.thr 0).pc }
theorem witness_CohRequests : State.reset.coreUp (0 / 4) = true ∧ State.reset.isMem (64 * 256) = true ∧ State.reset.coh.miss (State.reset.stopOf 0) 256 = none ∧
    State.reset.reqFits (State.reset.stopOf 0) 256 .rdOwn = true ∧ State.reset.missRoom (State.reset.stopOf 0) .rdOwn false = true ∧ State.reset.canDo (asked State.reset .rdOwn false) :=
  ⟨by decide +kernel, by decide +kernel, by decide +kernel, by decide +kernel, by decide +kernel, by unfold State.canDo; decide +kernel⟩
/-- Stop 0 holds line 256 in O. -/
def sharedO : State := { State.reset with coh := Coh.empty.setPl 0 256 (some { heldLine with st := .o }) }
theorem witness_CohRequests_upgrade : sharedO.coreUp 0 = true ∧ sharedO.isMem (64 * 256) = true ∧ sharedO.coh.miss 0 256 = none ∧ sharedO.reqFits 0 256 .upgrade = true ∧ sharedO.missRoom 0 .upgrade false = true ∧
    sharedO.canDo (asked sharedO .upgrade false) :=
  ⟨by decide +kernel, by decide +kernel, by decide +kernel, by decide +kernel, by decide +kernel, by unfold State.canDo; decide +kernel⟩
theorem witness_CohRequests_agent : 224 ≤ 255 ∧ 255 < 256 ∧ State.reset.isMem (64 * 256) = true ∧
    State.reset.canDo ((State.reset.coh.hop 255 (State.reset.homeOf 256) 2).homeArrive State.reset.tick.env
      { mkReq .wrLine 255 256 true (63 % 64) 0 with data := 0, mask := BitVec.allOnes 64, poison := true }) :=
  ⟨by decide, by decide, by decide +kernel, by unfold State.canDo; decide +kernel⟩
theorem witness_CohRequests_far : State.reset.canRun 0 = true ∧ (State.reset.thr 0).stores = [] ∧ 10 ≤ 10 ∧ 2 ≤ 2 ∧ (0x4030#64).toNat % 64 % atomBytes 2 = 0 ∧
    State.reset.canDo ((State.reset.coh.hop 0 (State.reset.homeOf 256) 1).homeArrive State.reset.tick.env { mkReq .atomFar 0 256 true (State.reset.clsOf 0) 0 with
      atom := ⟨10, 2, (0x4030#64).toNat % 64, 0, 0⟩, elems := [31, 1, (0x4030#64).toNat] }) :=
  ⟨by decide +kernel, by decide +kernel, by decide, by decide, by decide, by unfold State.canDo; decide +kernel⟩
/-- Line 256 waits in the victim buffer of stop 0, its owner in the directory. -/
def evicting : State := { State.reset with coh := (Coh.empty.setPl 0 256 (some { heldLine with victim := true })).setDe 256 (some (entry .ex (some 0) [])) }
theorem witness_CohRequests_evict : evicting.quietEvict .wbReq 0 256 = true ∧ evicting.coh.pl 0 256 = some { heldLine with victim := true } ∧
    (Moes.m).dirty = decide (ReqKind.wbReq = .wbReq) ∧ evicting.canDo ((evicting.coh.hop 0 (evicting.homeOf 256) 1).homeArrive evicting.tick.env (mkReq .wbReq 0 256 true 0 0)) :=
  ⟨by decide +kernel, by decide +kernel, by decide, by unfold State.canDo; decide +kernel⟩
/-- A snoop took line 256 from the victim buffer of stop 0. -/
def taken : State := { State.reset with coh := { Coh.empty with gone := [privKey 0 256] } }
theorem witness_CohRequests_taken : taken.quietEvict .wbReq 0 256 = true ∧ taken.coh.pl 0 256 = none ∧ privKey 0 256 ∈ taken.coh.gone ∧
    taken.canDo ((taken.coh.hop 0 (taken.homeOf 256) 1).homeArrive taken.tick.env (mkReq .wbReq 0 256 (taken.tick.env.secLine 256) noClass 0)) :=
  ⟨by decide +kernel, by decide +kernel, by decide +kernel, by unfold State.canDo; decide +kernel⟩
theorem witness_CohRequests_cmo : 2 ≤ 2 ∧ State.reset.coreUp 0 = true ∧ State.reset.tick.cmoKind 0 .ci = .ci ∧
    State.reset.canDo ((State.reset.coh.hop 0 (State.reset.homeOf 256) 1).homeArrive State.reset.tick.env (mkReq .cmoCI 0 256 true (State.reset.clsOf 0) 0)) :=
  ⟨by decide, by decide +kernel, by decide +kernel, by unfold State.canDo; decide +kernel⟩
/-- The LLC holds line 256 dirty. -/
def inLlc : State := { State.reset with coh := dirty256 }
theorem witness_CohRequests_gather : inLlc.canRun 0 = true ∧ 8 ∈ [1, 2, 4, 8] ∧ 0x4038 % 64 + 8 ≤ 64 ∧ inLlc.isMem 0x4038 = true ∧
    inLlc.canDo ((inLlc.coh.hop 0 (inLlc.homeOf (0x4038 / 64)) 1).gatherGo inLlc.tick.env ⟨0, 0, inLlc.homeOf (0x4038 / 64), 0x4038 / 64, 31 + 0 * 64 + 128 * 8, 8, inLlc.clsOf 0, [⟨3, 0x4038, BitVec.ofNat 64 0x4038⟩], [], []⟩) ∧
    inLlc.coh.evs = [] ∧ inLlc.coh.queued (0x4038 / 64) = false ∧ inLlc.coh.sectorOf (0x4038 / 64) ≠ none :=
  ⟨by decide +kernel, by decide, by decide, by decide +kernel, by unfold State.canDo; decide +kernel, by decide +kernel, by decide +kernel, by decide +kernel⟩
/-- Message m is in flight beside memory system c. -/
def sent (c : Coh) (m : Msg) : State := { State.reset with coh := { c with msgs := [m] } }
/-- A snoop of line 256 from its home to stop 0 for stop 1. -/
def snoop (k : MsgKind) : Msg := mkMsg k home256.slice 0 256 1
/-- Can message m be found and delivered to stop (or, when it goes to the home, from it)? -/
def deliverable (s : State) (k : MsgKind) (home : Bool) (stop : Nat) (m : Msg) : Bool :=
  s.findMsg k home stop 256 == some m && (if home then s.routeUp stop m.dst else s.routeUp m.src stop) && decide (∀ e ∈ s.newEvs (s.coh.deliver s.tick.env m), s.evUp e = true) && s.coh.evs == []
theorem deliver_of {s : State} {k : MsgKind} {stop : Nat} {m : Msg} (h : deliverable s k false stop m = true) :
    s.findMsg k false stop 256 = some m ∧ s.routeUp m.src stop = true ∧ s.canDo (s.coh.deliver s.tick.env m) ∧ s.coh.evs = [] := by
  simp only [deliverable, Bool.and_eq_true, beq_iff_eq, decide_eq_true_eq, Bool.false_eq_true, if_false] at h
  exact ⟨h.1.1.1, h.1.1.2, h.1.2, h.2⟩
theorem deliver_home_of {s : State} {k : MsgKind} {stop : Nat} {m : Msg} (h : deliverable s k true stop m = true) :
    s.findMsg k true stop 256 = some m ∧ s.routeUp stop m.dst = true ∧ s.canDo (s.coh.deliver s.tick.env m) ∧ s.coh.evs = [] := by
  simp only [deliverable, Bool.and_eq_true, beq_iff_eq, decide_eq_true_eq, if_true] at h
  exact ⟨h.1.1.1, h.1.1.2, h.1.2, h.2⟩
theorem witness_SnoopAnswers : (let s := sent owned0 (snoop .snpOwn); s.findMsg .snpOwn false 0 256 = some (snoop .snpOwn) ∧ s.routeUp (snoop .snpOwn).src 0 = true ∧ s.canDo (s.coh.deliver s.tick.env (snoop .snpOwn)) ∧ s.coh.evs = []) ∧
    (sent owned0 (snoop .snpOwn)).coh.pl 0 256 = some heldLine ∧ heldLine.victim = false ∧ heldLine.keeps = false :=
  ⟨deliver_of (by decide +kernel), by decide +kernel, by decide, by decide⟩
theorem witness_SnoopAnswers_none : (let s := sent Coh.empty (snoop .snpRecall); s.findMsg .snpRecall false 0 256 = some (snoop .snpRecall) ∧ s.routeUp (snoop .snpRecall).src 0 = true ∧
    s.canDo (s.coh.deliver s.tick.env (snoop .snpRecall)) ∧ s.coh.evs = []) ∧ (sent Coh.empty (snoop .snpRecall)).coh.pl 0 256 = none :=
  ⟨deliver_of (by decide +kernel), by decide +kernel⟩
/-- Stop 0 holds line 256 within its hold window. -/
def window256 : Coh := Coh.empty.setPl 0 256 (some { heldLine with hold := true })
theorem witness_SnoopAnswers_parked : (let s := sent window256 (snoop .snpInv); s.findMsg .snpInv false 0 256 = some (snoop .snpInv) ∧ s.routeUp (snoop .snpInv).src 0 = true ∧
    s.canDo (s.coh.deliver s.tick.env (snoop .snpInv)) ∧ s.coh.evs = []) ∧ (sent window256 (snoop .snpInv)).coh.pl 0 256 = some { heldLine with hold := true } ∧ ({ heldLine with hold := true } : PLine).keeps = true :=
  ⟨deliver_of (by decide +kernel), by decide +kernel, by decide⟩
theorem witness_SnoopAnswers_window : let s : State := { State.reset with coh := { window256 with parked := [snoop .snpInv] } };
    s.coh.pl 0 256 = some { heldLine with hold := true } ∧ ({ heldLine with hold := true } : PLine).fresh = none ∧
    s.canDo (((s.coh.parked.filter (fun m => m.dst == 0 && m.line == 256)).foldl Coh.answer
      { s.coh with priv := (s.coh.setPl 0 256 (some { heldLine with hold := false, fresh := none })).priv, parked := s.coh.parked.filter (fun m => !(m.dst == 0 && m.line == 256)) }).pump s.tick.env) :=
  ⟨by decide +kernel, by decide, by unfold State.canDo; decide +kernel⟩
/-- Thread 0's RdOwn of line 256 is outstanding. -/
def missing : Coh := Coh.empty.setMiss 0 256 (some ⟨.rdOwn, 0, false, none, false, false, 0, 0x1000, [], false⟩)
/-- Data of the home for stop 0. -/
def dataMsg (acks : Bool) : Msg := { mkMsg .data home256.slice 0 256 0 with grant := some .e, acks := acks, data := 0xBEEF, sec := true }
theorem witness_CohDeliveries : (∀ a, let s := sent missing (dataMsg a); (s.findMsg .data false 0 256 = some (dataMsg a) ∧ s.routeUp (dataMsg a).src 0 = true ∧ s.canDo (s.coh.deliver s.tick.env (dataMsg a)) ∧ s.coh.evs = []) ∧
    s.coh.miss 0 256 = some ⟨.rdOwn, 0, false, none, false, false, 0, 0x1000, [], false⟩) := by
  intro a; cases a <;> exact ⟨deliver_of (by decide +kernel), by decide +kernel⟩
theorem witness_CohDeliveries_cmp : let m := { mkMsg .cmp home256.slice 0 256 0 with grant := some .m, acks := true };
    let x : Miss := ⟨.rdOwn, 0, false, some { heldLine with st := .e, l1d := none, l2 := none }, true, false, 0, 0x1000, [], false⟩;
    let s := sent (Coh.empty.setMiss 0 256 (some x)) m;
    (s.findMsg .cmp false 0 256 = some m ∧ s.routeUp m.src 0 = true ∧ s.canDo (s.coh.deliver s.tick.env m) ∧ s.coh.evs = []) ∧ s.coh.miss 0 256 = some x :=
  ⟨deliver_of (by decide +kernel), by decide +kernel⟩
/-- A home's transaction of stop 1's request for line 256. -/
def opened (k : ReqKind) (resp : List Nat) (ack : Bool) (data : Option Nat) (cmp : Option (Moes × Bool)) : Txn := { mkTxn (from1 k) resp ack with waitData := data, cmp := cmp }
/-- Message m is in flight to the home of line 256 with transaction t open and the owner's entry. -/
def closing (t : Txn) (m : Msg) : State := sent (((Coh.empty.setDe 256 (some (entry .ex (some 0) []))).setTxn 256 (some t)).setBlk 64 (some dirtyBlk)) m
/-- A response of stop p to the home. -/
def toHome (k : MsgKind) (p : Nat) : Msg := { mkMsg k p home256.slice 256 1 with grant := some .o, dirty := true, data := 7 }
theorem witness_CohDeliveries_resp : (let t := opened .rdOwn [0, 5] true none (some (.m, true)); let s := closing t (toHome .snpResp 0);
      (s.findMsg .snpResp true 0 256 = some (toHome .snpResp 0) ∧ s.routeUp 0 (toHome .snpResp 0).dst = true ∧ s.canDo (s.coh.deliver s.tick.env (toHome .snpResp 0)) ∧ s.coh.evs = []) ∧
      s.homeLoc 256 = some home256 ∧ s.coh.txn 256 = some t ∧ 0 ∈ t.waitResp) ∧
    (let t := opened .rdShared [0] true none none; let s := closing t (toHome .snpResp 0);
      (s.findMsg .snpResp true 0 256 = some (toHome .snpResp 0) ∧ s.routeUp 0 (toHome .snpResp 0).dst = true ∧ s.canDo (s.coh.deliver s.tick.env (toHome .snpResp 0)) ∧ s.coh.evs = []) ∧
      s.coh.txn 256 = some t ∧ s.coh.de 256 = some (entry .ex (some 0) [])) :=
  ⟨⟨deliver_home_of (by decide +kernel), by decide +kernel, by decide +kernel, by decide⟩, deliver_home_of (by decide +kernel), by decide +kernel, by decide +kernel⟩
theorem witness_CohDeliveries_close : (let t := opened .rdOwn [] true none none; let s := closing t (mkMsg .compAck 1 home256.slice 256 1);
      (s.findMsg .compAck true 1 256 = some (mkMsg .compAck 1 home256.slice 256 1) ∧ s.routeUp 1 home256.slice = true ∧ s.canDo (s.coh.deliver s.tick.env (mkMsg .compAck 1 home256.slice 256 1)) ∧ s.coh.evs = []) ∧
      s.coh.txn 256 = some t ∧ t.next = none ∧ s.coh.retry = [] ∧ s.coh.waiting = [] ∧ s.coh.gathers = []) ∧
    (let t := opened .rdCur [] false none none; let s := closing t (toHome .snpData 0);
      (s.findMsg .snpData true 0 256 = some (toHome .snpData 0) ∧ s.routeUp 0 home256.slice = true ∧ s.canDo (s.coh.deliver s.tick.env (toHome .snpData 0)) ∧ s.coh.evs = []) ∧ s.coh.txn 256 = some t ∧ t.waitResp = []) ∧
    (let t := opened .wbReq [] false (some 0) none; let s := closing t (toHome .wbData 0);
      (s.findMsg .wbData true 0 256 = some (toHome .wbData 0) ∧ s.routeUp 0 home256.slice = true ∧ s.canDo (s.coh.deliver s.tick.env (toHome .wbData 0)) ∧ s.coh.evs = []) ∧ s.coh.txn 256 = some t ∧ s.coh.blk 256 = some dirtyBlk) :=
  ⟨⟨deliver_home_of (by decide +kernel), by decide +kernel⟩, ⟨deliver_home_of (by decide +kernel), by decide +kernel⟩, deliver_home_of (by decide +kernel), by decide +kernel⟩
theorem witness_CohDeliveries_early : let t := opened .rdCur [0] false none none; let s := closing t (toHome .snpData 0);
    s.findMsg .snpData true 0 256 = some (toHome .snpData 0) ∧ s.routeUp 0 home256.slice = true ∧ s.coh.evs = [] ∧ s.coh.txn 256 = some t ∧ t.waitResp ≠ [] := by decide +kernel
theorem witness_CohDeliveries_wb : (let s := sent evicting.coh (snoop .wbPull);
      (s.findMsg .wbPull false 0 256 = some (snoop .wbPull) ∧ s.routeUp (snoop .wbPull).src 0 = true ∧ s.canDo (s.coh.deliver s.tick.env (snoop .wbPull)) ∧ s.coh.evs = []) ∧ s.coh.pl 0 256 = some { heldLine with victim := true }) ∧
    (let s := sent taken.coh (snoop .wbCancel); s.findMsg .wbCancel false 0 256 = some (snoop .wbCancel) ∧ s.coh.evs = [] ∧ s.routeUp (snoop .wbCancel).src 0 = true) :=
  ⟨⟨deliver_of (by decide +kernel), by decide +kernel⟩, by decide +kernel⟩
theorem witness_CohDeliveries_fill : (holds256.coh.pl 0 256 = some heldLine ∧ holds256.coh.evs = [] ∧ heldLine.victim = false ∧ heldLine.l2.isSome ∧ 3 < 4 ∧ (holds256.waysOut 0 0).testBit 3 = false ∧ (holds256.waysOut 1 0).testBit 3 = false) ∧
    (let s : State := { State.reset with memx := { State.reset.memx with fetched := [256] }, coh := Coh.empty.setBlk 64 (some { dirtyBlk with valid := 2 }) };
      s.homeLoc 256 = some home256 ∧ s.isMem (64 * 256) = true ∧ s.coh.txn 256 = none ∧ s.coh.sectorOf 256 = none ∧ s.coh.de 256 = none ∧ s.coh.evs = [] ∧ s.memx.inject = [] ∧ s.coh.unwritten = 0 ∧
      256 ∈ s.memx.fetched ∧ s.coh.blk 256 ≠ none) := by decide +kernel
theorem no_decoder (a : Nat) : State.reset.hdmOf a = none := by
  have h : ∀ x ∈ ((List.range 8).flatMap (fun p => (List.range 8).map (fun k => (p, k)))), State.reset.rf (a_RPT_HDM x.1 x.2) f_RPT_HDM_EN = 0 := by decide +kernel
  unfold State.hdmOf
  split
  · rw [List.find?_eq_none]
    intro x hx; simp [State.hdmHas, h x hx]
  · rfl
/-- A message of a home to thread 0 about line 256. -/
def answer (k : MsgKind) (rqr : Nat) (elems : List (Nat × Nat)) (bad : List (Nat × Word)) : Msg := { mkMsg k home256.slice 0 256 rqr with elems := elems, bad := bad }
/-- Thread 0 awaits n responses of its gather, message m in flight. -/
def awaiting (n : Nat) (m : Msg) : State := (sent Coh.empty m).updThr 0 (fun th => { th with gath := some ⟨th.pc, 31 + 128 * 8, n, [], []⟩ })
theorem witness_CohDeliveries_answers : (let m := answer .atomResp 0 [(31, 1), (1, 0x4038)] []; let s := sent Coh.empty m;
      s.coh.msgs.find? (fun m => m.kind == .atomResp && m.thread == 0 && m.line == 256) = some m ∧ s.routeUp m.src m.dst = true ∧ m.poison = false) ∧
    (let m := answer .cmoDone 0 [] []; let s := sent Coh.empty m; s.coh.msgs.find? (fun m => m.kind == .cmoDone && m.thread == 0 && m.line == 256) = some m ∧ s.routeUp m.src m.dst = true) ∧
    (let m := answer .gatherData (31 + 128 * 8) [(3, 9)] []; let s := sent Coh.empty m; s.coh.msgs.find? (fun m => m.kind == .gatherData && m.thread == 0 && m.line == 256) = some m ∧ s.routeUp m.src m.dst = true ∧ (s.thr 0).gath = none) ∧
    (let m := answer .gatherData (31 + 128 * 8) [(3, 9)] []; let s := awaiting 2 m; s.coh.msgs.find? (fun m => m.kind == .gatherData && m.thread == 0 && m.line == 256) = some m ∧ s.routeUp m.src m.dst = true ∧
      (s.thr 0).gath = some ⟨(s.thr 0).pc, 31 + 128 * 8, 2, [], []⟩ ∧ (awaiting 1 m).coh = s.coh ∧ ((awaiting 1 m).thr 0).gath = some ⟨((awaiting 1 m).thr 0).pc, 31 + 128 * 8, 1, [], []⟩ ∧ m.bad = []) ∧
    (let m := answer .gatherData (31 + 128 * 8) [(3, 9)] [(1, 0x4038)]; let s := awaiting 1 m; s.coh.msgs.find? (fun m => m.kind == .gatherData && m.thread == 0 && m.line == 256) = some m ∧ s.routeUp m.src m.dst = true ∧
      (s.thr 0).gath = some ⟨(s.thr 0).pc, m.rqr, 1, [], []⟩ ∧ m.rqr / 128 ≤ 8 ∧ (1, 0x4038) ∈ m.bad ∧ ∀ x ∈ m.bad, x ≠ (1, 0x4038) → 1 < x.1) := by decide +kernel
theorem witness_CohDeliveries_poisoned : ((awaiting 1 (answer .gatherData (31 + 128 * 8) [(3, 9)] [(1, 0x4038)])).thr 0).Legal := legal_of (by decide +kernel)

/-! ### Witnesses: mesh, memory controllers, Galley -/

/-- Reset with machine time mt. -/
def atMt (mt : Nat) : State := { State.reset with time := { State.reset.time with mt := mt, ticks := mt } }
theorem witness_MeshErrors : (⟨0, 0⟩ : Elem).ok = true ∧ State.reset.linkStuck ⟨0, 0⟩ true = false ∧ (⟨0, 0⟩ : Elem) ∉ State.reset.meshFaults ∧
    (let s : State := { State.reset with msh := { State.reset.msh with retrain := [(⟨0, 0⟩, true, 7)] } };
      s.msh.retrain.find? (fun x => x.1 == ⟨0, 0⟩ && x.2.1 == true) = some (⟨0, 0⟩, true, 7) ∧ s.msh.failing = [] ∧ (⟨0, 0⟩ : Elem) ∉ s.meshFaults) ∧
    (let s : State := { State.reset with msh := { State.reset.msh with failing := [(⟨0, 0⟩, 7)] } };
      s.gal.restart = none ∧ s.msh.failing.find? (fun x => x.1 == ⟨0, 0⟩) = some (⟨0, 0⟩, 7) ∧ (List.range 8).find? (fun n => s.rf (a_MSH_FAULT n) f_MSH_FAULT_VALID == 0) = some 0) ∧
    37 < 38 ∧ smGet (fun _ => 0) (atMt 99999).msh.aqLast 37 + 100000 ≤ (atMt 99999).time.mt + 1 := by decide +kernel
/-- Where line 256 is served. -/
def at256 : MemAt := (State.reset.servedAt 256 true).headD ⟨0, 0, 0⟩
/-- Reset with its memory units changed. -/
def withMem (f : MemSt → MemSt) : State := State.reset.updMem f
/-- Requests queued. -/
def queued (rs : List MemReq) : State := withMem (fun x => { x with reqs := rs })
/-- A queued request for line 256. -/
def req256 (wr : Bool) : MemReq := ⟨at256, 256, wr, false, 0, 0, 0, false⟩
theorem witness_MemoryCommands_request : State.reset.hdmOf (64 * 256) = none ∧ State.reset.servedAt 256 true = [at256] ∧ State.reset.memx.held = [] ∧
    (State.reset.queuedWrite at256.sch 256 = false ∧ State.reset.queueRoom at256 true = true) ∧
    (let s := queued [req256 true]; s.servedAt 256 false = [at256] ∧ s.queuedWrite at256.sch 256 = true ∧ s.queueRoom at256 false = true) ∧
    (let s := queued (List.replicate 64 { req256 false with line := 999 }); s.queueRoom at256 false = false) ∧
    (let s := withMem (fun x => { x with held := [⟨256, true, false, 0⟩] }); s.servedAt 256 false ≠ [] ∧ ∃ x ∈ s.memx.held, x.wr = true ∧ x.line = 256) := by decide +kernel
/-- Decoder 0 of root port 0 claims 256 MiB. -/
def claims : State := State.reset.setReg (a_RPT_HDM 0 0) (setFld (setFld (setFld 0 f_RPT_HDM_EN.1 f_RPT_HDM_EN.2 1) f_RPT_HDM_SIZE.1 f_RPT_HDM_SIZE.2 1) f_RPT_HDM_BASE.1 f_RPT_HDM_BASE.2 (0x000A000000000000 / 2 ^ 28))
theorem witness_MemoryCommands_cxl : claims.hdmOf (64 * (0x000A000000000000 / 64)) = some (0, 0) := by decide +kernel
/-- A queued read of the first line of DDR5 channel 0, and where it is served. -/
def reqDdr : MemReq := ⟨(State.reset.servedAt (2 ^ 40 / 64) false).headD ⟨0, 0, 0⟩, 2 ^ 40 / 64, false, false, 0, 0, 0, false⟩
theorem witness_MemoryCommands_access : (queued [reqDdr]).memx.reqs[0]? = some reqDdr ∧ (queued [reqDdr]).pickReq reqDdr.loc.sch = some 0 ∧ (queued [reqDdr]).memx.inject = [] ∧ (queued [reqDdr]).hbmCached = false ∧ (queued [reqDdr]).coh.unwritten = 0 ∧
    reqDdr.loc.unit < 16 ∧ (queued [reqDdr]).chFailed reqDdr.loc.unit = false := by decide +kernel
/-- Debt n of rank 0 of channel 0. -/
def owes (n : Nat) : State := State.reset.setDebt 0 0 n
theorem witness_MemoryCommands_refresh : (owes 7).memHere 0 = true ∧ (owes 7).inSr 0 = false ∧ 0 < (owes 7).refRanks 0 ∧ (owes 7).debtOf 0 0 < 8 ∧ (owes 7).domState (memDom 0) = 2 ∧ 8 ≤ (owes 8).debtOf 0 0 ∧ 0 < (owes 8).refRanks 0 ∧ 0 < 32 := by decide +kernel
/-- Unit 0 in self-refresh, wanted. -/
def asleep : State := (withMem (fun x => { x with wants := [⟨reqDdr.loc, 2 ^ 40 / 64, false, 0⟩] })).setReg (memReg 0 0x20) (setBit (State.reset.reg (memReg 0 0x20)) 32 true)
theorem witness_MemoryCommands_sleep : (let s := (atMt 100000000).setReg (memReg 0 0x20) (setBit (State.reset.reg (memReg 0 0x20)) 0 true);
      s.memHere 0 = true ∧ s.inSr 0 = false ∧ bit (s.reg (memReg 0 0x20)) 0 = true ∧ s.memx.reqs = [] ∧ smGet (fun _ => 0) s.memx.busy 0 + 1000 * fld (s.reg (memReg 0 0x20)) 16 16 ≤ s.time.mt) ∧
    (asleep.memHere 0 = true ∧ asleep.inSr 0 = true ∧ (∃ x ∈ asleep.memx.wants, x.loc.unit = 0) ∧ asleep.domState (memDom 0) = 2) ∧
    (asleep.inSr 0 = true ∧ 0 ∉ asleep.memx.retrainDue) ∧ (atMt 19000000).memHere 15 = true ∧ 15 * 1000000 ≤ (atMt 19000000).time.mt % 100000000 ∧
    smGet (fun _ => 0) (atMt 19000000).memx.retrained 15 ≤ (atMt 19000000).time.mt / 100000000 ∧ (atMt 19000000).inSr 15 = false := by decide +kernel
/-- Channels 0 and 4 are a mirrored pair. -/
def mirrored : State := State.reset.wf a_MSH_MEM_CFG f_MSH_MEM_CFG_MIRROR 1
theorem witness_MemoryCommands_fail : State.reset.chTrained 0 = true ∧ State.reset.chFailed 0 = false ∧ State.reset.partner 0 = none ∧ mirrored.partner 0 = some 4 ∧ mirrored.chFailed 4 = false ∧
    (mirrored.wf (a_DMC_RAS_STAT 4) f_DMC_RAS_STAT_CH_FAILED 1).chFailed 4 = true ∧
    (let s := mirrored.updMem (fun x => { x with failovers := [⟨0, 4, 9⟩] }); s.memx.failovers.find? (fun f => f.ch == 0) = some ⟨0, 4, 9⟩ ∧ s.partner 0 = some 4) ∧
    (15, 3) ∈ (withMem (fun x => { x with walks := [(15, 3)] })).memx.walks ∧ (⟨3, 31, 5, 77⟩ : HbmRow) ∈ (withMem (fun x => { x with repairDue := [⟨3, 31, 5, 77⟩] })).memx.repairDue := by decide +kernel
theorem witness_MemoryCommands_patrol : State.reset.memHere 0 = true ∧ State.reset.rf (memReg 0 0x28) f_DMC_RAS_CTL_SCRUB_EN ≠ 0 ∧ State.reset.inSr 0 = false ∧ State.reset.memx.inject = [] ∧ 0 < (State.reset.patrolLines 0).1 := by decide +kernel
/-- A Galley command that its executor may take up. -/
def handed (s : State) (r op : Nat) (c : GalCmd) : Bool :=
  s.galFirst r (executorOf op) == some c && c.op == op && !c.begun && s.galReady c && !s.galFenced c && s.galTurn c && (s.galCheck c).isNone && (s.rf a_GAL_BOOT_STAT f_GAL_BOOT_STAT_HALT == 0 || haltOps.contains op)
theorem handed_of {s : State} {r op : Nat} {c : GalCmd} (h : handed s r op c = true) : Handed s r op c := by
  simp only [handed, Bool.and_eq_true, beq_iff_eq, Bool.not_eq_true', Bool.or_eq_true, Option.isNone_iff_eq_none, List.contains_iff_mem] at h
  obtain ⟨⟨⟨⟨⟨⟨⟨h1, h2⟩, h3⟩, h4⟩, h5⟩, h6⟩, h7⟩, h8⟩ := h
  exact ⟨h1, h2, h3, h4, h5, h6, h7, h8⟩
/-- A command of ring 0 with seven parameter words, no flag and tag 5. -/
def cmd (op target : Nat) (w : List Word) : GalCmd := ⟨0, op, 0, 7, 5, target, w, 0, 0, none, false⟩
/-- It has been taken, 1 us after MT 0. -/
def given (c : GalCmd) : State := { atMt 1000 with gal := { State.reset.gal with taken := [c] } }
/-- What ring 0 can ask of the Lengthsman and the others, with operands that pass their own conditions. -/
theorem handed_all {l : List (Nat × Nat × List Word)} (h : l.all (fun x => handed (given (cmd x.1 x.2.1 x.2.2)) 0 x.1 (cmd x.1 x.2.1 x.2.2)) = true) :
    ∀ x ∈ l, Handed (given (cmd x.1 x.2.1 x.2.2)) 0 x.1 (cmd x.1 x.2.1 x.2.2) := fun x hx => handed_of (List.all_eq_true.mp h x hx)
theorem witness_LengthsmanCommands : ∀ x ∈ ([(0x0001, 0xFFFF, [1, 2]), (0x0002, 0xFFFF, [0x2000000000]), (0x0201, 223, []), (0x0202, 0, []), (0x0210, 0xFFFF, [1]), (0x0601, 0xFFFF, [5]), (0x0701, 0xFFFF, []),
    (0x0702, 0xFFFF, [0])] : List (Nat × Nat × List Word)), Handed (given (cmd x.1 x.2.1 x.2.2)) 0 x.1 (cmd x.1 x.2.1 x.2.2) := handed_all (by decide +kernel)
theorem witness_LengthsmanCommands_more : ∀ x ∈ ([(0x0801, 0xFFFF, [0x100000002]), (0x0802, 0xFFFF, [48]), (0x0803, 0xFFFF, []), (0x0804, 0xFFFF, []), (0x0A01, 0xFFFF, [0]), (0x0A02, 0xFFFF, [0]), (0x0501, 745, []),
    (0x0502, 710, [])] : List (Nat × Nat × List Word)), Handed (given (cmd x.1 x.2.1 x.2.2)) 0 x.1 (cmd x.1 x.2.1 x.2.2) := handed_all (by decide +kernel)
/-- A command of the DIAG ring on a part in DEVELOPMENT. -/
def diag : GalCmd := { cmd 0x0503 0xFFFF [1, 0x4000] with ring := 3 }
theorem witness_LengthsmanCommands_diag : Handed ((given diag).wf a_TOL_CTL f_TOL_CTL_LIFECYCLE 0) 3 0x0503 diag ∧ State.reset.paKind 0x4000 = .mem ∧ (1 = 1 ∨ 1 = 2) := ⟨handed_of (by decide +kernel), by decide +kernel, by decide⟩

/-! ### Witnesses: Galley rings, power, plain accesses, registers -/

/-- Ring 0 is on, its buffers in memory, one packet posted. -/
def ringOn : State := ((((State.reset.wf (a_GAL_CTL 0) f_GAL_CTL_EN 1).wf (a_GAL_CTL 0) f_GAL_CTL_SIZE_LOG2 4).wf (a_GAL_CBASE 0) f_GAL_CBASE_BASE 4).wf (a_GAL_PBASE 0) f_GAL_PBASE_BASE 5).setReg (a_GAL_TAIL 0) 1
/-- Its packet lies where no memory is. -/
def ringBad : State := ringOn.wf (a_GAL_CBASE 0) f_GAL_CBASE_BASE (0x000A000000000000 / 4096)
theorem witness_GalleyRings_take : (ringOn.galOn 0 = true ∧ ringOn.galRoom 0 = true ∧ ringOn.gal.restart = none ∧ (ringOn.galRead 0 0).2 = some (List.replicate 64 0)) ∧
    ringBad.galOn 0 = true ∧ ringBad.galRoom 0 = true ∧ ringBad.gal.restart = none ∧ (ringBad.galRead 0 (ringBad.rf (a_GAL_STAT 0) f_GAL_STAT_HEAD)).2 = none := by decide +kernel
theorem witness_GalleyRings_prove : (cmd 1 0 []).net = none ∧ (cmd 1 0 []).ring < 4 ∧ (cmd 1 0 []).ring ≠ 2 ∧ ringOn.isMem (ringOn.rf (a_GAL_PBASE 0) f_GAL_PBASE_BASE * 4096) = true ∧
    ringOn.memFailed (ringOn.rf (a_GAL_PBASE 0) f_GAL_PBASE_BASE * 4096 / 64) = false ∧ (cmd 1 0 []).flags.testBit 0 = false ∧ ({ cmd 1 0 [] with net := some ⟨1, 2⟩ } : GalCmd).net = some ⟨1, 2⟩ := by decide +kernel
/-- Event Queue 0 on, in memory, with PROD and CONS as given. -/
def queueOn (prod cons : Nat) : State := ((((State.reset.wf (a_EVQ_CTL 0) f_EVQ_CTL_EN 1).wf (a_EVQ_CTL 0) f_EVQ_CTL_SIZE_LOG2 6).wf (a_EVQ_BASE 0) f_EVQ_BASE_BASE 4).wf (a_EVQ_PROD 0) f_EVQ_PROD_PROD prod).wf (a_EVQ_CONS 0) f_EVQ_CONS_CONS cons
theorem witness_GalleyRings_offer : (let s := queueOn 0 0; s.rf (a_EVQ_CTL 0) f_EVQ_CTL_EN ≠ 0 ∧ (s.evq 0).dropping = false ∧ 2 ≤ s.evqFree 0 ∧ s.evqSize 0 ≤ 65536 ∧ s.isMem (s.rf (a_EVQ_BASE 0) f_EVQ_BASE_BASE * 4096) = true ∧
      s.memFailed (s.rf (a_EVQ_BASE 0) f_EVQ_BASE_BASE * 4096 / 64) = false) ∧
    (let s := queueOn ((queueOn 0 0).evqSize 0 - 2) 0; (s.evq 0).dropping = false ∧ s.evqFree 0 = 1) ∧
    (let s := queueOn ((queueOn 0 0).evqSize 0 - 1) 0; (s.evq 0).dropping = false ∧ s.evqFree 0 = 0) ∧
    (State.reset.rf (a_EVQ_CTL 0) f_EVQ_CTL_EN = 0) := by decide +kernel
/-- Domain d is in state k. -/
def dom (s : State) (d k : Nat) : State := s.wf (a_PVC_DOM d) f_PVC_DOM_STATE k
/-- The command c in HOST_DIRECT mode of ring 0, with domain 5 in state k, its tokens full and no DEP vote. -/
def direct (c : GalCmd) (k : Nat) : State := (dom ((given c).setReg a_PVC_STAT ((given c).reg a_PVC_STAT)) 5 k).wf a_PVC_STAT f_PVC_STAT_HOST_DIRECT 1
theorem witness_PowerCommands : ∀ x ∈ ([(0x0101, 0xFFFF, [787]), (0x0102, 0xFFFF, []), (0x0103, 0xFFFF, []), (0x0104, 0xFFFF, [5]), (0x0110, 0xFFFF, [650]), (0x0111, 0xFFFF, [])] : List (Nat × Nat × List Word)),
    Handed (given (cmd x.1 x.2.1 x.2.2)) 0 x.1 (cmd x.1 x.2.1 x.2.2) := handed_all (by decide +kernel)
theorem witness_PowerCommands_direct : (let c := cmd 0x0103 0xFFFF []; Handed (direct c 2) 0 0x0103 c) ∧ (let c := cmd 0x0104 0xFFFF [5 + 0x1000]; Handed (direct c 0) 0 0x0104 c) ∧ (let c := cmd 0x0104 0xFFFF [5]; Handed (direct c 2) 0 0x0104 c) ∧
    (let s := direct (cmd 0x0104 0xFFFF [5]) 2; s.hostDirect = true ∧ s.domState 5 = 2 ∧ (s.votes 5).testBit 0 = false) ∧ (direct (cmd 0x0104 0xFFFF [5 + 0x1000]) 0).domHeldSpare 5 = false ∧ domAbsent State.reset.variant 787 = false :=
  ⟨handed_of (by decide +kernel), handed_of (by decide +kernel), handed_of (by decide +kernel), by decide +kernel, by decide +kernel, by decide +kernel⟩
theorem witness_PowerCommands_domain : (dom State.reset 787 3).domState 787 = 3 ∧ (dom State.reset 783 3).domState 783 = 3 ∧ (dom State.reset 783 3).brgDrained 15 = true ∧ (dom State.reset 787 1).domState 787 = 1 ∧ (dom State.reset 787 1).wakeOpen 787 = true ∧ (atMt 20000).wakeOpen 787 = true ∧ State.reset.ras.sparing = [] ∧ State.reset.rf (a_PVC_WEAR 787) f_PVC_WEAR_SWITCHES < switchBudget ∧
    smGet (fun _ => 0) State.reset.pwr.attempts 787 ≤ 1 ∧ (atMt 20000).notYet (smGet (fun _ => 0) (atMt 20000).pwr.firstMt 787 + 20000) = false ∧
    (let s := (atMt 50000).updPwr (fun x => { x with attempts := smSet (fun _ => 0) x.attempts 787 2 }); 2 ≤ smGet (fun _ => 0) s.pwr.attempts 787 ∧ s.notYet (smGet (fun _ => 0) s.pwr.firstMt 787 + 50000) = false) ∧
    (State.reset.votes 783).testBit 0 = false ∧
    (let s := (atMt 100000).updPwr (fun x => { x with unlocked := [0] }); s.domOn 0 = true ∧ 0 ∈ s.pwr.unlocked ∧ 0 ∉ s.pwr.pllFailed ∧ s.pwr.refLost = none ∧ s.notYet (smGet (fun _ => 0) s.pwr.goodMt 0 + 100000) = false ∧ (s.votes 0).testBit 0 = false) := by decide +kernel
theorem witness_PowerCommands_clock : State.reset.pwr.refLost = none ∧ State.reset.rf a_GAL_BOOT_STAT f_GAL_BOOT_STAT_STAGE = 8 ∧ (State.reset.updPwr (fun x => { x with refLost := some 3 })).pwr.refLost = some 3 ∧
    State.reset.gal.restart = none ∧ State.reset.running = true ∧ (State.reset.mtRuns = true → State.reset.pwr.capMs ≤ State.reset.time.mt / 1000000 ∧ State.reset.pwr.freqMs ≤ State.reset.time.mt / 1000000) ∧
    (let s := (State.reset.updPwr (fun x => { x with unlocked := [] })).updCore 223 (fun c => { c with clksel := c.clksel ||| 1 }); (dom s 223 2).domState 223 = 2 ∧ (dom s 223 2).coreOnPll 223 = true ∧ (dom s 223 2).pllFreq 223 = 48 ∧ s.grantOf 223 ≠ 48) ∧
    State.reset.rf a_PVC_STAT f_PVC_STAT_LIMIT < 1200 ∧ State.reset.rf a_PVC_STAT f_PVC_STAT_CAP ≠ 32 ∧ State.reset.pwr.capUnmet = none ∧ (State.reset.wf a_PVC_STAT f_PVC_STAT_CAP 32).rf a_PVC_STAT f_PVC_STAT_CAP = 32 ∧
    (State.reset.wf a_PVC_STAT f_PVC_STAT_CAP 131).rf a_PVC_STAT f_PVC_STAT_CAP < 132 ∧ 0 + 20 < State.reset.rf a_PVC_STAT f_PVC_STAT_LIMIT := by decide +kernel
/-- Bytes of line 256 are plain for thread 0, which uses no translation. -/
theorem plain_of {s : State} {va : Word} {n : Nat} (hr : s.regime 0 = none)
    (h : va.toNat < 2 ^ 52 ∧ s.paKind va.toNat = .mem ∧ va.toNat % 64 + n ≤ 64 ∧ (s.thr 0).secure = true ∧ ∀ rd wr, s.watchAt 0 va n rd wr = none) : Plain 0 va n s :=
  ⟨fun r h' => (by rw [hr] at h'; cases h'), h.1, .inl h.2.1, h.2.2.1, .inl h.2.2.2.1, h.2.2.2.2⟩
theorem held_post : HeldIn ((post holds256).stopOf 0) 256 heldLine 1 (post holds256) := ⟨by decide +kernel, rfl, rfl, rfl, rfl⟩
theorem witness_PlainAccesses : ∃ ea s1 w, loadForm (.svl 0 31 1 1) = some (0, true, 32, .sv 31, ea) ∧ Executes (.svl 0 31 1 1) 0 holds256 s1 w ∧ (s1.thr 0).stores = [] ∧ s1.loadOut 0 = none ∧ s1.coh.evs = [] ∧ (∀ g ∈ s1.coh.given, g.thread ≠ 0) ∧
    Plain 0 (ea (s1.thr 0)) 32 s1 ∧ HeldIn (s1.stopOf 0) ((ea (s1.thr 0)).toNat / 64) heldLine 1 s1 :=
  ⟨_, _, _, rfl, executes_of_runs (by decide +kernel), by decide +kernel, by decide +kernel, by decide +kernel, by decide +kernel, plain_of (by decide +kernel) (by decide +kernel), held_post⟩
theorem witness_PlainAccesses_store : ∃ ea s1 w, storeForm (.svs 0 31 1 1) = some (0, true, 32, .sv 31, false, ea) ∧ Executes (.svs 0 31 1 1) 0 holds256 s1 w ∧ Plain 0 (ea (s1.thr 0)) 32 s1 :=
  ⟨_, _, _, rfl, executes_of_runs (by decide +kernel), plain_of (by decide +kernel) (by decide +kernel)⟩
theorem witness_PlainAccesses_near : ∃ s1 w, atomForm (.atomUmax 0 2 1 4 0 0 1) = some (0, 2, 1, 4, 0, 1, 7, true) ∧ Executes (.atomUmax 0 2 1 4 0 0 1) 0 holds256 s1 w ∧ ((s1.thr 0).rE 1).toNat % atomWidth 1 = 0 ∧
    Plain 0 ((s1.thr 0).rE 1) (atomWidth 1) s1 ∧ HeldIn (s1.stopOf 0) (((s1.thr 0).rE 1).toNat / 64) heldLine 1 s1 ∧ heldLine.st = .m :=
  ⟨_, _, rfl, executes_of_runs (by decide +kernel), by decide +kernel, plain_of (by decide +kernel) (by decide +kernel), held_post, rfl⟩
/-- The far operation of an ATOM.ADD on line 256 by thread 0. -/
def farDone : Coh × Line × Bool × Bool := (post (at0 (·.wE 1 0x4000))).coh.farOp (post (at0 (·.wE 1 0x4000))).env 0 256 ((post (at0 (·.wE 1 0x4000))).clsOf 0)
  (fun x => putInLine x (0x4000 % 64) (atomWidth 1) (atomNew 0 (atomWidth 1) (fromLine x (0x4000 % 64) (atomWidth 1)) 0 0))
theorem witness_PlainAccesses_far : farDone.2.2.1 = false ∧ (post (at0 (·.wE 1 0x4000))).coh.blocked 256 = false ∧ (post (at0 (·.wE 1 0x4000))).coh.queued 256 = false ∧ (post (at0 (·.wE 1 0x4000))).coh.lineFree 0 256 = true ∧ (post (at0 (·.wE 1 0x4000))).canDo farDone.1 :=
  ⟨by decide +kernel, by decide +kernel, by decide +kernel, by decide +kernel, by unfold State.canDo; decide +kernel⟩
theorem witness_PlainAccesses_others : (∃ s1 w, Executes (.fenceIo 0) 0 State.reset s1 w ∧ (s1.thr 0).stores = []) ∧ (∃ s1 w, Executes (.fenceFetch 0) 0 State.reset s1 w ∧ (s1.thr 0).stores = []) ∧
    ∃ s1 w, Executes (.isend 0 1 2) 0 State.reset s1 w ∧ 1 ≤ (s1.thr 0).pl ∧ (s1.thr 0).stores = [] ∧ s1.guest 0 = false ∧ ¬((s1.thr 0).pl = 2 ∧ bit ((s1.thr 0).rE 1) 63 = true) :=
  ⟨⟨_, _, executes_of_runs (by decide +kernel), by decide +kernel⟩, ⟨_, _, executes_of_runs (by decide +kernel), by decide +kernel⟩, _, _, executes_of_runs (by decide +kernel), by decide +kernel⟩
theorem witness_PlainAccesses_vector : ∃ s1 w, Executes (vls none) 0 holds256 s1 w ∧ (let v := vlsMem 0 false 31 1 0 0 3 none (s1.begun 0 false w false); v.upto = none ∧ v.active s1 = [0, 1, 2, 3] ∧ v.esz = 8 ∧
    ∀ i ∈ v.active s1, (v.addr i).toNat / 64 = 256 ∧ (v.addr i).toNat % 64 + v.esz ≤ 64) ∧ s1.coh.evs = [] ∧ s1.coh.given = [] ∧ s1.loadOut 0 = none ∧ (s1.thr 0).stores = [] :=
  ⟨_, _, executes_of_runs (by decide +kernel), by decide +kernel, by decide +kernel, by decide +kernel, by decide +kernel, by decide +kernel⟩
/-- A Secure agent, and a Normal one. -/
def secAgent : Agent := ⟨true, 0, 0, 0⟩
theorem gets_of {s : State} {q : CcsReq} {w : Bool} (h : (s.pageSecure q.off = false ∨ q.sec = true) ∧ 0x100000 ≤ q.off ∧ s.absentAt q.off = none ∧ (findReg q.off).isSome ∧ s.ownCheck q w = none) : Gets s q w :=
  ⟨h.1, h.2.1, h.2.2.1, h.2.2.2.1, h.2.2.2.2⟩
theorem witness_RegisterCommands : (∃ f, regForm (.galTail secAgent 0 65535) = some (secAgent, true, a_GAL_TAIL 0, 65535 % 2 ^ 16, f)) ∧ Gets State.reset (agentAccess secAgent (a_GAL_TAIL 0) false 65535) true ∧
    a_GAL_TAIL 0 % 8 = 0 ∧ (State.reset.pageSecure (a_TOL_CTL) = true ∧ (⟨false, 0, 0, 0⟩ : Agent).sec = false) ∧ (findReg 0x100FF8).isNone ∧ 0x100000 ≤ 0x100FF8 ∧
    (fieldsAt (a_GAL_TAIL 0)).isSome ∧ 831 < State.reset.nThreads ∧ Gets State.reset (agentAccess secAgent (a_IRT_ACK_N 831) false 0) false ∧ Gets State.reset (agentAccess secAgent (a_IRT_ACK_S 831) false 0) false ∧
    mbxForm (.sha384 secAgent 1 2 3) = some (secAgent, 2, [1, 2, 3]) ∧ secAgent.sec = true ∧ State.reset.tol.mbx = none :=
  ⟨⟨_, rfl⟩, gets_of (by decide +kernel), by decide +kernel, by decide +kernel, by decide +kernel, by decide, by decide +kernel, by decide +kernel, gets_of (by decide +kernel), gets_of (by decide +kernel), rfl, rfl, by decide +kernel⟩

/-! ### Witnesses: the invariant, devices, the Interrupt Router -/

/-- A state with memory, a thread at level 1 of the Normal world, a waiting command and an instruction in the debug port. -/
def kept : State := { normalAt 1 with pending := [.clockRefLost], coh := { Coh.empty with mem := [(0x4000, 7)] }, jtag := { JtagSt.reset with ir := 0x10 } }
theorem kept_modes : kept.Modes := by
  intro t
  by_cases h : t = 0
  · subst h; exact legal_of (by decide +kernel)
  · have e : kept.thr t = (kept.thr 1) := by
      have h2 : kept.threads = [(0, kept.thr 0)] := by decide +kernel
      show smGet _ kept.threads t = smGet _ kept.threads 1
      rw [h2]; simp [smGet, smFind, Ne.symm h]
    rw [e]; exact legal_of (by decide +kernel)
theorem witness_InvariantKept : kept.Canon ∧ kept.Modes ∧ kept.jtag.Legal ∧ isNext (step kept) = true ∧ kept ≠ State.reset :=
  ⟨⟨by decide +kernel, by decide +kernel, by decide +kernel, by decide +kernel⟩, kept_modes, by unfold JtagSt.Legal; decide +kernel, by decide +kernel, by decide +kernel⟩

theorem untranslated_of {k : Nat} {c : IotCtx} {s : State} (h : bit (s.reg a_IOT_CTL) 0 = true ∧ smGet (fun _ => none) s.iot.ctxs k = some c ∧ c.pin = true ∧ (bit c.w0 1 = false ∧ bit c.w0 2 = false) ∧
    (∀ e ∈ s.iot.tlb, e.stream ≠ k) ∧ s.vmidBlocked 2 c.vmid = false) : Untranslated k c s := ⟨h.1, h.2.1, h.2.2.1, h.2.2.2.1, h.2.2.2.2.1, h.2.2.2.2.2⟩
theorem devPlain_of {c : IotCtx} {a n : Nat} {s : State} (h : 0 < n ∧ a % 64 + n ≤ 64 ∧ (s.isMem a = true ∧ s.isMem (64 * (a / 64)) = true) ∧ (c.sec = true ∨ s.lineSec (a / 64) = false) ∧ s.inMsi a = false) :
    DevPlain c a n s := ⟨h.1, h.2.1, h.2.2.1, h.2.2.2.1, h.2.2.2.2⟩
/-- A resident context of the Normal world, tenant 3, that translates nothing and allows address translation services. -/
def ctx3 : IotCtx := ⟨BitVec.ofNat 64 (1 + 2 ^ 3 + 3 * 2 ^ 16), 0, 0, false, true⟩
/-- Stream k has it, with the IOTU on, taking ATS requests, an MSI window, and line 256 in its home. -/
def devOn (k : Nat) : State := { ((State.reset.setReg a_IOT_CTL 3).wf a_IOT_MSI_BASE f_IOT_MSI_BASE_BASE 0xFEE) with
  coh := Coh.empty.setBlk 64 (some { dirtyBlk with sec := 0 }), iot := { State.reset.iot with ctxs := smSet (fun _ => none) [] k (some ctx3) } }
theorem witness_DeviceCommands : Untranslated 0x107 ctx3 (devOn 0x107) ∧ DevPlain ctx3 0x4038 8 (devOn 0x107) ∧ DevPlain ctx3 0x4000 [1#8, 2#8].length (devOn 0x107) ∧ (∃ f, devAtom (.fetchAdd 8 1) = some (8, f)) ∧
    (let s := devOn 0x107; let s1 := (s.tick.noteTry (.read (0x4000 / 64))).countCur 224 (0x4000 / 64) (s.reqCls 0x107 ctx3) (devRqr 0x107 ctx3);
      (s.tick.readBytes 0x4000 8).2 = false ∧ s1.isMem (64 * (0x4000 / 64)) = true ∧ s1.lineSec (0x4000 / 64) = false ∧ s1.isMem 0x4000 = true) ∧
    (devOn 0x107).inMsi 0xFEE0040 = true ∧ 0xFEE0040 % 4096 ≤ 4092 ∧ ctx3.ats = true ∧ bit ((devOn 0x107).reg a_IOT_CTL) 1 = true ∧ (devOn 0x107).isMem 0x4000 = true ∧ portOfStream 0x107 = some 0 :=
  ⟨untranslated_of (by decide +kernel), devPlain_of (by decide +kernel), devPlain_of (by decide +kernel), ⟨_, rfl⟩, by decide +kernel, by decide +kernel, by decide, by decide +kernel, by decide +kernel, by decide +kernel, rfl⟩
/-- An ATS Invalidate of stream 0x107 is out, and a request of before IOT_INV. -/
def invOut (own : Option Nat) (reqs : List OutId) : State := (State.reset.updIot (fun x => { x with inv := [⟨0x107, 0, own⟩], invReqs := reqs }))
theorem witness_DeviceCommands_free : (devOn 0x107).inLlc (0x4000 / 64) ∧ (devOn 0x107).tick.holds (fun s => (s.devWrite 0x107 0xFEE0040 (leBytes 4 0) false).1) = [] := by
  unfold State.inLlc; decide +kernel
theorem witness_DeviceCommands_inv : (invOut none []).iot.inv.find? (fun x => x.stream == 0x107) = some ⟨0x107, 0, none⟩ ∧
    (let s := { invOut none [] with time := (atMt 100000000).time }; s.iot.inv.find? (fun x => x.stream == 0x107 && decide (x.start + 1000 * s.rf a_IOT_ATS_CTL f_IOT_ATS_CTL_TIMEOUT ≤ s.time.mt)) = some ⟨0x107, 0, none⟩) ∧
    (State.reset.iot.invReqs = [] ∧ bit (State.reset.reg a_IOT_INV) 63 = false) ∧ (∃ x ∈ (invOut none []).iot.inv, x.owner = none) ∧
    (let s := invOut (some 0) [⟨0, 0, 767, 5⟩]; s.iot.invReqs ≠ [] ∧ (∀ x ∈ s.iot.inv, x.owner ≠ none) ∧ s.stillOut s.iot.invReqs = false) ∧
    bit ((State.reset.setReg a_IOT_INV (BitVec.ofNat 64 (2 ^ 63))).reg a_IOT_INV) 63 = true := by decide +kernel

/-- Berth 3's input, pinned: INTID 17 of thread 831. -/
def pinned : State := { State.reset.setReg a_IRT_CTL 1 with rtr := { State.reset.rtr with pins := [⟨⟨true, 0x083, 0⟩, (1, 0), (BitVec.ofNat 64 (1 + 17 * 2 ^ 8 + 831 * 2 ^ 32), 0)⟩] } }
theorem witness_RouterCommands : ({ State.reset with ev := { State.reset.ev with irqs := [⟨0xC4, 0, 5⟩] } } : State).ev.irqs.find? (fun e => e.src == 0xC4 && e.ev == 0) = some ⟨0xC4, 0, 5⟩ ∧
    (∃ p, bit (pinned.reg a_IRT_CTL) 0 = true ∧ pinned.rtr.pins.find? (fun p => p.src == ⟨true, 0x083, 0⟩) = some p ∧ fld p.dt.2 0 16 = 0 ∧ pinned.vmidBlocked 4 0 = false ∧ bit p.it.1 1 = false ∧
      fld p.it.1 8 10 = 17 ∧ fld p.it.1 32 10 = 831 ∧ 831 < pinned.nThreads) := ⟨by decide +kernel, _, by decide +kernel, rfl, by decide +kernel⟩
/-- The record of vCPU 0x4000 of tenant 3 with vINTIDs 40 and 1023 pending. -/
def vrec : LoadedRec := ⟨0x4000, 3, 0, 0, 1#1024 <<< 40 ||| 1#1024 <<< 1023⟩
/-- It is loaded on thread 0, a guest of tenant 3 at level 0 whose doorbell is on the way. -/
def loaded : State :=
  let s : State := at0 (fun th => { ({ th with tstat := 0 } : Thread).setCommitted 0x810 (BitVec.ofNat 64 (1 + 3 * 2 ^ 16)) with pendFlag := true })
  { s with rtr := { s.rtr with recs := smSet (fun _ => none) [] 0 (some vrec), bells := [0] } }
theorem witness_RouterCommands_take : loaded.threadOfRec 0x4000 = some 0 ∧ loaded.loadedOn 0 = some vrec ∧ vrec.vmid = 3 ∧ vrec.pend.getLsbD 41 = false ∧ 0 ∈ loaded.rtr.bells ∧ loaded.canRun 0 = true ∧ (loaded.thr 0).pendFlag = true ∧
    (loaded.thr 0).takeOut = false ∧ (loaded.thr 0).vint = none ∧ loaded.virtOk 0 vrec.vmid = true ∧ loaded.vmidBlocked 4 vrec.vmid = false ∧ vrec.pend.getLsbD 40 = true ∧ (∀ k, k < 40 → vrec.pend.getLsbD k = false) ∧
    ((loaded.setReg (a_QOS_TRST_SLOT 0) (BitVec.ofNat 64 (3 + 2 ^ 16 + 4 * 2 ^ 19))).vmidBlocked 4 vrec.vmid = true) := by decide +kernel
/-- A TAKE of that thread is out. -/
def takes (reply : Option Nat) : State := (loaded.setTake 0 (some ⟨0x4000, 3, reply⟩)).updThr 0 (fun th => { th with takeOut := true })
theorem witness_RouterCommands_reply : (takes (some 40)).takeOf 0 = some ⟨0x4000, 3, some 40⟩ ∧ ((takes (some 40)).thr 0).takeOut = true ∧ ((takes (some 40)).tick.updThr 0 (fun th => { th with takeOut := false })).takeOk 0 ⟨0x4000, 3, some 40⟩ = true ∧
    (((takes (some 40)).setRec 0 none).tick.updThr 0 (fun th => { th with takeOut := false })).takeOk 0 ⟨0x4000, 3, some 40⟩ = false ∧ (takes none).takeOf 0 = some ⟨0x4000, 3, none⟩ := by decide +kernel
theorem witness_RouterCommands_times : (let s := (atMt 5000).updRtr (fun r => { r with express := [⟨⟨true, 0x083, 0⟩, 4000, false, 17, 831, 0⟩] }); s.rtr.express[0]? = some ⟨⟨true, 0x083, 0⟩, 4000, false, 17, 831, 0⟩ ∧ 4000 + 1000 ≤ s.time.mt) ∧
    (atMt 1000).memx.qosWin ≠ (atMt 1000).time.mt / 1000 := by decide +kernel
/-- Slot 0 holds tenant 3 at a step of its reset. -/
def resetting (step : Nat) (done : Bool) : State := { (atMt 300000).setReg (a_QOS_TRST_SLOT 0) (BitVec.ofNat 64 (3 + 2 ^ 16 + done.toNat * 2 ^ 17 + step * 2 ^ 19)) with rtr := { State.reset.rtr with trst := smSet (fun _ => none) [] 0 (some ⟨2, 1000, 1, false⟩) } }
theorem witness_RouterCommands_reset : (∀ x ∈ ([(0x0305, 0xFFFF, [3 + 2 * 65536]), (0x0306, 0xFFFF, [3])] : List (Nat × Nat × List Word)), Handed (given (cmd x.1 x.2.1 x.2.2)) 0 x.1 (cmd x.1 x.2.1 x.2.2)) ∧
    (State.reset.slotOfVmid 3 = none ∧ (List.range 8).find? (fun i => !bit (State.reset.slotReg i) 16) = some 0) ∧
    ((resetting 7 false).slotOfVmid 3 = some 0 ∧ (resetting 7 false).trstGoing 0 = true ∧ (resetting 7 false).trstStep 0 = 7 ∧ (resetting 7 false).trstOf 0 = some ⟨2, 1000, 1, false⟩) ∧
    ((resetting 7 true).slotOfVmid 3 = some 0 ∧ (resetting 7 true).trstGoing 0 = false) ∧ (1000 + 200000 ≤ (resetting 2 false).time.mt ∧ bit ((resetting 2 false).slotReg 0) 18 = false ∧ (resetting 2 false).trstGoing 0 = true) :=
  ⟨handed_all (by decide +kernel), by decide +kernel, by decide +kernel, by decide +kernel, by decide +kernel⟩

/-! ### Witnesses: the Lock-Keeper and the Barge engines -/

/-- The Lock-Keeper in state k at MT mt, with MT_REFCLK present. -/
def lk (k mt : Nat) : State := ({ atMt mt with time := ⟨mt, mt / 10, mt, 0, mt, 0⟩ } : State).wf a_LKP_STATUS f_LKP_STATUS_STATE k
theorem witness_LockKeeperCommands_epoch : (lk 1 5000).refOk = true ∧ (lk 1 5000).lkpState = 1 ∧
    (let s := (lk 1 5000).updLkp (fun x => { x with frames := [(0, 5000, true)] }); (s.lkp.frames.filter (fun f => decide (s.time.refCycles ≤ f.1 + 100000))).filter (fun f => f.2.2) = [(0, 5000, true)] ∧ s.lkp.good = none ∧ 5000 = s.time.edge) ∧
    (let s := (lk 1 1000000).updLkp (fun x => { x with seen := true, frames := [(0, 1000000, true)], good := some (0, 0) }); s.lkp.frames.filter (fun f => f.2.2) = [(0, 1000000, true)] ∧ s.time.refCycles = 0 + 100000 ∧ 1000000 = 0 + 1000000) ∧
    ((lk 1 5000).lkp.frames.filter (fun f => f.2.2)).length ≠ 1 ∧ (lk 2 5000).lkp.goodRun = 0 ∧ (lk 2 5000).lkpState ≠ 1 ∧ 1 ≤ ((lk 2 5000).updLkp (fun x => { x with goodRun := 1 })).lkp.goodRun ∧
    (let s := (lk 1 5000).updLkp (fun x => { x with expect := some 99 }); s.lkp.expect = some 99 ∧ 99 < s.time.refCycles) := by decide +kernel
/-- MT_REFCLK is lost. -/
def lost (k : Nat) : State := (lk k 5000).wf a_LKP_STATUS f_LKP_STATUS_REF_OK 0
theorem witness_LockKeeperCommands_time : (lk 0 5000).lkpState = 0 ∧ (lk 2 5000).lkpState ≠ 0 ∧ (lost 2).refOk = false ∧
    (let s := (lk 2 100000000000).wf a_LKP_CTL f_LKP_CTL_PTP_EN 1; s.rf a_LKP_CTL f_LKP_CTL_PTP_EN = 1 ∧ s.lkpState = 2 ∧ s.lkp.entered + s.rf a_LKP_CTL f_LKP_CTL_PTP_WAIT * 1000000 ≤ s.time.ticks) ∧
    (lk 3 5000).lkpState = 3 ∧ (lk 3 5000).lkp.ptpSet = false ∧ ((lk 3 5000).updLkp (fun x => { x with ptpSet := true })).lkp.ptpSet = true ∧ (lk 1 5000).lkp.ahead = 0 := by decide +kernel
/-- Berth b is armed with ACTION a, TARGET t and F, and a passage of it may have been presented, at MT mt. -/
def armed (b a t f mt : Nat) (ps : List Passage) : State := ((((lk 1 mt).setReg (a_LKP_BERTH_CFG b) (BitVec.ofNat 64 (1 + a * 2))).setReg (a_LKP_BERTH_TARGET b) (BitVec.ofNat 64 t)).setReg (a_LKP_BERTH_FIRE b) (BitVec.ofNat 64 f)).updLkp (fun x => { x with passages := ps })
theorem witness_LockKeeperCommands_present : ∀ a ∈ [0, 1, 2], let s := armed 63 a 5 7000 5000 []; s.berthArmed 63 = true ∧ s.mtRuns = true ∧ s.berthF 63 ≤ s.time.mt + 2000 ∧ s.passageOf 63 = none ∧ s.windowOver (s.berthF 63) (s.berthTol 63) = false ∧ s.berthAction 63 = a := by decide +kernel
/-- A passage of berth 63 for MT 4990. -/
def psg (a : Nat) : Passage := ⟨some 63, 4990, a, 5, none⟩
/-- The copies of MT are near it. -/
theorem mtAt_near (s : State) (k : Nat) : s.time.mt ≤ s.mtAt k + 2 ∧ s.mtAt k ≤ s.time.mt + 2 := by unfold State.mtAt; split <;> omega
/-- Berth 63, its TOL 100, with its passage presented, at MT 5000. -/
def due (a : Nat) : State := (armed 63 a 5 4990 5000 [psg a]).wf (a_LKP_BERTH_CFG 63) f_LKP_BERTH_CFG_TOL 100
theorem witness_LockKeeperCommands_occur : ∀ a ∈ [0, 1, 2], (due a).passageOf 63 = some (psg a) ∧ (due a).mtRuns = true ∧ (due a).brgOn 5 = true ∧
    (∀ q ∈ (due a).lkp.passages, q.action = 1 → q.target = 5 → q.f = 4990 → 63 ≤ q.berth.getD 64) ∧ (due a).lkp.lastSnap = none ∧ (psg a).f ≤ (due a).time.mt ∧ (due a).windowOver (psg a).f ((due a).berthTol 63) = false ∧
    (a = 2 → (due a).lkp.passages.find? (fun p => p.berth == some 63 && p.action == 2 && !(due a).lkp.passages.any (fun q => q.action == 2 && decide (q.f < p.f))) = some (psg a)) := by decide +kernel
theorem witness_LockKeeperCommands_dest : ((psg 0).f ≤ (due 0).destMt (psg 0) ∧ (due 0).passOver (psg 0) 63 = false) ∧ (psg 1).f ≤ (due 1).destMt (psg 1) ∧ (due 1).passOver (psg 1) 63 = false := by
  refine ⟨by decide +kernel, ?_⟩
  have h : (due 1).time.mt = 5000 := by decide +kernel
  have ht : (due 1).berthTol 63 = 100 := by decide +kernel
  have hn := mtAt_near (due 1) (768 + 5 / 8)
  have hd : (due 1).destMt (psg 1) = (due 1).mtAt (768 + 5 / 8) := rfl
  rw [h] at hn
  have hf : (psg 1).f = 4990 := rfl
  refine ⟨by omega, ?_⟩
  show decide ((psg 1).f + (due 1).berthTol 63 < (due 1).destMt (psg 1)) = false
  exact decide_eq_false (by omega)
theorem witness_LockKeeperCommands_snap : (let s := armed 63 2 0 5000 5000 [⟨none, 5000, 2, 0, none⟩]; s.lkp.passages.find? (fun p => p.berth == none && p.action == 2 && !s.lkp.passages.any (fun q => q.action == 2 && decide (q.f < p.f))) = some ⟨none, 5000, 2, 0, none⟩ ∧ s.mtRuns = true ∧ 5000 ≤ s.time.mt ∧ s.lkp.lastSnap = none) ∧
    ((lk 1 5000).updLkp (fun x => { x with lastSnap := some 1000 })).lkp.lastSnap = some 1000 ∧ 1000 + 4000 ≤ 5000 ∧ ((lk 1 5000).updLkp (fun x => { x with snapDue := some 4000 })).lkp.snapDue = some 4000 := by decide +kernel
theorem witness_LockKeeperCommands_pins : (∀ a ∈ [3, 4], let s := armed 63 a 787 5000 5000 []; s.berthArmed 63 = true ∧ s.mtRuns = true ∧ s.berthF 63 ≤ s.time.mt ∧ s.windowOver (s.berthF 63) (s.berthTol 63) = false ∧ s.berthAction 63 = a) ∧
    (domAbsent (armed 63 4 787 5000 5000 []).variant (787 % 4096) = false) ∧ (armed 63 3 0 5000 5000 []).berthPeriod 63 = 0 ∧ ((armed 63 3 0 5000 5000 []).setReg (a_LKP_BERTH_PERIOD 63) 1000).berthPeriod 63 = 1000 ∧ 63 ∉ (armed 63 3 0 5000 5000 []).lkp.disarm := by decide +kernel
theorem witness_LockKeeperCommands_vote : ∀ k, k < 64 → 63 < k → (armed 63 4 787 5000 5000 []).berthAction k ≠ 4 := fun k h1 h2 => by omega
theorem witness_LockKeeperCommands_sync : (lk 1 5000).lkp.syncSample = false ∧ (lk 1 5000).lkp.gateWas = false ∧ ((lk 1 5000).updLkp (fun x => { x with gateWas := true })).lkp.gateWas = true ∧ (lk 1 5000).rf a_LKP_SYNC_CTL f_LKP_SYNC_CTL_ARMED ≠ 1 ∧ ((lk 1 5000).wf a_LKP_SYNC_CTL f_LKP_SYNC_CTL_ARMED 1).rf a_LKP_SYNC_CTL f_LKP_SYNC_CTL_ARMED = 1 ∧
    ((lk 1 5000).updLkp (fun x => { x with syncSample := true })).lkp.syncSample = true ∧
    (let s := ((lk 1 5000).wf a_LKP_SYNC_CTL f_LKP_SYNC_CTL_ARMED 1).wf a_LKP_SYNC_CTL f_LKP_SYNC_CTL_TIMEOUT 5; let t := s.rf a_LKP_SYNC_CTL f_LKP_SYNC_CTL_TIMEOUT;
      s.rf a_LKP_SYNC_CTL f_LKP_SYNC_CTL_ARMED = 1 ∧ t ≠ 0 ∧ s.lkp.syncTold = false ∧ s.lkp.armMt + t * 1000 ≤ s.time.mt) := by decide +kernel
/-- Command c, with berth 63 allocated to the Normal world's tenant 0, every ACTION allowed, and quota entry 2 of tenant 9. -/
def berthGiven (c : GalCmd) : State := ((given c).setReg (a_LKP_BERTH_OWNER 63) (BitVec.ofNat 64 (2 ^ 17 + 31 * 2 ^ 18))).setReg (a_LKP_QUOTA 2) (BitVec.ofNat 64 (9 + 2 ^ 31))
theorem witness_LockKeeperCommands_rings : ∀ x ∈ ([(1, 0x0401, [9 + 64 * 65536]), (1, 0x0402, [31 * 65536]), (1, 0x0403, [63]), (0, 0x0404, [63 + 0x800, 900, 0, 5]), (1, 0x0404, [63 + 0xB00, 5000, 1000, 0x0100]), (1, 0x0405, [63]), (1, 0x0406, [63]),
      (0, 0x0410, []), (0, 0x0411, [1]), (1, 0x0420, [1])] : List (Nat × Nat × List Word)),
    let c : GalCmd := { cmd x.2.1 0xFFFF x.2.2 with ring := x.1 }; Handed (berthGiven c) x.1 x.2.1 c ∧ (c.ring = 0 ∨ (berthGiven c).berthSec 63 = false) ∧ (berthGiven c).berthAlloc 63 = true := by
  have h : ∀ x ∈ ([(1, 0x0401, [9 + 64 * 65536]), (1, 0x0402, [31 * 65536]), (1, 0x0403, [63]), (0, 0x0404, [63 + 0x800, 900, 0, 5]), (1, 0x0404, [63 + 0xB00, 5000, 1000, 0x0100]), (1, 0x0405, [63]), (1, 0x0406, [63]),
      (0, 0x0410, []), (0, 0x0411, [1]), (1, 0x0420, [1])] : List (Nat × Nat × List Word)),
    let c : GalCmd := { cmd x.2.1 0xFFFF x.2.2 with ring := x.1 }; handed (berthGiven c) x.1 x.2.1 c = true ∧ (c.ring = 0 ∨ (berthGiven c).berthSec 63 = false) ∧ (berthGiven c).berthAlloc 63 = true := by decide +kernel
  exact fun x hx => ⟨handed_of (h x hx).1, (h x hx).2⟩
/-- Arm berth 63 with ACTION a and TARGET t for F, period p. -/
def armCmd (a f p t : Nat) : GalCmd := { cmd 0x0404 0xFFFF [BitVec.ofNat 64 (63 + 0x800 + a * 256), BitVec.ofNat 64 f, BitVec.ofNat 64 p, BitVec.ofNat 64 t] with ring := 1 }
/-- What BERTH_ARM leaves before it looks at the clock. -/
def armState (s : State) (c : GalCmd) : State := (((((s.withdraw 63).updLkp (fun x => { x with disarm := x.disarm.filter (fun k => k != 63) })).setReg (a_LKP_BERTH_FIRE 63) (c.word 2)).setReg (a_LKP_BERTH_PERIOD 63) (BitVec.ofNat 64 (c.par 3 0 48))).setReg
  (a_LKP_BERTH_TARGET 63) (BitVec.ofNat 64 (c.par 4 0 16))).setReg (a_LKP_BERTH_CFG 63) (BitVec.ofNat 64 (1 + c.par 1 8 3 * 2 + c.par 1 16 16 * 2 ^ 16))
theorem witness_LockKeeperCommands_arm : (∀ c ∈ [armCmd 3 5000 1000 0x0100, armCmd 0 5000 0 63], let s := berthGiven c;
      c.par 1 0 6 = 63 ∧ bit (c.word 1) 11 = true ∧ s.actionOk 63 (c.par 1 8 3) = true ∧ targetOk (c.par 1 8 3) (c.par 4 0 16) = true ∧ s.rf (a_LKP_BERTH_OWNER 63) f_LKP_BERTH_OWNER_FIXED = 0 ∧ (c.par 3 0 48 = 0 ∨ 1000 ≤ c.par 3 0 48) ∧ (armState s c).armedLate 63 = false) ∧
    (let c := armCmd 3 900 1000 0x0100; let s := (berthGiven c).wf a_LKP_STATUS f_LKP_STATUS_STATE 1; (armState s c).armedLate 63 = true ∧ handed s 1 0x0404 c = true) ∧
    (let c : GalCmd := { cmd 0x0402 0xFFFF [31 * 65536] with ring := 1 }; let s := berthGiven c; c.par 1 0 16 = 0 ∧ bit (c.word 1) 21 = false ∧ (List.range 64).find? (fun b => !s.berthAlloc b && s.berthSecRange b == (c.ring == 0)) = some 0) ∧
    (let c := cmd 0x0401 0xFFFF [9 + 64 * 65536]; let s := berthGiven c; c.par 1 0 16 = 9 ∧ c.par 1 16 7 = 64 ∧ (List.range 64).find? (fun i => bit (s.reg (a_LKP_QUOTA i)) 31 && fld (s.reg (a_LKP_QUOTA i)) 0 16 == c.par 1 0 16) = some 2) := by decide +kernel

/-- A FILL of 64 bytes, an acknowledged one, and a COPY whose destination is not aligned, as manifests in the queue. -/
def man (w0 : Nat) (code : Nat) : Man := ⟨0, 0x4000, 15, [BitVec.ofNat 64 w0, 0x4000, 0x4000, 64, 0, 0, 0], false, false, 0, code, 0, false⟩
/-- Channel 127 in state k with the manifests ms, HEAD 0 and TAIL t, its stream translating nothing and its ring at 0x4000. -/
def chan (k t : Nat) (ms : List Man) : State :=
  let s := (((({ devOn (brgStream 127) with time := (atMt 100000).time } : State).wf (brgStat 127) f_BRG_CH_STAT_STATE k).wf (a_BRG_CH_TAIL 15 7) f_BRG_CH_TAIL_TAIL t).wf (a_BRG_CH_BASE 15 7) f_BRG_CH_BASE_BASE 4).wf (a_BRG_CH_LIMIT 15 7) f_BRG_CH_LIMIT_LIMIT 15
  { s with brgs := { s.brgs with ch := smSet (fun _ => BrgCh.reset) [] 127 ⟨ms, none, 0⟩ } }
/-- Its shadow registers are armed. -/
def armedCh (k t : Nat) (ms : List Man) : State := (chan k t ms).wf (a_BRG_CH_SHADOW 15 7) f_BRG_CH_SHADOW_ARM 1
theorem witness_BargeCommands_take : ((chan 1 3 []).brgArmed 127 = false ∧ (chan 1 3 []).brgMayTake 127 = true ∧ (chan 1 3 []).brgServes 127 = true) ∧
    (let s := armedCh 1 3 []; s.brgState 127 = 1 ∧ s.brgOn 127 = true ∧ s.brgArmed 127 = true ∧ (s.brg 127).mans.length < 4) ∧
    Untranslated (brgStream 127) ctx3 (chan 1 3 []) ∧ DevPlain ctx3 ((chan 1 3 []).rf (a_BRG_CH_BASE 15 7) f_BRG_CH_BASE_BASE * 4096 + 64 * (chan 1 3 []).brgHead 127) 64 (chan 1 3 []) ∧ ((chan 1 3 []).readBytes 0x4000 64).2 = false :=
  ⟨by decide +kernel, by decide +kernel, untranslated_of (by decide +kernel), devPlain_of (by decide +kernel), by decide +kernel⟩
theorem witness_BargeCommands_start : (let s := chan 1 0 [man 1 0]; s.brgNextStart 127 = some (0, man 1 0) ∧ s.brgMayStart 127 0 (man 1 0) = true ∧ s.brgServes 127 = true) ∧
    (let s := chan 1 0 [man 1 0x10]; (s.brg 127).mans = [man 1 0x10] ∧ s.brgState 127 ≠ 4 ∧ s.brgOn 127 = true ∧ s.brgServes 127 = true) ∧
    (let m := { man 1 0 with started := true, moved := true }; let s := chan 1 0 [m]; (s.brg 127).mans = [m] ∧ s.brgServes 127 = true ∧ m.code < 0x10 ∧ (if m.moved then (s.tick.brgServed 127, some m) else (s.tick.brgServed 127).brgMove 127 m none) = (s.tick.brgServed 127, some m)) ∧
    (∀ o ∈ (chan 1 0 []).port.out, o.kind ≠ 2 ∧ o.kind ≠ 6) ∧ (∀ w ∈ (chan 1 0 []).port.waits, w.2.1 ≠ 6) := by decide +kernel
theorem witness_BargeCommands_held : (let takes := fun (s : State) => ((s.brgServed 127).brgTake 127).brgDep (127 / 8);
      (chan 1 3 []).tick.holds takes = [] ∧ (let s1 := (armedCh 1 3 []).tick.brgHandOver 127; s1.brgMayTake 127 = false) ∧
      (let s := ((armedCh 1 3 []).setReg (a_BRG_CH_SBASE 15 7) ((armedCh 1 3 []).reg (a_BRG_CH_BASE 15 7))).setReg (a_BRG_CH_SLIMIT 15 7) ((armedCh 1 3 []).reg (a_BRG_CH_LIMIT 15 7)); let s1 := s.tick.brgHandOver 127;
        s.brgArmed 127 = true ∧ s1.brgMayTake 127 = true ∧ s1.brgServes 127 = true ∧ s1.holds takes = [])) ∧
    (let m := { man 1 0 with started := true }; (chan 1 0 [m]).tick.holds (fun s => s.brgEndRun 127 m) = []) := by decide +kernel
theorem witness_BargeCommands_late : ((chan 1 0 [{ man 1 0 with w := [1, 0, 0, 64, 0, 0, 5000] }]).time.mt = 100000) ∧ ∀ k, (5000 : Nat) ≤ (chan 1 0 [{ man 1 0 with w := [1, 0, 0, 64, 0, 0, 5000] }]).mtAt k := by
  have h : (chan 1 0 [{ man 1 0 with w := [1, 0, 0, 64, 0, 0, 5000] }]).time.mt = 100000 := by decide +kernel
  exact ⟨h, fun k => by have := mtAt_near (chan 1 0 [{ man 1 0 with w := [1, 0, 0, 64, 0, 0, 5000] }]) k; omega⟩
theorem witness_BargeCommands_line : Untranslated (brgStream 127) ctx3 (chan 1 0 []) ∧ DevPlain ctx3 0x4000 64 (chan 1 0 []) ∧ DevPlain ctx3 ((man 1 0).base + 64 * (man 1 0).index + 56) 8 (chan 1 0 []) := ⟨untranslated_of (by decide +kernel), devPlain_of (by decide +kernel), devPlain_of (by decide +kernel)⟩
/-- Channel 127 changed. -/
def chanDo (f : BrgCh → BrgCh) : State := (chan 1 0 []).updBrg 127 f
theorem witness_BargeCommands_rest : ((chanDo (fun x => { x with acks := 1 })).brg 127).acks ≠ 0 ∧ (let m := { man 1 0 with w := [1, 0, 0, 64, 0, 0, 5000] }; let s := chan 1 0 [m]; (s.brg 127).mans = [m] ∧ m.late = false ∧ m.word 6 ≠ 0 ∧ (m.word 6).toNat ≤ s.time.mt) ∧
    (let s := chanDo (fun x => { x with stop := some ⟨true, 100, false⟩ }); (s.brg 127).stop = some ⟨true, 100, false⟩ ∧ s.brgReading 127 = false ∧ 100 + 64000 ≤ s.time.mt) ∧
    (∀ k ∈ [0, 3, 5], (armedCh k 0 []).brgState 127 = k ∧ (armedCh k 0 []).brgArmed 127 = true) ∧ (∀ k ∈ [0, 1, 2, 3, 4, 5], (chan k 0 []).brgState 127 = k) ∧
    (let s := chan 0 0 []; let s := { s with brgs := { s.brgs with idle := smSet (fun _ => none) [] 15 (some 0) } }; s.brgBusy 15 = false ∧ smGet (fun _ => none) s.brgs.idle 15 = some 0 ∧ 0 + 100000 ≤ s.time.mt) := by decide +kernel

/-! ### Witnesses: ports, the Tollhouse and the debug port -/

/-- Port p's link 0 is up, at rate 5 and 16 lanes, and device k's stream translates nothing. -/
def up (p k : Nat) : State := (devOn k).setReg (linkStat p 0) (BitVec.ofNat 64 (1 + 5 * 2 ^ 4 + 16 * 2 ^ 8))
theorem witness_PortCommands_in : (let s := up 0 0x107; (0 < 8 ∨ (0 = 8 ∧ s.wharfEp = false)) ∧ s.portUp 0 = true ∧ 65536 * 0 + 0x107 % 65536 = 0x107 ∧ Untranslated 0x107 ctx3 (s.tick.received 0 2) ∧ DevPlain ctx3 0x4000 2 (s.tick.received 0 2) ∧
      Untranslated 0x107 ctx3 (s.tick.received 0 0) ∧ DevPlain ctx3 0x4038 8 (s.tick.received 0 0) ∧ Untranslated 0x107 ctx3 (s.tick.received 0 8) ∧ DevPlain ctx3 0x4038 8 (s.tick.received 0 8)) ∧
    atomicOk (.fetchAdd 8 1) = true ∧ atomicOk (.fetchAdd 2 1) = false ∧ (devAtom (.fetchAdd 8 1)).isSome ∧ (devAtom (.fetchAdd 2 1)).isSome ∧ (up 8 0x80107).portUp 8 = true ∧ (up 8 0x80107).wharfEp = false :=
  ⟨⟨by decide, by decide +kernel, by decide, untranslated_of (by decide +kernel), devPlain_of (by decide +kernel), untranslated_of (by decide +kernel), devPlain_of (by decide +kernel), untranslated_of (by decide +kernel), devPlain_of (by decide +kernel)⟩,
    by decide, by decide, by decide, by decide, by decide +kernel, by decide +kernel⟩
theorem witness_PortCommands_atomic : let s := (up 0 0x107).tick.received 0 8; let s1 := (s.noteTry (.read (0x4000 / 64))).countCur 224 (0x4000 / 64) (s.reqCls 0x107 ctx3) (devRqr 0x107 ctx3);
    (s.readBytes 0x4000 8).2 = false ∧ s1.isMem (64 * (0x4000 / 64)) = true ∧ s1.lineSec (0x4000 / 64) = false ∧ s1.isMem 0x4000 = true := by decide +kernel
theorem witness_PortCommands_free : (up 0 0x107).inLlc (0x4000 / 64) ∧ (up 0 0x107).tick.holds (inRun 0 0x107 0x4000 (.read 8) false false 0) = [] := by unfold State.inLlc; decide +kernel
/-- The Wharf presents its endpoint functions: PF0 enabled by the host, VFs 0 to 3 enabled, VF 3 with Bus Master Enable. -/
def ep : State := (((((up 8 0x80107).wf a_WHF_ROLE f_WHF_ROLE_ROLE 1).wf a_WHF_ROLE f_WHF_ROLE_NUMVFS 4).wf (a_WHF_VF_CTL 3) f_WHF_VF_CTL_ENABLED 1).wf (a_WHF_VF_CTL 3) f_WHF_VF_CTL_BME 1).updPort (fun x => { x with pf0En := true })
theorem witness_PortCommands_ep : ep.wharfEp = true ∧ ep.portUp 8 = true ∧ ep.fnActive 17 = false ∧ ep.fnActive 0 = true ∧ ep.fnActive 1 = true ∧ ep.fnActive 5 = true ∧ 0x1000 < 2 ^ fld (BitVec.ofNat 64 ep.boot.cfg1) 48 6 ∧ ep.pwOf 0x1000 = none ∧
    (((ep.wf (a_WHF_PW_CFG 7) f_WHF_PW_CFG_EN 1).wf (a_WHF_PW_CFG 7) f_WHF_PW_CFG_SIZE 1).pwOf 0x1000 = some 7) ∧ ep.port.perst = true ∧ ep.fnBme 5 = true ∧ ep.fnBme 17 = false ∧
    ((ep.updPort (fun x => { x with pf0Bme := true })).fnBme 0 = true) ∧ ((ep.wf (a_WHF_VF_CTL 15) f_WHF_VF_CTL_BME 1).fnBme 17 = false) ∧ ep.rf a_WHF_ROLE f_WHF_ROLE_NUMVFS < 16 ∧ 3 < ep.rf a_WHF_ROLE f_WHF_ROLE_NUMVFS ∧ ep.fnStopping 0 = false ∧
    (∀ x ∈ ep.port.stops, x.fn ≠ 17) := by decide +kernel
/-- A request of kind k is out on port 0's link 0 with tag 767, since MT 0. -/
def asks (k : Nat) : State := ({ up 0 0x107 with time := (atMt 100000000000).time } : State).updPort (fun x => { x with out := [⟨0, 0, 767, k, 5, 0x000E000000000000, 8, 0, 0, none⟩] })
theorem witness_PortCommands_out : ∀ k ∈ [0, 1, 2, 3, 4, 5, 6], let s := asks k; let o : OutReq := ⟨0, 0, 767, k, 5, 0x000E000000000000, 8, 0, 0, none⟩
    s.linkUp 0 0 = true ∧ s.port.out.find? (fun o => o.port == 0 && o.link == 0 && o.tag == 767 && o.res.isNone) = some o ∧ o.kind = k ∧
    s.overdue o = true ∧ (s.updPort id).port.out = [o] ∧
    s.port.out.find? (fun o => o.port == 0 && o.link == 0 && o.tag == 767 && o.res.isNone && decide (o.issued + s.cplTimeout 0 ≤ s.time.mt)) = some o := by decide +kernel
/-- It has just been sent. -/
def asksNow (k : Nat) : State := { asks k with time := State.reset.time }
theorem witness_PortCommands_inTime : ∀ k ∈ [0, 1, 2, 3, 4, 5, 6], let s := asksNow k; let o : OutReq := ⟨0, 0, 767, k, 5, 0x000E000000000000, 8, 0, 0, none⟩
    s.linkUp 0 0 = true ∧ s.port.out.find? (fun o => o.port == 0 && o.link == 0 && o.tag == 767 && o.res.isNone) = some o ∧ o.kind = k ∧ s.overdue o = false ∧ (o.cxl = true ↔ k = 3 ∨ k = 5) ∧ o.owner ≠ noOwner := by decide +kernel
theorem witness_PortCommands_dpc : (let s := (up 0 0x107).setReg (linkStat 0 0) 0; let x : LinkLoss := ⟨0, 7, 3, 2⟩; let s := s.updPort (fun y => { y with loss := [x] });
      s.linkUp 0 0 = false ∧ s.port.loss.find? (fun x => x.link == 4 * 0 + 0 && x.cause == 3) = some x) ∧
    (let s := (ep.wf (a_WHF_PW_CFG 7) f_WHF_PW_CFG_EN 1).wf (a_WHF_PW_CFG 7) f_WHF_PW_CFG_SIZE 1; s.tick.holds (fun s0 => let r := s0.peerAccess 0x1000 (.read 8) false false; r.1.complete 0x80001 0x1000 r.2) = []) ∧
    ep.tick.holds (inRun 8 0 0x1000 (.write [1#8]) false false 1) = [] := by decide +kernel
theorem witness_PortCommands_links : (let s := (up 0 0x107).updPort (fun x => { x with quar := [(0, 767, 5)] }); s.linkUp 0 0 = true ∧ s.port.out.find? (fun o => o.port == 0 && o.link == 0 && o.tag == 767 && o.res.isNone) = none ∧ s.port.quar.any (fun q => q.1 == 4 * 0 + 0 && q.2.1 == 767) = true) ∧
    (let s := State.reset; s.portOn 8 = true ∧ s.linkExists 8 0 = true ∧ s.linkUp 8 0 = false ∧ bit (s.reg (linkStat 8 0)) 2 = false ∧ 1 ≤ fld (s.reg (portBase 8)) 4 3 ∧ 16 ≤ s.linkLanes 8 0) ∧
    (let s := { ep with time := (atMt 2000000).time }.updPort (fun x => { x with stops := [⟨5, 1, 100, false⟩] }); s.port.stops.find? (fun x => x.fn == 5) = some ⟨5, 1, 100, false⟩ ∧
      s.port.stops.find? (fun x => x.fn == 5 && !x.told && decide (x.start + 1000000 ≤ s.time.mt)) = some ⟨5, 1, 100, false⟩) := by decide +kernel

/-- A secure region of 2 MiB at 0x200000, and a mailbox operation at work. -/
def mailbox (op : Nat) (args : List Nat) : State := (((State.reset.wf (a_TOL_SMR 0) f_TOL_SMR_EN 1).wf (a_TOL_SMR 0) f_TOL_SMR_BASE 1).wf (a_TOL_SMR 0) f_TOL_SMR_SIZE 1).updTol (fun x => { x with mbx := some ⟨op, args⟩ })
theorem witness_TollhouseCommands_mailbox : (mailbox 2 [0x200000, 3, 0x3FFFD0]).tol.mbx = some ⟨2, [0x200000, 3, 0x3FFFD0]⟩ ∧
    (let s := mailbox 1 []; s.bufOk 0x200000 4627 = true ∧ s.bufOk 0x3FFFD0 48 = true ∧ s.bufOk 0x3FFFD1 48 = false ∧ s.bufOk 0x200000 48 = true ∧ s.bufOk 0x200100 96 = true ∧ s.bufOk 0x300000 2592 = true ∧ s.bufOk 0x200000 27 = true ∧ s.bufOk 0x200000 (27 - 28) = true) := by decide +kernel
/-- The Tollhouse's ring commands with operands that pass, and one that does not. -/
theorem witness_TollhouseCommands_rings : ∀ x ∈ ([(0x0901, 0xFFFF, []), (0x0902, 0xFFFF, [3312]), (0x0903, 0xFFFF, []), (0x0904, 0xFFFF, [15]), (0x0905, 0xFFFF, [8160]), (0x0906, 0xFFFF, [4, 5000]), (0x0906, 0xFFFF, [4, 1000])] : List (Nat × Nat × List Word)),
    Handed (given (cmd x.1 x.2.1 x.2.2)) 0 x.1 (cmd x.1 x.2.1 x.2.2) := handed_all (by decide +kernel)
/-- A token of 8 bytes stored for ring 0 whose enables' length word is 20. -/
def tokened (c : GalCmd) : State := (given c).updTol (fun x => { x with tokens := putBytes [] 0 [1, 0, 5, 0, 20, 0, 0, 0] })
theorem witness_TollhouseCommands_token : (let c := cmd 0x0902 0xFFFF [20]; leVal (((tokened c).tokenBytes 0 8).drop 4) = c.par 1 0 16 ∧ (tokened c).tokenOk 0 ((tokened c).tokenBytes 0 (c.par 1 0 16)) none = false) ∧
    (let c := cmd 0x0902 0xFFFF [3312]; leVal (((given c).tokenBytes 0 8).drop 4) ≠ c.par 1 0 16) ∧ (let c := cmd 0x0905 0xFFFF [8160]; c.par 1 0 16 % 48 = 0 ∧ c.par 1 0 16 < 8192) ∧
    (let c := cmd 0x0906 0xFFFF [4, 5000]; (given c).time.mt < (c.word 2).toNat) ∧ (let c := cmd 0x0906 0xFFFF [4, 1000]; (c.word 2).toNat ≤ (given c).time.mt) := by decide +kernel
theorem witness_TollhouseCommands_lock : (let c := { cmd 0x0904 0xFFFF [4] with ring := 1 }; Handed (given c) 1 0x0904 c ∧ c.par 1 0 4 % 4 = 0) ∧ (let c := { cmd 0x0904 0xFFFF [1] with ring := 1 }; Handed (given c) 1 0x0904 c ∧ c.par 1 0 4 % 4 ≠ 0) ∧
    ((given (cmd 0x0903 0xFFFF [])).wf a_TOL_DBG_STAT f_TOL_DBG_STAT_ENABLED 5).dbgMask = 5 ∧ State.reset.dbgMask = 0 := ⟨⟨handed_of (by decide +kernel), by decide⟩, ⟨handed_of (by decide +kernel), by decide⟩, by decide +kernel, by decide +kernel⟩
/-- Every debug enable is on, and DEBUG_ADDR holds a space and an address or a thread and a number. -/
def debugs (space thr num : Nat) : State := (State.reset.wf a_TOL_DBG_STAT f_TOL_DBG_STAT_ENABLED 15).updJtag (fun j => { j with addr := BitVec.ofNat 64 (num + thr * 2 ^ 48 + space * 2 ^ 60) })
theorem witness_TollhouseCommands_debug : (debugs 0 0 0).debugOn = true ∧ State.reset.debugOn = false ∧
    (let s := debugs 0 0 0x4000; s.jtag.space = 0 ∧ s.jtag.at % 2 ^ 3 = 0 ∧ s.isMem s.jtag.at = true ∧ s.dbgMay s.dbgSec false = true ∧ s.dbgMay s.dbgSec true = true ∧ (s.readBytes s.jtag.at 8).2 = false) ∧
    (let s := (debugs 2 831 0x003).wf a_TOL_DBG_STAT f_TOL_DBG_STAT_ENABLED 8; s.debugOn = true ∧ s.jtag.space < 4 ∧ s.dbgMay s.dbgSec false = false ∧ s.dbgMay s.dbgSec true = false) ∧
    (let s := debugs 2 831 0x003; s.jtag.thread = 831 ∧ 831 < s.nThreads ∧ s.domState (s.stopOf 831) = 2 ∧ s.jtag.space = 2 ∧ s.dbgMay s.dbgSec false = true ∧ s.dbgMay s.dbgSec true = true ∧ (sysReadLvl s.jtag.num).isSome = true) ∧
    (let s := debugs 3 831 31; s.jtag.space = 3 ∧ s.jtag.num = 31 ∧ (s.dbgEnabled 0 = true ∨ s.dbgEnabled 2 = true)) ∧ (sysWriteLvl 0xC00).isSome = true ∧ (debugs 2 831 0xC00).jtag.num = 0xC00 := by decide +kernel
theorem witness_TollhouseCommands_halt : (let s := (debugs 3 831 0).updThr 831 (fun th => { th with halted := true }); (s.thr 831).halted = true ∧ (s.thr 831).waiting = false) ∧ State.reset.boot.held = false ∧ State.reset.dbgEnabled 2 = false ∧ (debugs 0 0 0).dbgEnabled 2 = true := by decide +kernel
/-- The watchdog runs with TIMEOUT ms, WARN_INTID id, after ms of its time. -/
def wdog (timeout id ms : Nat) : State := { ((State.reset.setReg a_TOL_WDOG_CTL 1).wf a_TOL_WDOG_CTL f_TOL_WDOG_CTL_TIMEOUT timeout).wf a_TOL_WDOG_CTL f_TOL_WDOG_CTL_WARN_INTID id with time := ⟨0, ms * 100000, ms * 1000000, 0, 0, 0⟩ }
theorem witness_TollhouseCommands_wdog : (let s := wdog 800 200 700; s.wdogOn = true ∧ s.tol.warned = false ∧ s.wdogTimeout - max 1 (s.wdogTimeout / 8) ≤ s.wdogMs ∧ 192 ≤ s.rf a_TOL_WDOG_CTL f_TOL_WDOG_CTL_WARN_INTID) ∧
    (let s := wdog 1 0 1; s.wdogOn = true ∧ s.rf a_TOL_WDOG_CTL f_TOL_WDOG_CTL_WARN_INTID < 192 ∧ s.wdogTimeout ≤ s.wdogMs ∧ s.ev.fatalAt = none) := by decide +kernel

/-! ### Witnesses: faults, the Lengthsman's inputs, boot and reset, encodings -/

/-- An error of kind k in way 3 of core 0's L2 where line 256 lies, or of slice 26's LLC block. -/
def errAt (k level way : Nat) : RasErr := ⟨k, if level < 3 then 0 else 26, level, way, if level < 3 then 256 else 0, 0, 0, 5⟩
theorem witness_RasBootCommands_ras : ((({ State.reset with coh := dirty256 } : State).slotOfErr (errAt 0 3 3)) = some (256, true)) ∧ ((({ State.reset with coh := Coh.empty.setBlk 64 (some { dirtyBlk with dirty := 0 }) } : State).slotOfErr (errAt 1 3 3)) = some (256, false)) ∧
    (holds256.slotOfErr (errAt 0 2 2) = some (256, true)) ∧ (errAt 1 2 2).stop < 224 ∧ (errAt 1 2 2).way < arrayWays 2 ∧ (errAt 1 3 15).way < arrayWays 3 ∧
    (let s := State.reset; s.mapped 0 = true ∧ s.domState 0 = 2 ∧ s.rf (a_STP_RAS_STAT 0) f_STP_RAS_STAT_FROZEN = 0 ∧ s.ras.sparing = [] ∧ s.rf a_GAL_RAS_CTL f_GAL_RAS_CTL_SPARE_EN = 1 ∧ (s.pickSpare 0).isSome) ∧
    (State.reset.wf a_GAL_RAS_CTL f_GAL_RAS_CTL_SPARE_EN 0).rf a_GAL_RAS_CTL f_GAL_RAS_CTL_SPARE_EN = 0 ∧ ({ State.reset with coreMap := State.reset.coreMap.filter (fun e => e.st == .active) } : State).pickSpare 0 = none := by decide +kernel
/-- Core 0 is being spared to stop 55 (a spare of its tile), which is on; its move may have been made. -/
def sparing (moved : Bool) : State := (dom State.reset 55 2).updRas (fun x => { x with sparing := [⟨0, 0, 1, 0, [], 55, moved⟩] })
theorem witness_RasBootCommands_spare : ((sparing false).ras.sparing.find? (fun x => !x.moved) = some ⟨0, 0, 1, 0, [], 55, false⟩ ∧ (sparing false).domState 55 = 2 ∧ (sparing false).gal.restart = none ∧ ((sparing false).mtRuns = false ∨ 0 + 4 < (sparing false).time.mt)) ∧ (⟨0, 0, 1, 0, [], 55, true⟩ : Sparing) ∈ (sparing true).ras.sparing ∧
    (let c := cmd 0x0203 0 []; handed (given c) 0 0x0203 c = true ∧ (given c).coreActive c.target = true ∧ (given c).pickSpare c.target ≠ none) ∧ (let c := cmd 0x0203 223 []; handed (given c) 0 0x0203 c = true ∧ (c.target = 223)) ∧
    (let s := State.reset.updRas (fun x => { x with draining := [⟨2, 0, 3, 1⟩] }); s.ras.draining.find? (fun w => w.level == 2 && w.stop == 0 && w.way == 3) = some ⟨2, 0, 3, 1⟩) := by decide +kernel
theorem witness_RasBootCommands_len : State.reset.gal.restart = none ∧ 2 ≤ State.reset.stage ∧ (let s := State.reset.updGal (fun g => { g with restart := some (1, 0) }); s.gal.restart = some (1, 0) ∧ s.boot.tripRec = none) ∧
    (∀ b ∈ State.reset.gal.breaks, b.1 = 1 ∧ b.2 ≠ 287) ∧ 2 ∈ State.reset.gal.clocks ∧ (State.reset.updGal (fun g => { g with clocks := [2] })).gal.clocks = [2] ∧ State.reset.portServes = true ∧
    State.reset.netOf.galleyEn = true ∧ State.reset.gal.kept = [] ∧ State.reset.gal.taken = [] ∧
    (let p := (galParse (List.replicate 64 0) 2 5 5 (some ⟨9, 9⟩)).tag; let s := State.reset.updGal (fun g => { g with kept := [⟨⟨9, 9⟩, p, 0, [1#8]⟩] });
      s.gal.kept.find? (fun k => k.peer == ⟨9, 9⟩ && k.tag == p && decide (s.time.ticks < k.since + second)) = some ⟨⟨9, 9⟩, p, 0, [1#8]⟩) ∧
    (State.reset.updGal (fun g => { g with verify := [⟨0, 2, 0, [], none⟩] })).gal.verify = ⟨0, 2, 0, [], none⟩ :: [] ∧ State.reset.tol.ownerKeys = true ∧ (State.reset.updTol (fun x => { x with ownerKeys := false })).tol.ownerKeys = false ∧ State.reset.halt ≠ 7 := by decide +kernel
theorem witness_RasBootCommands_pmu : (let s := State.reset.updCore 0 (fun c => { c with sample := [⟨0, 0, false, 0, false, 0, 0⟩] }); (s.core (s.stopOf 0)).sample = [⟨0, 0, false, 0, false, 0, 0⟩]) ∧
    (let s := (atMt 5000).setReg (bwCtl 66) (BitVec.ofNat 64 (1 + 1000 * 2 ^ 8)); bit (s.reg (bwCtl 66)) 0 = true ∧ (smGet (fun _ => 0) s.memx.bwWin 66 + 1) * fld (s.reg (bwCtl 66)) 8 32 ≤ s.time.mt) ∧
    (let s := (atMt 1000000).updCore 223 (fun c => { c with lvLast := some 0 }); (s.core 223).lvLast = some 0 ∧ 0 + 1000000 ≤ s.time.mt) := by decide +kernel
/-- The boot at a stage, warm or cold. -/
def bootAt (n : Nat) (warm : Bool) : State := (State.reset.setStage n).updBoot (fun b => { b with warm := warm })
theorem witness_RasBootCommands_reset : (State.reset.updBoot (fun b => { b with held := true })).boot.held = true ∧ (let s := { State.reset with ev := { State.reset.ev with fatalAt := some 0 } }; s.ev.fatalAt = some 0 ∧ s.notYet 0 = false ∧ 6 ≤ s.stage ∧ s.boot.railEn = true) ∧
    ((bootAt 5 false).boot.warm = false ∧ (bootAt 5 false).stage < 6) ∧ (let s := State.reset.updBoot (fun b => { b with coldAt := some 0 }); s.boot.coldAt = some 0 ∧ s.notYet 0 = false) := by decide +kernel
theorem witness_RasBootCommands_slots : (∀ n ∈ [0, 1], ∀ w ∈ [false, true], (bootAt n w).booting n = true ∧ ((bootAt n w).compOf ((bootAt n w).boot.slot (if w then (bootAt n w).newestSlot.getD (bootAt n w).boot.lenSlot else (bootAt n w).boot.cur)) (n + 1)).isSome) ∧
    ((bootAt 0 true).compOf ((bootAt 0 true).boot.slot (bootAt 0 true).boot.tolSlot) 1).isSome ∧ (let s := (bootAt 0 false).updBoot (fun b => { b with slotA := ⟨1, []⟩ }); s.booting 0 = true ∧ s.compOf (s.boot.slot s.boot.cur) 1 = none ∧ s.compOf (s.boot.slot s.boot.cur) 2 = none) := by decide +kernel
theorem witness_RasBootCommands_reference : (bootAt 2 true).booting 2 = true ∧ (bootAt 2 true).boot.warm = true ∧ (let s := ((bootAt 2 false).wf a_TOL_CTL f_TOL_CTL_LIFECYCLE 1).updTol (fun x => { x with ownerKeys := false }); s.booting 2 = true ∧ s.lifecycle = 1 ∧ s.tol.ownerKeys = false) ∧
    (let s := bootAt 2 false; (s.lifecycle ≠ 1 ∨ s.tol.ownerKeys = true) ∧ (s.compOf (s.boot.slot s.boot.cur) 3).isSome ∧ s.boot.railEn = true ∧ s.boot.railGrp = 5) ∧ (let s := (bootAt 2 false).updBoot (fun b => { b with railEn := false }); s.boot.railEn = false ∧ s.boot.therm = false) ∧
    (bootAt 3 false).booting 3 = true ∧ (bootAt 3 false).boot.railEn = true ∧ (bootAt 3 false).railUsed 11 = true ∧ (let s := { bootAt 3 false with time := ⟨0, 0, 10000000, 0, 0, 0⟩ }; s.boot.railTick + 10000000 ≤ s.time.ticks) := by decide +kernel
theorem witness_RasBootCommands_fabric : (∀ w ∈ [false, true], (bootAt 4 w).booting 4 = true ∧ (∀ d, d < 788 → (bootAt 4 w).domState d ≠ 1) ∧ ¬(∃ d, d < 788 ∧ (bootAt 4 w).domState d = 4 ∧ ((448 ≤ d ∧ d < 672) ∨ 784 ≤ d))) ∧
    (let s := dom (bootAt 4 false) 448 4; s.booting 4 = true ∧ (∀ d, d < 788 → s.domState d ≠ 1) ∧ s.domState 448 = 4) ∧ (bootAt 4 true).meshFaults = [] := by decide +kernel
theorem routable_reset : routable ([] : List Elem) = true := by decide +kernel
theorem witness_RasBootCommands_memory : (bootAt 5 false).booting 5 = true ∧ (bootAt 5 false).boot.clearing = false ∧ ((bootAt 5 false).compOf ((bootAt 5 false).boot.slot (bootAt 5 false).boot.cur) 4).isSome ∧
    ((bootAt 5 true).compOf ((bootAt 5 true).boot.slot (bootAt 5 true).boot.lenSlot) 4).isSome ∧ (∃ n, n < 8 ∧ ((bootAt 5 false).buildNodes [(1, 4, 64, 8000)]).rf (a_MSH_NODE n) f_MSH_NODE_VALID ≠ 0) ∧
    ((bootAt 5 false).updBoot (fun b => { b with clearing := true })).boot.clearing = true ∧ (bootAt 6 false).booting 6 = true ∧ (bootAt 7 false).booting 7 = true ∧ (bootAt 7 false).strap 2 = false ∧
    (let s := (bootAt 7 false).setReg a_GAL_BOOT_STAT ((bootAt 7 false).reg a_GAL_BOOT_STAT ||| 1#64 <<< 18); s.booting 7 = true ∧ s.strap 2 = true ∧ s.lkpState ≠ 1 ∧ s.lkpState ≠ 3) := by decide +kernel
theorem witness_RasBootCommands_end : 4 ≤ State.reset.stage ∧ State.reset.boot.railEn = true ∧ State.reset.boot.held = false ∧ State.reset.railUsed 0 = true ∧ State.reset.boot.thermMs ≤ State.reset.time.mt / 1000000 ∧ State.reset.boot.therm = false ∧ 5 < State.reset.stage := by decide +kernel
theorem witness_EncodingRoundTrip : encodeEltor (.add 5 31 1 30) ≠ none ∧ unallocated (.add 5 31 1 30) = none ∧ ((encodeEltor (.add 5 31 1 30)).bind (decodeEltor 5)) = some (.add 5 31 1 30) := by decide +kernel

/-! ### Well-formedness: each check refuses an ill-formed command -/

/-- An agent of the Secure world, and one of a kind that does not exist. -/
def okAgent : Agent := ⟨true, 0, 0, 0⟩
def noAgent : Agent := ⟨true, 3, 0, 0⟩
theorem smoke_core : (Instr.xret 832).wf = false ∧ (Instr.coreSpared 224).wf = false ∧ (Instr.rdown 0 (2 ^ 46) true).wf = false ∧ (Instr.nop 4).wf = false ∧ (Instr.evqCtlWrite okAgent 3 0).wf = false ∧ (Instr.pllLock 788).wf = false ∧
    (Instr.vote 64).wf = false ∧ (Instr.handOver 128).wf = false ∧ (Instr.engineDepRelease 16).wf = false ∧ (Instr.xret 831).wf = true ∧ (Instr.pllLock 787).wf = true := by decide +kernel
theorem smoke_memory : (Instr.ddrFailover 16).wf = false ∧ (Instr.selfRefreshEntry 20).wf = false ∧ (Instr.hbmRowRepair 4 0 0 0).wf = false ∧ (Instr.substWalkEnd 0 32).wf = false ∧ (Instr.bandwidthWindowEnd 67).wf = false ∧
    (Instr.memoryRequest 0 true 64).wf = false ∧ (Instr.dramAccessComplete 0 ⟨8, 0, 0, 0, 0, 0, 0⟩).wf = false ∧ (Instr.memoryTrained [] []).wf = false ∧ (Instr.wayDisableComplete 5 0 0).wf = false ∧ (Instr.wayDisableComplete 0 0 20).wf = false ∧
    (Instr.coreArrayUe 0 0 [0, 0, 0, 0]).wf = false ∧ (Instr.rasReport ⟨10, 0, 0, 0, 0, 0, 0, 0⟩).wf = false ∧ (Instr.wayDisableComplete 4 223 19).wf = true := by decide +kernel
theorem smoke_ports : (Instr.portHotReset 9 0 false).wf = false ∧ (Instr.rptHdmWrite okAgent 8 0 0).wf = false ∧ (Instr.portHotReset 8 4 false).wf = false ∧ (Instr.quarantineEnd 8 3 768).wf = false ∧ (Instr.flr 18).wf = false ∧
    (Instr.whfVfCtlReset okAgent 16).wf = false ∧ (Instr.vfEnable 17).wf = false ∧ (Instr.atsInvTimeout (2 ^ 20)).wf = false ∧ (Instr.peerWindowAccess (2 ^ 64) (.read 8) false).wf = false ∧ (Instr.peerWindowAccess 0 (.read 0) false).wf = false ∧
    (Instr.rptHdmWrite okAgent 7 8 0).wf = false ∧ (Instr.inboundRead 8 0 0 4097 false false).wf = false ∧ (Instr.inboundRead 8 0 0 4096 false false).wf = true ∧
    (Instr.extest (List.replicate 7546 true)).wf = false ∧ (Instr.bypass 0x10).wf = false ∧ (Instr.bypass 0x13).wf = true ∧ (Instr.busMasterEnable 0 (some (false, [64]))).wf = false := by decide +kernel
theorem smoke_units : (Instr.resetTimeout 8).wf = false ∧ (Instr.internalInterrupt 0 (2 ^ 16)).wf = false ∧ (Instr.internalInterrupt (2 ^ 20) 0).wf = false ∧ (Instr.rdcur 256 0 false 0 0).wf = false ∧ (Instr.recordLoad okAgent 0 (2 ^ 45)).wf = false ∧
    (Instr.qosTrstReset okAgent (2 ^ 16) 0).wf = false ∧ (Instr.tolWdogKick okAgent (2 ^ 16)).wf = false ∧ (Instr.lengthsmanFault 256).wf = false ∧ (Instr.tolSmrWrite okAgent 64 0).wf = false ∧ (Instr.aqueductIdleTimeout 38).wf = false ∧
    (Instr.meshLinkFailed 8 0).wf = false ∧ (Instr.random noAgent).wf = false ∧ (Instr.registerWrite okAgent 4 false 0).wf = false ∧ (Instr.registerWrite okAgent 4 true 0).wf = true := by decide +kernel
theorem smoke_rest : (Instr.atomfar 0 0 true 0 0 11 0 0 0 false).wf = false ∧ (Instr.gatherreq 0 true false 0 4 []).wf = false ∧ (Instr.gatherreq 0 true false 0 3 (List.replicate 17 (0, 0, 0))).wf = false ∧ (Instr.cmoreq 0 0 true 3).wf = false ∧ (Instr.pulseEnd 2).wf = false ∧
    (Instr.thermalTrip (2 ^ 16) 0).wf = false ∧ (Instr.railFault 16 0).wf = false ∧ (Instr.watchdogStart okAgent 0 0 1024).wf = false ∧ (Instr.galleyDatagram (2 ^ 32) 0 []).wf = false ∧ (Instr.galleyDatagram 0 (2 ^ 16) []).wf = false ∧
    (Instr.towpathClockSourceFail 3).wf = false ∧ (Instr.towpathBreak 2 0).wf = false ∧ (Instr.thermalControlTick [] 0 [0, 0, 0, 0]).wf = false ∧ (Instr.towpathBreak 1 287).wf = true := by decide +kernel

/-! ### Words laid out by hand from the formats of 03 R68 and the opcode tables -/

/-- The two worked examples of 03 R98 and its pseudo-instructions with a value. -/
theorem word_worked : decodeEltor 7 0x04A63820 = some (.addc 7 5 6 7) ∧ decodeEltor 7 0xF84A19CE = some (.vgather 7 true 2 10 3 1 3 0 3 true none) ∧ decodeEltor 7 0x0C000000 = some (.addi 7 0 0 0) ∧ decodeEltor 7 0xA4010000 = some (.jalr 7 0 1 0) := by decide +kernel
theorem word_integer : decodeEltor 0 (0x02#6 ++ 4#5 ++ 1#5 ++ 31#5 ++ 0x004#11) = some (.mulwu 0 4 1 31) ∧ decodeEltor 0 (0x0A#6 ++ 5#5 ++ 3#5 ++ 0xBEEF#16) = some (.insi 0 5 3 0xBEEF) ∧ decodeEltor 0 (0x0B#6 ++ 5#5 ++ 0x1FFFFF#21) = some (.addpc 0 5 0x1FFFFF) ∧
    decodeEltor 0 (0x0C#6 ++ 5#5 ++ 6#5 ++ 63#6 ++ 0#10) = some (.slli 0 5 6 63) := by decide +kernel
theorem word_memory : decodeEltor 0 (0x16#6 ++ 5#5 ++ 6#5 ++ 0xFFF8#16) = some (.ld 0 5 6 0xFFF8) ∧ decodeEltor 0 (0x18#6 ++ 5#5 ++ 6#5 ++ 1#16) = some (.sb 0 5 6 1) ∧ decodeEltor 0 (0x1E#6 ++ 5#5 ++ 6#5 ++ 7#5 ++ 11#4 ++ 3#2 ++ 1#1 ++ 0#4) = some (.memx 0 5 6 7 11 3 true) ∧
    decodeEltor 0 (0x1D#6 ++ 31#5 ++ 6#5 ++ 3#2 ++ 1#1 ++ 0x1FFF#13) = some (.svs 0 31 6 0x1FFF) ∧ decodeEltor 0 (0x1F#6 ++ 5#5 ++ 6#5 ++ 7#5 ++ 9#4 ++ 3#2 ++ 2#2 ++ 1#2 ++ 0#1) = some (.atomCas 0 5 6 7 3 2 1) := by decide +kernel
theorem word_control : decodeEltor 0 (0x20#6 ++ 5#5 ++ 6#5 ++ 0x8000#16) = some (.beq 0 5 6 0x8000) ∧ decodeEltor 0 (0x26#6 ++ 5#5 ++ 0#5 ++ 63#16) = some (.loop 0 5 63) ∧ decodeEltor 0 (0x28#6 ++ 0x2000000#26) = some (.jal 0 0x2000000) ∧
    decodeEltor 0 (0x30#6 ++ 5#5 ++ 0#9 ++ 0xC10#12) = some (.mfs 0 5 0xC10) ∧ decodeEltor 0 (0x31#6 ++ 5#5 ++ 0#9 ++ 0x460#12) = some (.mts 0 0x460 5) ∧ decodeEltor 0 (0x33#6 ++ 1#5 ++ 0#5 ++ 0x1234#16) = some (.hypcall 0 0x1234) ∧
    decodeEltor 0 (0x32#6 ++ 0#15 ++ 0x001#11) = some (.xret 0) ∧ decodeEltor 0 (0x34#6 ++ 0#5 ++ 5#5 ++ 6#5 ++ 0x012#11) = some (.cmoRangeCi 0 5 6 none) ∧ decodeEltor 0 (0x35#6 ++ 0#5 ++ 5#5 ++ 6#5 ++ 0#11) = some (.tlbiVa 0 5 6) := by decide +kernel
theorem word_vector : decodeEltor 0 (0x38#6 ++ 5#5 ++ 6#5 ++ 7#5 ++ 5#5 ++ 3#2 ++ 0#4) = some (.fmadd 0 3 5 6 7) ∧ decodeEltor 0 (0x3B#6 ++ 5#5 ++ 6#5 ++ 7#5 ++ 1#3 ++ 7#3 ++ 0#5) = some (.vadd 0 true 5 6 7 1 7) ∧ decodeEltor 0 (0x3A#6 ++ 5#5 ++ 6#5 ++ 0#5 ++ 2#3 ++ 4#3 ++ 22#5) = some (.vredsum 0 false 5 6 2 4) ∧
    decodeEltor 0 (0x39#6 ++ 5#5 ++ 6#5 ++ 7#5 ++ 0#11) = some (.mand 0 5 6 7) ∧ decodeEltor 0 (0x3C#6 ++ 5#5 ++ 6#5 ++ 7#5 ++ 3#3 ++ 2#2 ++ 0#1 ++ 1#1 ++ 0#4) = some (.vlsLoad 0 true 5 6 7 3 2 none) := by decide +kernel
/-- Words that R70 makes unallocated: the two fixed ones, an unassigned opcode, FN and TRAP kind, a RES0 field, an unused register field, ATOP 11, SIZE 3, LV16, and LOOP of E0. -/
theorem word_unallocated : decodeEltor 0 0x00000000 = none ∧ decodeEltor 0 0xFFFFFFFF = none ∧ decodeEltor 0 (0x0D#6 ++ 0#26) = none ∧ decodeEltor 0 (0x01#6 ++ 0#15 ++ 0x00C#11) = none ∧
    decodeEltor 0 (0x33#6 ++ 4#5 ++ 0#21) = none ∧ decodeEltor 0 (0x30#6 ++ 5#5 ++ 1#9 ++ 0xC10#12) = none ∧ decodeEltor 0 (0x01#6 ++ 5#5 ++ 6#5 ++ 1#5 ++ 0x030#11) = none ∧ decodeEltor 0 (0x35#6 ++ 1#5 ++ 0#10 ++ 0x003#11) = none ∧
    decodeEltor 0 (0x1F#6 ++ 5#5 ++ 6#5 ++ 7#5 ++ 11#4 ++ 0#2 ++ 0#2 ++ 1#2 ++ 0#1) = none ∧ decodeEltor 0 (0x1F#6 ++ 5#5 ++ 6#5 ++ 7#5 ++ 0#4 ++ 0#2 ++ 0#2 ++ 3#2 ++ 0#1) = none ∧ decodeEltor 0 (0x3B#6 ++ 16#5 ++ 0#5 ++ 0#5 ++ 0#11) = none ∧ decodeEltor 0 (0x26#6 ++ 0#5 ++ 0#5 ++ 63#16) = none := by decide +kernel

/-! ### Single steps whose results the spec gives -/

/-- The state a command leaves. -/
def after (i : Instr) (s : State) : State := match exec i s with | .next s' => s' | _ => s
/-- Thread 0 after an instruction on operands in E1 and E2. -/
def ran (i : Instr) (x y : Word) : Thread := (after i (at0 (fun th => (th.wE 1 x).wE 2 y))).thr 0
/-- 03 R76: addition wraps; ADDC and SUBB write C, SUBB a borrow; E0 is not written (02 R42). -/
theorem test_integer : (ran (.add 0 3 1 2) 0xFFFFFFFFFFFFFFFF 2).rE 3 = 1 ∧ (ran (.addc 0 0 1 2) 0xFFFFFFFFFFFFFFFF 1).tstat.getLsbD 0 = true ∧ (ran (.addc 0 0 1 2) 0xFFFFFFFFFFFFFFFF 1).rE 0 = 0 ∧ (ran (.subb 0 3 1 2) 0 1).rE 3 = 0xFFFFFFFFFFFFFFFF ∧
    (ran (.sra 0 3 1 2) 0x8000000000000000 127).rE 3 = 0xFFFFFFFFFFFFFFFF ∧ (ran (.addw 0 3 1 2) 0x7FFFFFFF 1).rE 3 = 0xFFFFFFFF80000000 ∧ (ran (.clz 0 3 1) 0 0).rE 3 = 64 := by decide +kernel
/-- 03 R77, 05 R118: the product pair; the quotient and remainder of a division by zero and of the overflowing one. -/
theorem test_muldiv : (ran (.mulwu 0 4 1 2) 0xFFFFFFFFFFFFFFFF 0xFFFFFFFFFFFFFFFF).rE 5 = 0xFFFFFFFFFFFFFFFE ∧ (ran (.mulwu 0 4 1 2) 0xFFFFFFFFFFFFFFFF 0xFFFFFFFFFFFFFFFF).rE 4 = 1 ∧ (ran (.div 0 3 1 2) 7 0).rE 3 = 0xFFFFFFFFFFFFFFFF ∧ (ran (.rem 0 3 1 2) 7 0).rE 3 = 7 ∧
    (ran (.div 0 3 1 2) 0x8000000000000000 0xFFFFFFFFFFFFFFFF).rE 3 = 0x8000000000000000 ∧ (ran (.rem 0 3 1 2) (-7) 2).rE 3 = -1 := by decide +kernel
/-- 03 R79: LB sign-extends the low byte of a little-endian doubleword, LHU zero-extends (line 256 holds 0x1122334455667788). -/
theorem test_loads : ((after (.lb 0 3 1 0) holds256).thr 0).rE 3 = 0xFFFFFFFFFFFFFF88 ∧ ((after (.lhu 0 3 1 6) holds256).thr 0).rE 3 = 0x1122 ∧ ((after (.ld 0 3 1 0) holds256).thr 0).rE 3 = 0x1122334455667788 ∧ ((after (.ld 0 3 1 0) holds256).thr 0).pc = 0x000FFFFFFFF00004 := by decide +kernel
/-- 03 R84: JALR clears bits [1:0] of its target and links; the branch offset counts words from the branch. -/
theorem test_branches : (ran (.jalr 0 1 1 3) 0x1003 0).pc = 0x1004 ∧ (ran (.jalr 0 1 1 3) 0x1003 0).rE 1 = 0x000FFFFFFFF00004 ∧ (ran (.beq 0 1 2 0xFFFF) 5 5).pc = 0x000FFFFFFFEFFFFC ∧ (ran (.blt 0 1 2 4) (-1) 0).pc = 0x000FFFFFFFF00010 ∧ (ran (.bltu 0 1 2 4) (-1) 0).pc = 0x000FFFFFFFF00004 := by decide +kernel
/-- 03 R88, 02 R53, R54: MONCALL at Monitor level enters at VECBASE_M + 0 (0x000F_FFFF_FFF0_1000), at level 1 of the Normal world at + 0x400, in the Secure world at Monitor level with IE 0. -/
theorem test_trap : (ran (.moncall 0 0x1234) 0 0).pc = 0x000FFFFFFFF01000 ∧
    (let th := (after (.moncall 0 0x1234) (at0 (fun th => { th with tstat := 0x14 }))).thr 0; th.pc = 0x000FFFFFFFF01400 ∧ th.pl = 3 ∧ th.secure = true ∧ th.ie = false) := by decide +kernel
/-- 05 R131: 1.0 + 1.0 is 2.0 with no flag. -/
theorem test_fp : (let s := at0 (fun th => { th with sv := smSet (fun _ => 0) [] 1 0x3FF0000000000000 }); let th := (after (.fadd 0 2 3 1 1) s).thr 0; (th.rSV 3).toNat = 0x4000000000000000 ∧ th.fpflags = 0) := by decide +kernel
/-- 15 R468 names SHA-384; the digest of "abc" begins with the bytes FIPS 180-4 gives for its example. -/
theorem test_sha : (sha384 [0x61, 0x62, 0x63]).take 4 = [0xcb, 0x00, 0x75, 0x3f] := by decide +kernel

end Sys2Proof.Tests
end

section
/-! PROOFS. Taking an exception (02 R53, R54): what the synchronisation it acts as leaves of the thread, the PC it enters at, and VECBASE. -/
namespace Sys2Proof.Machine

/-! ### Clearing bits [11:0] -/

/-- Clearing the low 12 bits is rounding down to a multiple of 4096. -/
theorem and_not_fff (v : Word) : v &&& ~~~(0xFFF#64) = BitVec.ofNat 64 (v.toNat / 4096 * 4096) := by
  apply BitVec.eq_of_getLsbD_eq
  intro i hi
  have hmask : (0xFFF#64).getLsbD i = decide (i < 12) := by
    rw [show 0xFFF#64 = BitVec.ofNat 64 (2 ^ 12 - 1) from rfl, BitVec.getLsbD_ofNat, Nat.testBit_two_pow_sub_one]
    simp [hi]
  rw [BitVec.getLsbD_and, BitVec.getLsbD_not, hmask, BitVec.getLsbD_ofNat, show 4096 = 2 ^ 12 from rfl,
    Nat.testBit_mul_two_pow, Nat.testBit_div_two_pow]
  by_cases h : i < 12
  · simp [h]
  · simp [h, hi, show 12 ≤ i by omega, BitVec.getLsbD]

/-- The mask that `sysWritten` keeps of a VECBASE. -/
theorem maskW_base (v : Word) : maskW v 0xFFFFFFFFFFFFF000 = BitVec.ofNat 64 (v.toNat / 4096 * 4096) :=
  and_not_fff v

/-! ### System state of a thread read after a write, and after a SYNCS -/

/-- Storing system state leaves the state of every other number as it was. -/
theorem Thread.setCommitted_committed_ne (th : Thread) {num k : Nat} (v : Word) (h : k ≠ num) :
    (th.setCommitted num v).committed k = th.committed k := by
  unfold Thread.setCommitted
  -- one case for each field that holds system state: only `num` reads the field written
  split_ifs <;> simp_all [Thread.committed, smGet_smSet_ne]

/-- Making written values the committed ones leaves the state of a thread that needs no SYNCS as it was (02 R50). -/
theorem State.syncThread_committed (s : State) (t : Nat) {num : Nat} (hl : (s.thr t).Legal) (hn : syncReq num = false) :
    ((s.syncThread t).thr t).committed num = (s.thr t).committed num := by
  simp only [State.syncThread, State.setThr_thr_self]
  refine List.foldlRecOn (motive := fun h : Thread => h.committed num = (s.thr t).committed num) (s.thr t).pend _ rfl ?_
  intro h ih e he
  have hne : num ≠ e.1 := fun heq => by simpa [← heq, hn] using hl.pend e he
  split_ifs
  · exact ih
  · split
    · rw [Thread.setCommitted_committed_ne _ _ hne, ih]
    · exact ih

/-- The level of a thread is not sync-required state. -/
theorem State.syncThread_pl (s : State) (t : Nat) (hl : (s.thr t).Legal) : ((s.syncThread t).thr t).pl = (s.thr t).pl :=
  congrArg (fld · 4 2) (s.syncThread_committed t (num := 0) hl rfl)

/-! ### The exception registers -/

/-- VECBASE of every level takes effect without a SYNCS (02 R47). -/
theorem syncReq_excRegs (lvl : Nat) : syncReq (excRegs lvl) = false := by
  unfold excRegs
  split_ifs <;> decide

/-- A VECBASE written keeps its base and loses bits [11:0] (02 R54). -/
theorem sysWritten_vecbase {n : Nat} (pl : Nat) (lv : Bool) (old v : Word) (hn : n ∈ [0x400, 0x800, 0xC00]) :
    sysWritten n pl lv old v = BitVec.ofNat 64 (v.toNat / 4096 * 4096) := by
  have hm : sysWritten n pl lv old v = maskW v 0xFFFFFFFFFFFFF000 := by
    fin_cases hn <;> rfl
  rw [hm, maskW_base]

/-- At reset every thread's VECBASEs read their reset values. -/
theorem reset_thr_committed_vecbase (t : Nat) {n : Nat} (hn : n ∈ [0x400, 0x800, 0xC00]) :
    (State.reset.thr t).committed n = sysReset n := by
  fin_cases hn <;> rfl

/-- Every VECBASE has bits [11:0] zero at reset (02 R54; 20 R598). -/
theorem sysReset_vecbase {n : Nat} (hn : n ∈ [0x400, 0x800, 0xC00]) :
    sysReset n = BitVec.ofNat 64 ((sysReset n).toNat / 4096 * 4096) := by
  revert n
  decide

/-! ### The PC of an exception -/

/-- The PC at which a thread enters an exception (02 R53). -/
theorem Thread.enter_pc (th : Thread) (lvl : Nat) (k : ExcKind) (e : Exc) :
    (th.enter lvl k e).pc = BitVec.ofNat 64 ((th.committed (excRegs lvl)).toNat / 4096 * 4096) + BitVec.ofNat 64 (vecOffset k (decide (th.pl = lvl))) := by
  rw [← and_not_fff]
  rfl

/-- The synchronisation that an exception acts as (02 R51) changes neither the base nor the level its PC is taken from. -/
theorem State.enterExc_pc (s : State) (t lvl : Nat) (k : ExcKind) (e : Exc) (hl : (s.thr t).Legal) :
    ((s.enterExc t lvl k e).thr t).pc = BitVec.ofNat 64 (((s.thr t).committed (excRegs lvl)).toNat / 4096 * 4096) +
      BitVec.ofNat 64 (vecOffset k (decide ((s.thr t).pl = lvl))) := by
  have hl' : (s.tick.thr t).Legal := hl
  rw [State.enterExc, State.updThr_thr_self, Thread.enter_pc, State.syncThread_committed _ _ hl' (syncReq_excRegs lvl),
    State.syncThread_pl _ _ hl', State.tick_thr]

/-- Settles O19: the PC by the rule of `enterExc`, the writes by the mask of VECBASE, the reset values by evaluation of the three. -/
theorem vectorOffsets : Obligations.VectorOffsets := by
  refine ⟨fun s t lvl k e hl => ?_, fun n pl lv old v hn => sysWritten_vecbase pl lv old v hn, fun t _ n hn => ?_⟩
  · rw [s.enterExc_pc t lvl k e hl]
    cases k <;> cases decide ((s.thr t).pl = lvl) <;> rfl
  · rw [reset_thr_committed_vecbase t hn]
    exact sysReset_vecbase hn

end Sys2Proof.Machine
end

section
/-! PROOFS. Divides (05 R122, R123): the quotient and the remainder read as integers, and the 32-bit forms as sign-extended functions of the low halves. -/
namespace Sys2Proof.Machine

/-! ### 64-bit quotients and remainders -/

/-- The truncated quotient fits its width unless the operands are MIN and −1. -/
theorem toInt_ofInt_tdiv {w : Nat} (hw : 0 < w) (a b : BitVec w) (h : ¬(a.toInt = -2 ^ (w - 1) ∧ b.toInt = -1)) :
    (BitVec.ofInt w (a.toInt.tdiv b.toInt)).toInt = a.toInt.tdiv b.toInt := by
  rw [BitVec.toInt_ofInt, ← BitVec.toInt_sdiv]
  refine BitVec.toInt_sdiv_of_ne_or_ne a b (not_and_or.mp fun ⟨ha, hb⟩ => h ⟨?_, ?_⟩)
  · rw [ha, BitVec.toInt_intMin_of_pos hw]
  · rw [hb, BitVec.neg_one_eq_allOnes, BitVec.toInt_allOnes, if_pos hw]

/-- Outside the edge rows of R123, DIV gives the integer quotient truncated toward zero. -/
theorem divS_toInt {a b : Word} (hb : b ≠ 0) (h : ¬(a.toInt = -(2 ^ 63) ∧ b.toInt = -1)) :
    (divS a b).toInt = a.toInt.tdiv b.toInt := by
  rw [divS, if_neg hb, toInt_ofInt_tdiv (by decide) a b h]

/-- REM gives the integer remainder of truncated division; the zero divisor and MIN / −1 follow the same formula. -/
theorem remS_toInt (a b : Word) : (remS a b).toInt = a.toInt.tmod b.toInt := by
  unfold remS
  split_ifs with hb
  · simp [hb]
  · rw [← BitVec.toInt_srem, BitVec.ofInt_toInt]

/-- The remainder of a division by other than zero is smaller in magnitude than the divisor. -/
theorem remS_natAbs_lt (a : Word) {b : Word} (hb : b ≠ 0) : (remS a b).toInt.natAbs < b.toInt.natAbs := by
  have hb' : b.toInt ≠ 0 := by simpa using BitVec.toInt_ne.mpr hb
  rw [remS_toInt, Int.natAbs_tmod]
  exact Nat.mod_lt _ (Int.natAbs_pos.mpr hb')

/-- The remainder is zero or carries the sign of the dividend. -/
theorem remS_zero_or_sign (a b : Word) : (remS a b).toInt = 0 ∨ (remS a b).toInt.sign = a.toInt.sign := by
  rw [remS_toInt, Int.sign_tmod]
  by_cases hdvd : b.toInt ∣ a.toInt
  · exact .inl (Int.tmod_eq_zero_of_dvd hdvd)
  · exact .inr (if_neg hdvd)

/-- The unsigned quotient of a division by other than zero. -/
theorem divU_toNat (a : Word) {b : Word} (hb : b ≠ 0) : (divU a b).toNat = a.toNat / b.toNat := by
  rw [divU, if_neg hb, BitVec.toNat_udiv]

/-- The unsigned remainder of a division by other than zero. -/
theorem remU_toNat (a : Word) {b : Word} (hb : b ≠ 0) : (remU a b).toNat = a.toNat % b.toNat := by
  rw [remU, if_neg hb, BitVec.toNat_umod]

/-! ### 32-bit quotients -/

/-- The low half of a sign-extended 32-bit value is that value. -/
theorem setWidth_signExtend_32 (x : BitVec 32) : (x.signExtend 64).setWidth 32 = x := by
  ext i hi
  rw [BitVec.getElem_setWidth, BitVec.getLsbD_signExtend, if_pos hi, decide_eq_true (by omega), Bool.true_and,
    BitVec.getLsbD_eq_getElem]

/-- A value sign-extended from 32 bits is the sign extension of its own low half. -/
theorem sext32_signExtend (x : BitVec 32) : sext32 (x.signExtend 64) = x.signExtend 64 := by
  rw [sext32, setWidth_signExtend_32]

/-- The result of DIVW is sign-extended from 32 bits, the ones of a zero divisor included. -/
theorem sext32_divWS (a b : Word) : sext32 (divWS a b) = divWS a b := by
  unfold divWS
  split_ifs
  · decide
  · exact sext32_signExtend _

/-- The result of DIVWU is sign-extended from 32 bits, the ones of a zero divisor included. -/
theorem sext32_divWU (a b : Word) : sext32 (divWU a b) = divWU a b := by
  unfold divWU
  split_ifs
  · decide
  · exact sext32_signExtend _

/-- DIVW and DIVWU ignore bits [63:32] of both operands. -/
theorem divW_congr {a b a' b' : Word} (ha : a.setWidth 32 = a'.setWidth 32) (hb : b.setWidth 32 = b'.setWidth 32) :
    divWS a b = divWS a' b' ∧ divWU a b = divWU a' b' := by
  simp only [divWS, divWU, ha, hb, and_self]

/-- A 32-bit value zero-extended to a word keeps its low half. -/
theorem setWidth_setWidth_32 (x : BitVec 32) : (x.setWidth 64).setWidth 32 = x := by
  rw [BitVec.setWidth_setWidth_of_le _ (by decide), BitVec.setWidth_eq]

/-- Outside the edge rows of R123, the low half of DIVW is the integer quotient truncated toward zero. -/
theorem divWS_toInt {a b : BitVec 32} (hb : b ≠ 0#32) (h : ¬(a.toInt = -(2 ^ 31) ∧ b.toInt = -1)) :
    ((divWS (a.setWidth 64) (b.setWidth 64)).setWidth 32).toInt = a.toInt.tdiv b.toInt := by
  rw [divWS, setWidth_setWidth_32, setWidth_setWidth_32, if_neg hb, setWidth_signExtend_32, toInt_ofInt_tdiv (by decide) a b h]

/-- The low half of DIVWU is the unsigned quotient when the divisor is not zero. -/
theorem divWU_toNat (a : BitVec 32) {b : BitVec 32} (hb : b ≠ 0#32) :
    ((divWU (a.setWidth 64) (b.setWidth 64)).setWidth 32).toNat = a.toNat / b.toNat := by
  rw [divWU, setWidth_setWidth_32, setWidth_setWidth_32, if_neg hb, setWidth_signExtend_32, BitVec.toNat_udiv]

/-- Settles O11: the 64-bit identities are those of `Int.tdiv` with `Int.tmod` and of `Nat` division; the 32-bit results are sign extensions of the quotient of the low halves. -/
theorem divisionIdentity : Obligations.DivisionIdentity := by
  refine ⟨fun a b hb h => ⟨?_, remS_natAbs_lt a hb, remS_zero_or_sign a b⟩, fun a b hb => ⟨?_, ?_⟩,
    fun a b a' b' ha hb => divW_congr ha hb, fun a b => ⟨(sext32_divWS a b).symm, (sext32_divWU a b).symm⟩,
    fun a b hb h => divWS_toInt hb h, fun a b hb => divWU_toNat a hb⟩
  · rw [divS_toInt hb h, remS_toInt, Int.tdiv_mul_add_tmod]
  · rw [divU_toNat a hb, remU_toNat a hb, Nat.div_add_mod']
  · rw [remU_toNat a hb]
    exact Nat.mod_lt _ (Nat.pos_of_ne_zero fun h0 => hb (BitVec.eq_of_toNat_eq h0))

end Sys2Proof.Machine
end

section
/-! PROOFS. Reductions (06 R149): a pairwise tree whose lanes are all inactive answers the identity, and one of integer sums answers the sum of its active lanes modulo 2^w. -/
namespace Sys2Proof.Machine

/-! ### One level of the tree -/

/-- What two neighbours of a level become: an inactive lane contributes nothing. -/
def redMerge (op : VRed) (ty : EType) (env : FpEnv) (x y : Option Nat) : Option Nat :=
  x.merge (fun a b => (redStep op ty env a b).1) y

/-- A level begins with what its first two lanes become. -/
theorem redPair_cons_cons (op : VRed) (ty : EType) (env : FpEnv) (x y : Option Nat) (r : List (Option Nat)) :
    (redPair op ty env (x :: y :: r)).1 = redMerge op ty env x y :: (redPair op ty env r).1 := by
  cases x <;> cases y <;> rfl

/-- What holds of every lane of a level, and of two neighbours combined when it holds of both, holds of every lane of the next level. -/
theorem forall_mem_redPair {op : VRed} {ty : EType} {env : FpEnv} {P : Option Nat → Prop}
    (hP : ∀ x y, P x → P y → P (redMerge op ty env x y)) {l : List (Option Nat)} (h : ∀ x ∈ l, P x) :
    ∀ x ∈ (redPair op ty env l).1, P x := by
  induction l using List.twoStepInduction with
  | nil => exact h
  | singleton x => exact h
  | cons_cons x y r ih _ =>
    simp only [List.forall_mem_cons, redPair_cons_cons] at h ⊢
    obtain ⟨hx, hy, hr⟩ := h
    exact ⟨hP x y hx hy, ih hr⟩

/-- Combining neighbours halves a level, rounding up. -/
theorem redPair_length (op : VRed) (ty : EType) (env : FpEnv) (l : List (Option Nat)) :
    (redPair op ty env l).1.length = (l.length + 1) / 2 := by
  induction l using List.twoStepInduction with
  | nil => rfl
  | singleton x => simp [redPair]
  | cons_cons x y r ih _ =>
    simp only [redPair_cons_cons, List.length_cons, ih]
    omega

/-! ### No active lane -/

/-- A tree of inactive lanes has no value. -/
theorem redTree_eq_none {op : VRed} {ty : EType} {env : FpEnv} (k : Nat) {l : List (Option Nat)} (h : ∀ x ∈ l, x = none) :
    (redTree op ty env k l).1 = none := by
  induction k generalizing l with
  | zero =>
    cases l with
    | nil => rfl
    | cons x r => exact h x List.mem_cons_self
  | succ k ih => exact ih (forall_mem_redPair (by rintro _ _ rfl rfl; rfl) h)

/-- The leaves of a mask with no bit set below n are inactive. -/
theorem redLeaves_eq_none {ty : EType} {env : FpEnv} {m : BitVec 256} {a n : Nat} (h : ∀ k, k < n → m.getLsbD k = false) :
    ∀ x ∈ (redLeaves ty env m a n).1, x = none := by
  induction n with
  | zero => simp [redLeaves]
  | succ n ih =>
    have hn : maskBit m n = false := h n n.lt_succ_self
    have hl := ih fun k hk => h k (hk.trans n.lt_succ_self)
    simpa [redLeaves, hn, or_imp, forall_and] using hl

/-- A reduction with no active lane writes its identity and raises no flag. -/
theorem vecRed_of_inactive (op : VRed) (ty : EType) (env : FpEnv) {m : BitVec 256} {n : Nat} (a : Nat)
    (h : ∀ k, k < n → m.getLsbD k = false) : vecRed op ty env m n a = (redIdentity op ty, {}) := by
  simp only [vecRed, redTree_eq_none 8 (redLeaves_eq_none h)]

/-! ### The integer sum -/

/-- The signed value of a lane is its unsigned value modulo 2^w. -/
theorem laneInt_modEq (w v : Nat) : laneInt w v ≡ v [ZMOD 2 ^ w] := by
  unfold laneInt
  split_ifs
  · rfl
  · exact Int.sub_modulus_modEq_iff.mpr rfl

/-- Adding two lanes by their signed values is adding them modulo 2^w. -/
theorem laneOf_laneInt_add (w a b : Nat) : laneOf w (laneInt w a + laneInt w b) = (a + b) % 2 ^ w := by
  rw [laneOf, (laneInt_modEq w a).add (laneInt_modEq w b)]
  exact_mod_cast Int.toNat_natCast _

/-- A step of an integer VREDSUM is the sum modulo 2^w. -/
theorem redStep_sum_fst {ty : EType} (hty : ty.isInt = true) (env : FpEnv) (a b : Nat) :
    (redStep .sum ty env a b).1 = (a + b) % 2 ^ ty.width := by
  simp only [redStep, vbin, hty, if_true, laneOf_laneInt_add]

/-- Two neighbours become their sum modulo 2^w, an inactive lane counting zero. -/
theorem redMerge_sum_modEq {ty : EType} (hty : ty.isInt = true) (env : FpEnv) (x y : Option Nat) :
    (redMerge .sum ty env x y).getD 0 ≡ x.getD 0 + y.getD 0 [MOD 2 ^ ty.width] := by
  match x, y with
  | none, none => rfl
  | none, some b => simp [redMerge, Nat.ModEq.rfl]
  | some a, none => simp [redMerge, Nat.ModEq.rfl]
  | some a, some b => simp [redMerge, redStep_sum_fst hty, Nat.mod_modEq]

/-- What two lanes of w bits become has w bits. -/
theorem redMerge_sum_lt {ty : EType} (hty : ty.isInt = true) (env : FpEnv) (x y : Option Nat)
    (hx : x.getD 0 < 2 ^ ty.width) (hy : y.getD 0 < 2 ^ ty.width) :
    (redMerge .sum ty env x y).getD 0 < 2 ^ ty.width := by
  match x, y with
  | none, y => simpa [redMerge] using hy
  | some a, none => exact hx
  | some a, some b => simp [redMerge, redStep_sum_fst hty, Nat.mod_lt]

/-- The sum of a level of the tree, an inactive lane counting zero. -/
def levelSum (l : List (Option Nat)) : Nat := (l.map (·.getD 0)).sum

theorem levelSum_cons (x : Option Nat) (l : List (Option Nat)) : levelSum (x :: l) = x.getD 0 + levelSum l := rfl

/-- Combining neighbours keeps the sum of a level modulo 2^w. -/
theorem levelSum_redPair {ty : EType} (hty : ty.isInt = true) (env : FpEnv) (l : List (Option Nat)) :
    levelSum (redPair .sum ty env l).1 ≡ levelSum l [MOD 2 ^ ty.width] := by
  induction l using List.twoStepInduction with
  | nil => rfl
  | singleton x => rfl
  | cons_cons x y r ih _ =>
    simpa only [redPair_cons_cons, levelSum_cons, Nat.add_assoc] using (redMerge_sum_modEq hty env x y).add ih

/-- A tree with levels enough for its leaves answers their sum modulo 2^w. -/
theorem redTree_sum {ty : EType} (hty : ty.isInt = true) (env : FpEnv) {k : Nat} {l : List (Option Nat)}
    (hlen : l.length ≤ 2 ^ k) (hlt : ∀ x ∈ l, x.getD 0 < 2 ^ ty.width) :
    (redTree .sum ty env k l).1.getD 0 = levelSum l % 2 ^ ty.width := by
  induction k generalizing l with
  | zero =>
    match l, hlen with
    | [], _ => exact (Nat.zero_mod _).symm
    | [x], _ => exact (Nat.mod_eq_of_lt (hlt x List.mem_cons_self)).symm
  | succ k ih =>
    have hhalf : (redPair .sum ty env l).1.length ≤ 2 ^ k := by
      rw [redPair_length]
      omega
    calc (redTree .sum ty env (k + 1) l).1.getD 0
        = levelSum (redPair .sum ty env l).1 % 2 ^ ty.width := ih hhalf (forall_mem_redPair (redMerge_sum_lt hty env) hlt)
      _ = levelSum l % 2 ^ ty.width := levelSum_redPair hty env l

/-- The lanes of a source by division. -/
theorem lane_eq_div_mod (v w : Nat) : lane v w = fun k => v / 2 ^ (w * k) % 2 ^ w := by
  funext k
  rw [lane, natField, Nat.shiftRight_eq_div_pow]

/-- The leaves of an integer reduction are the lanes of the source at the set mask bits. -/
theorem redLeaves_int {ty : EType} (hty : ty.isInt = true) (env : FpEnv) (m : BitVec 256) (a n : Nat) :
    (redLeaves ty env m a n).1 = (List.range n).map (fun k => if m.getLsbD k then some (lane a ty.width k) else none) := by
  induction n with
  | zero => rfl
  | succ n ih => cases h : m.getLsbD n <;> simp [redLeaves, redLeaf, maskBit, hty, h, ih, List.range_succ]

/-- A leaf of an integer reduction has w bits. -/
theorem redLeaves_int_lt {ty : EType} (hty : ty.isInt = true) (env : FpEnv) (m : BitVec 256) (a n : Nat) :
    ∀ x ∈ (redLeaves ty env m a n).1, x.getD 0 < 2 ^ ty.width := by
  rw [redLeaves_int hty, List.forall_mem_map]
  intro k _
  split_ifs
  · exact Nat.mod_lt _ (Nat.two_pow_pos _)
  · exact Nat.two_pow_pos _

/-- The leaves of an integer reduction sum to the active lanes of the source. -/
theorem levelSum_redLeaves {ty : EType} (hty : ty.isInt = true) (env : FpEnv) (m : BitVec 256) (a n : Nat) :
    levelSum (redLeaves ty env m a n).1 = (((List.range n).filter (fun k => m.getLsbD k)).map (lane a ty.width)).sum := by
  simp only [levelSum, redLeaves_int hty, List.map_map, Function.comp_def, apply_ite (Option.getD · 0), Option.getD_some,
    Option.getD_none, List.sum_map_ite, List.map_const', List.sum_replicate, smul_zero, add_zero, Bool.decide_eq_true]

/-- The value of a VREDSUM is that of its tree, and 0 when the tree has none. -/
theorem vecRed_sum_fst (ty : EType) (env : FpEnv) (m : BitVec 256) (n a : Nat) :
    (vecRed .sum ty env m n a).1 = (redTree .sum ty env 8 (redLeaves ty env m a n).1).1.getD 0 := by
  have hid : redIdentity .sum ty = 0 := ite_self 0
  unfold vecRed
  cases h : (redTree .sum ty env 8 (redLeaves ty env m a n).1).1 <;> simp [h, hid]

/-- An integer VREDSUM over the lanes of a register is the sum of the active ones modulo 2^w. -/
theorem vecRed_sum_int {ty : EType} (hty : ty.isInt = true) (env : FpEnv) (m : BitVec 256) {n : Nat} (hn : n ≤ 256) (a : Nat) :
    (vecRed .sum ty env m n a).1 = (((List.range n).filter (fun k => m.getLsbD k)).map (lane a ty.width)).sum % 2 ^ ty.width := by
  have hlen : (redLeaves ty env m a n).1.length ≤ 2 ^ 8 := by
    simpa [redLeaves_int hty] using hn
  rw [vecRed_sum_fst, redTree_sum hty env hlen (redLeaves_int_lt hty env m a n), levelSum_redLeaves hty]

/-- Settles O20: the identities by evaluation for each operation and type, the sum by the tree that adds neighbours modulo 2^w. -/
theorem reductionIdentity : Obligations.ReductionIdentity := by
  refine ⟨fun op ty env m n a _ hbf h => ?_, fun ty env m n a hn hty => ?_⟩
  · rw [vecRed_of_inactive op ty env a h]
    cases ty with
    | bf16 => exact absurd rfl hbf
    | _ => cases op <;> rfl
  · rw [vecRed_sum_int hty env m hn a, lane_eq_div_mod]

end Sys2Proof.Machine
end

section
/-! PROOFS. Who supplies a line (08 R221): what a home reads of a line before and after it fills its LLC, and the messages it sends while an owner is recorded. -/
namespace Sys2Proof.Machine

/-! ### A sector of an LLC block, after a write of it -/

/-- A sector written reads as the line put there. -/
theorem LlcBlk.put_sector (b : LlcBlk) {i : Nat} (hi : i < 4) (d : Line) (dirty poison sec : Bool) :
    (b.put i d dirty poison sec).sector i = d := by
  apply BitVec.eq_of_getLsbD_eq
  intro j hj
  have hin : 512 * i + j < 2048 := by omega
  simp only [LlcBlk.put, LlcBlk.sector, BitVec.getLsbD_extractLsb', BitVec.getLsbD_or, BitVec.getLsbD_and, BitVec.getLsbD_not,
    BitVec.getLsbD_shiftLeft, BitVec.getLsbD_setWidth, BitVec.getLsbD_allOnes, Nat.add_sub_cancel_left]
  simp [hj, hin, show j < 2048 by omega]

/-- A flag of one sector, set or cleared, reads as it was given. -/
theorem getLsbD_setFlag (x : BitVec 4) {i : Nat} (hi : i < 4) (f : Bool) :
    (if f then x ||| (1#4 <<< i) else x &&& ~~~(1#4 <<< i)).getLsbD i = f := by
  cases f <;> simp [hi]

/-- A sector written is valid. -/
theorem LlcBlk.put_valid (b : LlcBlk) {i : Nat} (hi : i < 4) (d : Line) (dirty poison sec : Bool) :
    (b.put i d dirty poison sec).valid.getLsbD i = true :=
  getLsbD_setFlag b.valid hi true

/-! ### The LLC sector of a line -/

@[simp] theorem Coh.sectorOf_count (c : Coh) (code unit req addr line : Nat) :
    (c.count code unit req addr).sectorOf line = c.sectorOf line := rfl

/-- After a block is stored, its sectors are those of the block. -/
theorem Coh.sectorOf_setBlk (c : Coh) (line : Nat) (b : LlcBlk) :
    (c.setBlk (line / 4) (some b)).sectorOf line =
      if b.valid.getLsbD (line % 4) then some (b.sector (line % 4), b.dirty.getLsbD (line % 4), b.poison.getLsbD (line % 4)) else none := by
  have hblk : (c.setBlk (line / 4) (some b)).blk line = (some b).filter (fun x => x.valid != 0) :=
    smGet_smSet_self dNone c.llc (line / 4) _
  by_cases hv : b.valid = 0
  · simp [Coh.sectorOf, hblk, Option.filter, hv]
  · have hkeep : (b.valid != 0) = true := by simpa using hv
    simp only [Coh.sectorOf, hblk, Option.filter, hkeep, if_true]

/-- A hit on a block changes its prediction alone. -/
theorem Coh.sectorOf_hitBlk (c : Coh) (line : Nat) : (c.hitBlk line).sectorOf line = c.sectorOf line := by
  unfold Coh.hitBlk
  cases hb : c.blk line with
  | none => rfl
  | some b =>
    rw [Coh.sectorOf_setBlk, Coh.sectorOf, hb]
    rfl

/-- A block with a sector put into it holds that sector, whatever else the store of it moves. -/
theorem Coh.sectorOf_setBlk_put (c : Coh) (line : Nat) (b : LlcBlk) (d : Line) (dirty poison sec : Bool) :
    (c.setBlk (line / 4) (some (b.put (line % 4) d dirty poison sec))).sectorOf line = some (d, dirty, poison) := by
  have hi : line % 4 < 4 := Nat.mod_lt _ (by decide)
  have hdirty : (b.put (line % 4) d dirty poison sec).dirty.getLsbD (line % 4) = dirty := getLsbD_setFlag b.dirty hi dirty
  have hpoison : (b.put (line % 4) d dirty poison sec).poison.getLsbD (line % 4) = poison := getLsbD_setFlag b.poison hi poison
  rw [Coh.sectorOf_setBlk, if_pos (b.put_valid hi ..), b.put_sector hi, hdirty, hpoison]

/-- A line put into the LLC is its sector from then on (07 R171). -/
theorem Coh.sectorOf_of_llcPut {c c' : Coh} {env : CohEnv} {line cls : Nat} {d : Line} {dirty poison sec : Bool}
    (h : c.llcPut env line d dirty poison sec cls = some c') : c'.sectorOf line = some (d, dirty, poison) := by
  unfold Coh.llcPut at h
  split at h
  · cases h
    exact Coh.sectorOf_setBlk_put ..
  · split at h
    · contradiction
    · split at h
      · contradiction
      · cases h
        exact Coh.sectorOf_setBlk_put ..

/-! ### The home's own copy -/

/-- The home's copy when a sector is valid. -/
theorem Coh.homeData_of_sector {c : Coh} {line : Nat} {x : Line × Bool × Bool} (env : CohEnv) (h : c.sectorOf line = some x) :
    c.homeData env line = x := by
  rw [Coh.homeData, h]

/-- The home's copy when no sector is valid. -/
theorem Coh.homeData_of_memory {c : Coh} {line : Nat} (env : CohEnv) (h : c.sectorOf line = none) :
    c.homeData env line = ((c.memLine env line).1, false, (c.memLine env line).2) := by
  rw [Coh.homeData, h]

/-- The bytes and the mark of the home's own copy: the valid LLC sector's, or memory's. -/
theorem Coh.homeData_bytes (c : Coh) (env : CohEnv) (line : Nat) :
    ((c.homeData env line).1, (c.homeData env line).2.2) =
      (match c.sectorOf line with | some (d, _, p) => (d, p) | none => c.memLine env line) := by
  cases hs : c.sectorOf line with
  | some x => rw [Coh.homeData_of_sector env hs]
  | none => rw [Coh.homeData_of_memory env hs]

@[simp] theorem Coh.homeData_count (c : Coh) (code unit req addr : Nat) (env : CohEnv) (line : Nat) :
    (c.count code unit req addr).homeData env line = c.homeData env line := rfl
@[simp] theorem Coh.homeData_setDe (c : Coh) (x : Nat) (e : Option DirEntry) (env : CohEnv) (line : Nat) :
    (c.setDe x e).homeData env line = c.homeData env line := rfl
@[simp] theorem Coh.homeData_send (c : Coh) (m : Msg) (env : CohEnv) (line : Nat) :
    (c.send m).homeData env line = c.homeData env line := rfl

/-- Snoops sent leave the home's copy as it is. -/
@[simp] theorem Coh.homeData_snoopAll (c : Coh) (k : MsgKind) (h rqr x : Nat) (l : List Nat) (env : CohEnv) (line : Nat) :
    (c.snoopAll k h rqr x l).homeData env line = c.homeData env line := by
  induction l generalizing c with
  | nil => rfl
  | cons a l ih => exact (ih _).trans (c.homeData_send ..)

/-- A fill of the LLC moves the home's copy without changing it: a valid sector stays, and memory's bytes become the sector or stay where they are (07 R171). -/
@[simp] theorem Coh.homeData_homeFill (c : Coh) (env : CohEnv) (line : Nat) (sec : Bool) (cls req : Nat) :
    (c.homeFill env line sec cls req).homeData env line = c.homeData env line := by
  unfold Coh.homeFill
  cases hs : c.sectorOf line with
  | some x =>
    rw [Coh.homeData_of_sector env hs]
    simp only [Coh.sectorOf_count, hs]
    exact Coh.homeData_of_sector env ((Coh.sectorOf_hitBlk _ line).trans hs)
  | none =>
    simp only [Coh.sectorOf_count, hs]
    split
    next c2 hput =>
      rw [Coh.homeData_of_memory env hs]
      exact Coh.homeData_of_sector env (Coh.sectorOf_of_llcPut hput)
    next => rfl

/-! ### Messages that carry no Data -/

/-- From `c` to `c'` no Data message is sent. -/
def Coh.SendsNoData (c c' : Coh) : Prop := ∀ m ∈ c'.msgs, m ∈ c.msgs ∨ m.kind ≠ .data

/-- A step that leaves the messages in flight alone sends no Data. -/
theorem Coh.SendsNoData.of_msgs_eq {c c' : Coh} (h : c'.msgs = c.msgs) : c.SendsNoData c' :=
  fun _ hm => .inl (h ▸ hm)

/-- A message of another kind, sent last, is no Data. -/
theorem Coh.SendsNoData.send {c c' : Coh} {m : Msg} (h : c.SendsNoData c') (hm : m.kind ≠ .data) : c.SendsNoData (c'.send m) := by
  intro x hx
  rcases List.mem_append.mp hx with hx | hx
  · exact h x hx
  · exact .inr (List.mem_singleton.mp hx ▸ hm)

/-- Opening or changing a transaction sends nothing. -/
theorem Coh.SendsNoData.setTxn {c c' : Coh} {line : Nat} {t : Option Txn} (h : c.SendsNoData c') : c.SendsNoData (c'.setTxn line t) := h

/-- Snoops are no Data. -/
theorem Coh.SendsNoData.snoopAll {c c' : Coh} {k : MsgKind} (h : c.SendsNoData c') (hk : k ≠ .data) (home rqr line : Nat) (l : List Nat) :
    c.SendsNoData (c'.snoopAll k home rqr line l) := by
  induction l generalizing c' with
  | nil => exact h
  | cons a l ih => exact ih (h.send hk)

/-- A home that serves a line with an owner sends snoops or a Cmp (08 R222). -/
theorem Coh.serveOwned_sendsNoData (c : Coh) (h : HomeLoc) (e : DirEntry) (b : Nat) (rq : HomeReq) :
    c.SendsNoData (c.serveOwned h e b rq) := by
  have hcount : c.SendsNoData (c.count 0x020 h.slice rq.req (64 * rq.line)) := .of_msgs_eq rfl
  have hinv (l : List Nat) : c.SendsNoData
      (((c.count 0x020 h.slice rq.req (64 * rq.line)).setDe rq.line (some (e.ownedBy rq.req false))).snoopAll .snpInv h.slice rq.req rq.line l) :=
    Coh.SendsNoData.snoopAll (.of_msgs_eq rfl) (by decide) _ _ _ l
  unfold Coh.serveOwned
  dsimp only
  split
  · split
    · split
      · exact .setTxn (.send (hinv _) nofun)
      · exact .setTxn (hinv _)
    · exact .setTxn (.send (hinv _) nofun)
  · exact .setTxn (.send hcount nofun)

/-- A RdCur of a line with an owner is answered by that owner's copy, which a SnpCur asks for (08 R222). -/
theorem Coh.serveAgent_sendsNoData {c : Coh} {rq : HomeReq} {e : DirEntry} {b : Nat} (env : CohEnv) (h : HomeLoc) (hk : rq.kind = .rdCur)
    (hd : c.de rq.line = some e) (ho : e.owner = some b) : c.SendsNoData (c.serveAgent env h rq) := by
  simp only [Coh.serveAgent, hd, hk, ho, if_true]
  exact Coh.SendsNoData.send (c' := c) (m := mkMsg .snpCur h.slice b rq.line rq.req) (.of_msgs_eq rfl) nofun

/-! ### The Data of a home -/

/-- `c` has in flight a Data message to the requester with the bytes and the mark of `x`. -/
def Coh.HasDataFor (c : Coh) (rq : HomeReq) (x : Line × Bool × Bool) : Prop :=
  ∃ m ∈ c.msgs, m.kind = .data ∧ m.dst = rq.req ∧ m.line = rq.line ∧ (m.data, m.poison) = (x.1, x.2.2)

/-- Neither the line's transaction nor its entry takes a message out of flight. -/
theorem Coh.HasDataFor.setTxn {c : Coh} {rq : HomeReq} {x : Line × Bool × Bool} {line : Nat} {t : Option Txn} (h : c.HasDataFor rq x) :
    (c.setTxn line t).HasDataFor rq x := h
theorem Coh.HasDataFor.setDe {c : Coh} {rq : HomeReq} {x : Line × Bool × Bool} {line : Nat} {e : Option DirEntry} (h : c.HasDataFor rq x) :
    (c.setDe line e).HasDataFor rq x := h

/-- Data sent are in flight. -/
theorem Coh.sendData_hasDataFor (c : Coh) (h : Nat) (rq : HomeReq) (g : Option Moes) (acks : Bool) (x : Line × Bool × Bool) :
    (c.sendData h rq g acks x.1 x.2.2).HasDataFor rq x :=
  ⟨_, List.mem_append_right _ (List.mem_singleton_self _), rfl, rfl, rfl, rfl⟩

/-- With sharers only, every request but an Upgrade gets the home's copy. -/
theorem Coh.serveShared_hasDataFor (c : Coh) (env : CohEnv) (h : HomeLoc) (e : DirEntry) (rq : HomeReq) (hk : rq.kind ≠ .upgrade) :
    (c.serveShared env h e rq).HasDataFor rq (c.homeData env rq.line) := by
  have hsend := fun (c' : Coh) g a => c'.sendData_hasDataFor h.slice rq g a (c.homeData env rq.line)
  unfold Coh.serveShared
  simp only [hk, decide_false, Bool.false_and, Bool.false_eq_true, if_false, Coh.homeData_homeFill, Coh.homeData_setDe, Coh.homeData_snoopAll]
  split
  · exact .setTxn (hsend _ _ _)
  · exact .setTxn (.setDe (hsend _ _ _))

/-- A RdCur of a line with no owner gets the home's copy at once (08 R222). -/
theorem Coh.serveAgent_hasDataFor {c : Coh} {rq : HomeReq} {e : DirEntry} (env : CohEnv) (h : HomeLoc) (hk : rq.kind = .rdCur)
    (hd : c.de rq.line = some e) (ho : e.owner = none) : (c.serveAgent env h rq).HasDataFor rq (c.homeData env rq.line) := by
  simp only [Coh.serveAgent, hd, hk, ho, if_true, Coh.finishHome, mkTxn, Coh.homeData_count]
  exact Coh.sendData_hasDataFor ..

/-! ### The row of R222 that serves a request -/

/-- A request of a stop that is not the owner finds the entry as it stands. -/
theorem DirEntry.seenBy_of_owner_ne {e : DirEntry} {rq : HomeReq} (h : e.owner ≠ some rq.req) : e.seenBy rq = some e := by
  simp [DirEntry.seenBy, h]

/-- A read of a line that another stop owns is served by that stop. -/
theorem Coh.serveOrRetry_of_owner {c : Coh} {rq : HomeReq} {e : DirEntry} {b : Nat} (env : CohEnv) (h : HomeLoc)
    (hd : c.de rq.line = some e) (ho : e.owner = some b) (hb : b ≠ rq.req) : c.serveOrRetry env h rq = c.serveOwned h e b rq := by
  have hsee : e.seenBy rq = some e := DirEntry.seenBy_of_owner_ne (by simpa [ho] using hb)
  simp [Coh.serveOrRetry, Coh.serveRead, hd, hsee, ho]

/-- A read of a line that has an entry and no owner is served by the home. -/
theorem Coh.serveOrRetry_of_no_owner {c : Coh} {rq : HomeReq} {e : DirEntry} (env : CohEnv) (h : HomeLoc)
    (hd : c.de rq.line = some e) (ho : e.owner = none) : c.serveOrRetry env h rq = c.serveShared env h e rq := by
  have hsee : e.seenBy rq = some e := DirEntry.seenBy_of_owner_ne (by simp [ho])
  simp [Coh.serveOrRetry, Coh.serveRead, hd, hsee, ho]

/-- A core's four requests for a copy are reads of the home. -/
theorem Coh.homeServe_of_read {rq : HomeReq} {env : CohEnv} {h : HomeLoc} (c : Coh) (hh : env.home rq.line = some h)
    (hk : rq.kind ∈ [.rdShared, .rdCode, .rdOwn, .upgrade]) : c.homeServe env rq = c.serveOrRetry env h rq := by
  simp only [List.mem_cons, List.not_mem_nil, or_false] at hk
  rcases hk with hk | hk | hk | hk <;> simp only [Coh.homeServe, hh, hk]

/-- RdCur is a request of an I/O agent. -/
theorem Coh.homeServe_of_rdCur {rq : HomeReq} {env : CohEnv} {h : HomeLoc} (c : Coh) (hh : env.home rq.line = some h)
    (hk : rq.kind = .rdCur) : c.homeServe env rq = c.serveAgent env h rq := by
  simp only [Coh.homeServe, hh, hk]

/-! ### Who supplies a line (08 R221) -/

/-- While another stop owns the line, a home sends no Data for it. -/
theorem Coh.homeServe_sendsNoData {c : Coh} {rq : HomeReq} {e : DirEntry} {b : Nat} (env : CohEnv) (hd : c.de rq.line = some e)
    (ho : e.owner = some b) (hb : b ≠ rq.req) (hk : rq.kind ∈ [.rdShared, .rdCode, .rdOwn, .upgrade] ∨ rq.kind = .rdCur) :
    c.SendsNoData (c.homeServe env rq) := by
  cases hh : env.home rq.line with
  | none => exact .of_msgs_eq (by rw [Coh.homeServe, hh])
  | some h =>
    rcases hk with hk | hk
    · rw [c.homeServe_of_read hh hk, Coh.serveOrRetry_of_owner env h hd ho hb]
      exact c.serveOwned_sendsNoData h e b rq
    · rw [c.homeServe_of_rdCur hh hk]
      exact Coh.serveAgent_sendsNoData env h hk hd ho

/-- With an entry and no owner, the home answers a RdShared, RdCode, RdOwn or RdCur with its own copy. -/
theorem Coh.homeServe_hasDataFor {c : Coh} {rq : HomeReq} {env : CohEnv} {h : HomeLoc} {e : DirEntry} (hh : env.home rq.line = some h)
    (hd : c.de rq.line = some e) (ho : e.owner = none) (hk : rq.kind ∈ [.rdShared, .rdCode, .rdOwn] ∨ rq.kind = .rdCur) :
    (c.homeServe env rq).HasDataFor rq (c.homeData env rq.line) := by
  rcases hk with hk | hk
  · have hne : rq.kind ≠ .upgrade := fun heq => by simp [heq] at hk
    rw [c.homeServe_of_read hh (List.mem_append_left [ReqKind.upgrade] hk), Coh.serveOrRetry_of_no_owner env h hd ho]
    exact c.serveShared_hasDataFor env h e rq hne
  · rw [c.homeServe_of_rdCur hh hk]
    exact Coh.serveAgent_hasDataFor env h hk hd ho

/-- A reader that keeps no copy gets the owner's (08 R222 RdCur). -/
theorem Coh.current_of_owner {c : Coh} {line b : Nat} {e : DirEntry} {q : PLine} (env : CohEnv) (hd : c.de line = some e)
    (ho : e.owner = some b) (hq : c.pl b line = some q) : c.current env line = (q.data, q.poison) := by
  simp [Coh.current, hd, ho, hq]

/-- Settles O41: with another owner recorded by the snoops that serve the request, with none by what the LLC fill leaves of the home's copy. -/
theorem homeSupplies : Obligations.HomeSupplies := by
  refine ⟨fun c env rq e b hd ho hb hk => ?_, fun c env line b e q hd ho hq => Coh.current_of_owner env hd ho hq,
    fun c env rq h e hh hd ho hk => ?_⟩
  · exact Coh.homeServe_sendsNoData env hd ho hb (by simpa [or_assoc] using hk)
  · obtain ⟨m, hm, hkind, hdst, hline, hdata⟩ := Coh.homeServe_hasDataFor hh hd ho (by simpa [or_assoc] using hk)
    exact ⟨m, hm, hkind, hdst, hline, hdata.trans (c.homeData_bytes env rq.line)⟩

end Sys2Proof.Machine
end
